-- ==== Sys2Proof/Word.lean ====
section
/-!
DEFINITION. Words, bytes, and the plainest containers of the model: a finite map as a list of keys and values
with a default, and the canonical byte map that every memory of the module is.
-/

namespace Sys2Proof

/-- A dword (spec 00 R3). -/
abbrev Word := BitVec 64
/-- A 32-bit word: an instruction word or a tile slot (spec 00 R3). -/
abbrev Half := BitVec 32
/-- A byte. -/
abbrev Byte := BitVec 8

/-- Bits hi down to lo of a number. -/
def bits (w hi lo : Nat) : Nat := w / 2 ^ lo % 2 ^ (hi + 1 - lo)

/-- One bit of a number. -/
def bit (w i : Nat) : Bool := w / 2 ^ i % 2 == 1

/-- A Bool as the number 0 or 1. -/
def b2n (b : Bool) : Nat := if b then 1 else 0

/-- The low n bits of v read as a two's-complement integer. -/
def sx (n v : Nat) : Int :=
  if v % 2 ^ n < 2 ^ (n - 1) then ((v % 2 ^ n : Nat) : Int) else ((v % 2 ^ n : Nat) : Int) - (2 ^ n : Nat)

/-- The low n bits of an integer in two's complement. -/
def ux (n : Nat) (i : Int) : Nat := (i % (2 ^ n : Nat)).toNat

/-- A finite map from numbers, as a list of pairs in rising order of key. -/
abbrev AList (α : Type) := List (Nat × α)

namespace AList

/-- The value of a key, or the default. -/
def get {α : Type} (d : α) : AList α → Nat → α
  | [], _ => d
  | (k, v) :: m, i => if k = i then v else get d m i

/-- The value of a key, if it has one. -/
def find? {α : Type} : AList α → Nat → Option α
  | [], _ => none
  | (k, v) :: m, i => if k = i then some v else find? m i

/-- Sets the value of a key. -/
def put {α : Type} (i : Nat) (x : α) : AList α → AList α
  | [] => [(i, x)]
  | (k, v) :: m => if i < k then (i, x) :: (k, v) :: m else if k = i then (i, x) :: m else (k, v) :: put i x m

/-- Removes a key. -/
def del {α : Type} (i : Nat) : AList α → AList α
  | [] => []
  | (k, v) :: m => if k = i then del i m else (k, v) :: del i m

end AList

/-- A byte memory: (address, byte) pairs, addresses strictly rising, no byte 0 listed. A byte not listed reads 0. -/
abbrev Memory := List Host.Cell

namespace Memory

/-- The byte at an address. Log 3, DESIGN CHOICE, unsafe. -/
def read : Memory → Nat → Byte
  | [], _ => 0
  | (k, v) :: m, a => if k = a then v else read m a

/-- Writes one byte, keeping the canonical form. -/
def write (a : Nat) (b : Byte) : Memory → Memory
  | [] => if b = 0 then [] else [(a, b)]
  | (k, v) :: m =>
    if a < k then (if b = 0 then (k, v) :: m else (a, b) :: (k, v) :: m)
    else if k = a then (if b = 0 then m else (a, b) :: m)
    else (k, v) :: write a b m

/-- The canonical form above a bound. -/
def wfFrom : Nat → Memory → Bool
  | _, [] => true
  | lo, (k, v) :: m => decide (lo ≤ k) && (v != 0) && wfFrom (k + 1) m

/-- The canonical form: addresses strictly rising and no entry equal to what an unlisted address reads as. Log 3, DESIGN
CHOICE, unsafe. -/
def wf (m : Memory) : Bool := wfFrom 0 m

/-- n bytes at an address as a little-endian number (spec 00 R3). -/
def readN (m : Memory) (a : Nat) : Nat → Nat
  | 0 => 0
  | n + 1 => (read m a).toNat + 256 * readN m (a + 1) n

/-- Writes the low n bytes of v at an address, little-endian (spec 00 R3). -/
def writeN (a v : Nat) : Nat → Memory → Memory
  | 0, m => m
  | n + 1, m => writeN (a + 1) (v / 256) n (write a (BitVec.ofNat 8 v) m)

/-- Clears every byte of an address range. -/
def clear (lo hi : Nat) : Memory → Memory
  | [] => []
  | (k, v) :: m => if lo ≤ k ∧ k < hi then clear lo hi m else (k, v) :: clear lo hi m

end Memory

/-- A tile register's 64 slots of 32 bits, slot s at index s (spec 13 R288). -/
abbrev Tile := List Half

namespace Tile

/-- The tile whose slot s is f s. -/
def build (f : Nat → Half) : Tile := (List.range 64).map f

/-- Slot s. -/
def slot (t : Tile) (s : Nat) : Half := t.getD s 0

/-- The tile of 64 zero slots. -/
def zero : Tile := List.replicate 64 0

end Tile

end Sys2Proof
end

