-- ==== Sys2Proof/Syntax.lean ====
section
/-!
DEFINITION. The instructions of the module as syntax: one constructor per row of spec/opcode_table.json. The first 258
are the CPU's instructions, the next 25 the engines' commands, the last 94 the events, each one indivisible step of a
part other than an issuing core.
-/

namespace Sys2Proof

/-- A register field: x0 to x31 (09 R191), or v0 to v27 and the link ports ln, le, ls, lw as 28 to 31 (09 R192). -/
abbrev Reg := Fin 32
/-- The lookahead field (09 R197). -/
abbrev La := Fin 16
/-- A rounding-mode field, coded as 09 R194. -/
abbrev Rm := Fin 8
/-- A CSR number (10 R237). -/
abbrev Csr := Fin 4096

/-- A scope, in the order of its codes (06 R117). -/
inductive Scope where
  | c | q | t | d | p | y | s
  deriving DecidableEq, Repr

/-- The code of a scope (06 R117). -/
def Scope.code : Scope → Nat
  | .c => 0 | .q => 1 | .t => 2 | .d => 3 | .p => 4 | .y => 5 | .s => 6

/-- The scope of a code; 0b111 is reserved (06 R117). -/
def Scope.ofCode (n : Nat) : Option Scope :=
  if n = 0 then some .c else if n = 1 then some .q else if n = 2 then some .t else if n = 3 then some .d
  else if n = 4 then some .p else if n = 5 then some .y else if n = 6 then some .s else none

/-- Element types of the tile integer operations, in the order of f3 (13 R295). -/
inductive TInt where
  | i32 | i16 | i8 | i4 | ui32 | ui16 | ui8
  deriving DecidableEq, Repr

/-- The f3 code of an integer element type (13 R295). -/
def TInt.code : TInt → Nat
  | .i32 => 0 | .i16 => 1 | .i8 => 2 | .i4 => 3 | .ui32 => 4 | .ui16 => 5 | .ui8 => 6

/-- The integer element type of an f3 code (13 R295). -/
def TInt.ofCode (n : Nat) : Option TInt :=
  if n = 0 then some .i32 else if n = 1 then some .i16 else if n = 2 then some .i8 else if n = 3 then some .i4
  else if n = 4 then some .ui32 else if n = 5 then some .ui16 else if n = 6 then some .ui8 else none

/-- Element types of the tile floating operations, in the order of f3 (13 R296). -/
inductive TFlt where
  | f32 | bf16 | f16
  deriving DecidableEq, Repr

/-- The f3 code of a floating element type (13 R296). -/
def TFlt.code : TFlt → Nat
  | .f32 => 0 | .bf16 => 1 | .f16 => 2

/-- The floating element type of an f3 code (13 R296). -/
def TFlt.ofCode (n : Nat) : Option TFlt :=
  if n = 0 then some .f32 else if n = 1 then some .bf16 else if n = 2 then some .f16 else none

/-- Number formats, in the order of their codes (13 R301). -/
inductive Fmt where
  | f32 | bf16 | f16 | e4m3 | e5m2 | e3m2 | e2m3 | e2m1 | i32 | i16 | i8 | i4 | ui32 | ui16 | ui8
  deriving DecidableEq, Repr

/-- The code of a format (13 R301). -/
def Fmt.code : Fmt → Nat
  | .f32 => 0 | .bf16 => 1 | .f16 => 2 | .e4m3 => 3 | .e5m2 => 4 | .e3m2 => 5 | .e2m3 => 6 | .e2m1 => 7
  | .i32 => 8 | .i16 => 9 | .i8 => 10 | .i4 => 11 | .ui32 => 12 | .ui16 => 13 | .ui8 => 14

/-- The format of a code; 15 is reserved (13 R301). -/
def Fmt.ofCode (n : Nat) : Option Fmt :=
  if n = 0 then some .f32 else if n = 1 then some .bf16 else if n = 2 then some .f16 else if n = 3 then some .e4m3
  else if n = 4 then some .e5m2 else if n = 5 then some .e3m2 else if n = 6 then some .e2m3 else if n = 7 then some .e2m1
  else if n = 8 then some .i32 else if n = 9 then some .i16 else if n = 10 then some .i8 else if n = 11 then some .i4
  else if n = 12 then some .ui32 else if n = 13 then some .ui16 else if n = 14 then some .ui8 else none

/-- Conditions of vcmp, in the order of their codes (13 R308). -/
inductive Cond where
  | eq | ne | lt | le | gt | ge
  deriving DecidableEq, Repr

/-- The code of a condition (13 R308). -/
def Cond.code : Cond → Nat
  | .eq => 0 | .ne => 1 | .lt => 2 | .le => 3 | .gt => 4 | .ge => 5

/-- The condition of a code (13 R308). -/
def Cond.ofCode (n : Nat) : Option Cond :=
  if n = 0 then some .eq else if n = 1 then some .ne else if n = 2 then some .lt else if n = 3 then some .le
  else if n = 4 then some .gt else if n = 5 then some .ge else none

/-- Formats of vcmp (13 R308): a floating format, or an integer width with its sign. -/
inductive CmpFmt where
  | f32 | bf16 | f16 | i32 | i16 | i8 | ui32 | ui16 | ui8
  deriving DecidableEq, Repr

/-- The f3b code of a vcmp format (13 R308). -/
def CmpFmt.code : CmpFmt → Nat
  | .f32 => 0 | .bf16 => 1 | .f16 => 2 | .i32 => 3 | .i16 => 4 | .i8 => 5 | .ui32 => 3 | .ui16 => 4 | .ui8 => 5

/-- Whether a vcmp format is an unsigned integer format: f4[3] (13 R308). -/
def CmpFmt.isU : CmpFmt → Bool
  | .ui32 => true | .ui16 => true | .ui8 => true | _ => false

/-- The vcmp format of f3b and f4[3] (13 R308). -/
def CmpFmt.ofCode (n : Nat) (u : Bool) : Option CmpFmt :=
  if u then (if n = 3 then some .ui32 else if n = 4 then some .ui16 else if n = 5 then some .ui8 else none)
  else if n = 0 then some .f32 else if n = 1 then some .bf16 else if n = 2 then some .f16
  else if n = 3 then some .i32 else if n = 4 then some .i16 else if n = 5 then some .i8 else none

/-- The reduction and atomic operations (04 R79, 11 R255, R258). -/
inductive RedOp where
  | add | and | or | xor | min | max | minu | maxu | fadd
  deriving DecidableEq, Repr

/-- The code of a reduction (11 R258). -/
def RedOp.code : RedOp → Nat
  | .add => 1 | .and => 2 | .or => 3 | .xor => 4 | .min => 5 | .max => 6 | .minu => 7 | .maxu => 8 | .fadd => 9

/-- The reduction of a code (11 R258). -/
def RedOp.ofCode (n : Nat) : Option RedOp :=
  if n = 1 then some .add else if n = 2 then some .and else if n = 3 then some .or else if n = 4 then some .xor
  else if n = 5 then some .min else if n = 6 then some .max else if n = 7 then some .minu else if n = 8 then some .maxu
  else if n = 9 then some .fadd else none

/-- What an access does to a page (02 R32). -/
inductive Acc where
  | load | store | exec
  deriving DecidableEq, Repr

/-- The fields of a prefix word (09 R193), its reserved field being 0. -/
structure Pfx where
  sat : Bool
  gang : Bool
  goff : Fin 4
  v4 : Bool
  op4 : Reg
  rm : Rm
  zero : Bool
  mask : Reg
  deriving DecidableEq, Repr

/-- The header of an engine command but for its opcode and length (09 R202, R203). -/
structure Hdr where
  pred : Nat
  rtag : Nat
  giveback : Bool
  fill : Bool
  rack : Bool
  cdscoped : Bool
  traperr : Bool
  cscope : Scope
  cidx : Nat
  succ : Nat
  deriving DecidableEq, Repr

/-- A scratchpad span of the issuing cluster (15 R356). -/
structure Spx where
  core : Nat
  off : Nat
  len : Nat
  deriving DecidableEq, Repr

/-- A location of a base-die command (15 R356). -/
inductive Loc where
  | glob (va : Nat)
  | spad (core off : Nat)
  deriving DecidableEq, Repr

/-- The operands shared by mx.densa, mx.ldb and mx.gatha (14 R327). -/
structure MxLoad where
  core : Nat
  off : Nat
  stride : Nat
  kcnt : Nat
  koff : Nat
  row0 : Nat
  cnt : Nat
  fmt : Fmt
  bank : Bool
  deriving DecidableEq, Repr

/-- The operands of mx.drain (14 R337). -/
structure MxDrain where
  dst : Bool
  stride : Nat
  m : Nat
  n : Nat
  rm : Rm
  sat : Bool
  int32 : Bool
  clr : Bool
  addr : Nat
  deriving DecidableEq, Repr

/-- The instructions, commands and events of the module, one constructor per row of the opcode table. -/
inductive Instr where
  -- CPU instructions (10, 11, 13, 16)
  /-- ADD, R212. -/
  | add (rd rs1 rs2 : Reg)
  /-- SLL, R212. -/
  | sll (rd rs1 rs2 : Reg)
  /-- SLT, R212. -/
  | slt (rd rs1 rs2 : Reg)
  /-- SLTU, R212. -/
  | sltu (rd rs1 rs2 : Reg)
  /-- XOR, R212. -/
  | xor (rd rs1 rs2 : Reg)
  /-- SRL, R212. -/
  | srl (rd rs1 rs2 : Reg)
  /-- OR, R212. -/
  | or (rd rs1 rs2 : Reg)
  /-- AND, R212. -/
  | and (rd rs1 rs2 : Reg)
  /-- SUB, R212. -/
  | sub (rd rs1 rs2 : Reg)
  /-- SRA, R212. -/
  | sra (rd rs1 rs2 : Reg)
  /-- MUL, R212. -/
  | mul (rd rs1 rs2 : Reg)
  /-- MULH, R212. -/
  | mulh (rd rs1 rs2 : Reg)
  /-- MULHSU, R212. -/
  | mulhsu (rd rs1 rs2 : Reg)
  /-- MULHU, R212. -/
  | mulhu (rd rs1 rs2 : Reg)
  /-- ADDW, R213. -/
  | addw (rd rs1 rs2 : Reg)
  /-- SUBW, R213. -/
  | subw (rd rs1 rs2 : Reg)
  /-- SLLW, R213. -/
  | sllw (rd rs1 rs2 : Reg)
  /-- SRLW, R213. -/
  | srlw (rd rs1 rs2 : Reg)
  /-- SRAW, R213. -/
  | sraw (rd rs1 rs2 : Reg)
  /-- MULW, R213. -/
  | mulw (rd rs1 rs2 : Reg)
  /-- ADDI, R214. -/
  | addi (rd rs1 : Reg) (imm : Int)
  /-- SLTI, R214. -/
  | slti (rd rs1 : Reg) (imm : Int)
  /-- SLTIU, R214. -/
  | sltiu (rd rs1 : Reg) (imm : Int)
  /-- XORI, R214. -/
  | xori (rd rs1 : Reg) (imm : Int)
  /-- ORI, R214. -/
  | ori (rd rs1 : Reg) (imm : Int)
  /-- ANDI, R214. -/
  | andi (rd rs1 : Reg) (imm : Int)
  /-- SLLI, R214. -/
  | slli (rd rs1 : Reg) (sh : Fin 64)
  /-- SRLI, R214. -/
  | srli (rd rs1 : Reg) (sh : Fin 64)
  /-- SRAI, R214. -/
  | srai (rd rs1 : Reg) (sh : Fin 64)
  /-- ADDIW, R215. -/
  | addiw (rd rs1 : Reg) (imm : Int)
  /-- SLLIW, R215. -/
  | slliw (rd rs1 : Reg) (sh : Fin 32)
  /-- SRLIW, R215. -/
  | srliw (rd rs1 : Reg) (sh : Fin 32)
  /-- SRAIW, R215. -/
  | sraiw (rd rs1 : Reg) (sh : Fin 32)
  /-- LUI, R216. -/
  | lui (rd : Reg) (imm : Fin 1048576)
  /-- AUIPC, R216. -/
  | auipc (rd : Reg) (imm : Fin 1048576)
  /-- DIV, R217. -/
  | div (rd rs1 rs2 : Reg) (la : La)
  /-- DIVU, R217. -/
  | divu (rd rs1 rs2 : Reg) (la : La)
  /-- REM, R217. -/
  | rem (rd rs1 rs2 : Reg) (la : La)
  /-- REMU, R217. -/
  | remu (rd rs1 rs2 : Reg) (la : La)
  /-- DIVW, R217. -/
  | divw (rd rs1 rs2 : Reg) (la : La)
  /-- DIVUW, R217. -/
  | divuw (rd rs1 rs2 : Reg) (la : La)
  /-- REMW, R217. -/
  | remw (rd rs1 rs2 : Reg) (la : La)
  /-- REMUW, R217. -/
  | remuw (rd rs1 rs2 : Reg) (la : La)
  /-- ANDN, R218. -/
  | andn (rd rs1 rs2 : Reg)
  /-- ORN, R218. -/
  | orn (rd rs1 rs2 : Reg)
  /-- MIN, R218. -/
  | min (rd rs1 rs2 : Reg)
  /-- MAX, R218. -/
  | max (rd rs1 rs2 : Reg)
  /-- MINU, R218. -/
  | minu (rd rs1 rs2 : Reg)
  /-- MAXU, R218. -/
  | maxu (rd rs1 rs2 : Reg)
  /-- ROL, R218. -/
  | rol (rd rs1 rs2 : Reg)
  /-- ROR, R218. -/
  | ror (rd rs1 rs2 : Reg)
  /-- CLMUL, R220. -/
  | clmul (rd rs1 rs2 : Reg)
  /-- CLMULH, R220. -/
  | clmulh (rd rs1 rs2 : Reg)
  /-- CLMULR, R220. -/
  | clmulr (rd rs1 rs2 : Reg)
  /-- BEXT, R221. -/
  | bext (rd rs1 rs2 : Reg)
  /-- BDEP, R221. -/
  | bdep (rd rs1 rs2 : Reg)
  /-- CLZ, R219. -/
  | clz (rd rs1 : Reg)
  /-- CTZ, R219. -/
  | ctz (rd rs1 : Reg)
  /-- POPC, R219. -/
  | popc (rd rs1 : Reg)
  /-- BREV, R219. -/
  | brev (rd rs1 : Reg)
  /-- BSWAP, R219. -/
  | bswap (rd rs1 : Reg)
  /-- SEXT_B, R219. -/
  | sextB (rd rs1 : Reg)
  /-- SEXT_H, R219. -/
  | sextH (rd rs1 : Reg)
  /-- SEXT_W, R219. -/
  | sextW (rd rs1 : Reg)
  /-- ZEXT_B, R219. -/
  | zextB (rd rs1 : Reg)
  /-- ZEXT_H, R219. -/
  | zextH (rd rs1 : Reg)
  /-- ZEXT_W, R219. -/
  | zextW (rd rs1 : Reg)
  /-- RORI, R218. -/
  | rori (rd rs1 : Reg) (sh : Fin 64)
  /-- MODP, R222. -/
  | modp (rd rs1 : Reg) (c : Fin 64)
  /-- BEQ, R223. -/
  | beq (rs1 rs2 : Reg) (off : Int)
  /-- BNE, R223. -/
  | bne (rs1 rs2 : Reg) (off : Int)
  /-- BBS, R223. -/
  | bbs (rs1 rs2 : Reg) (off : Int)
  /-- BBC, R223. -/
  | bbc (rs1 rs2 : Reg) (off : Int)
  /-- BLT, R223. -/
  | blt (rs1 rs2 : Reg) (off : Int)
  /-- BGE, R223. -/
  | bge (rs1 rs2 : Reg) (off : Int)
  /-- BLTU, R223. -/
  | bltu (rs1 rs2 : Reg) (off : Int)
  /-- BGEU, R223. -/
  | bgeu (rs1 rs2 : Reg) (off : Int)
  /-- JAL, R224. -/
  | jal (rd : Reg) (off : Int)
  /-- JALR, R225. -/
  | jalr (rd rs1 : Reg) (imm : Int)
  /-- JALP, R225. -/
  | jalp (rd rs1 : Reg)
  /-- FADD_S, R230. -/
  | faddS (rd rs1 rs2 : Reg) (rm : Rm)
  /-- FSUB_S, R230. -/
  | fsubS (rd rs1 rs2 : Reg) (rm : Rm)
  /-- FMUL_S, R230. -/
  | fmulS (rd rs1 rs2 : Reg) (rm : Rm)
  /-- FMIN_S, R231. -/
  | fminS (rd rs1 rs2 : Reg)
  /-- FMAX_S, R231. -/
  | fmaxS (rd rs1 rs2 : Reg)
  /-- FSGNJ_S, R230. -/
  | fsgnjS (rd rs1 rs2 : Reg)
  /-- FSGNJN_S, R230. -/
  | fsgnjnS (rd rs1 rs2 : Reg)
  /-- FSGNJX_S, R230. -/
  | fsgnjxS (rd rs1 rs2 : Reg)
  /-- FLE_S, R232. -/
  | fleS (rd rs1 rs2 : Reg)
  /-- FLT_S, R232. -/
  | fltS (rd rs1 rs2 : Reg)
  /-- FEQ_S, R232. -/
  | feqS (rd rs1 rs2 : Reg)
  /-- FCLASS_S, R232. -/
  | fclassS (rd rs1 : Reg)
  /-- FCVT_W_S, R233. -/
  | fcvtWS (rd rs1 : Reg) (rm : Rm)
  /-- FCVT_WU_S, R233. -/
  | fcvtWuS (rd rs1 : Reg) (rm : Rm)
  /-- FCVT_L_S, R233. -/
  | fcvtLS (rd rs1 : Reg) (rm : Rm)
  /-- FCVT_LU_S, R233. -/
  | fcvtLuS (rd rs1 : Reg) (rm : Rm)
  /-- FCVT_S_W, R233. -/
  | fcvtSW (rd rs1 : Reg) (rm : Rm)
  /-- FCVT_S_WU, R233. -/
  | fcvtSWu (rd rs1 : Reg) (rm : Rm)
  /-- FCVT_S_L, R233. -/
  | fcvtSL (rd rs1 : Reg) (rm : Rm)
  /-- FCVT_S_LU, R233. -/
  | fcvtSLu (rd rs1 : Reg) (rm : Rm)
  /-- FDIV_S, R235. -/
  | fdivS (rd rs1 rs2 : Reg) (rm : Rm) (la : La)
  /-- FSQRT_S, R235. -/
  | fsqrtS (rd rs1 : Reg) (rm : Rm) (la : La)
  /-- FMADD_S, R234. -/
  | fmaddS (rd rs1 rs2 rs3 : Reg) (rm : Rm)
  /-- FMSUB_S, R234. -/
  | fmsubS (rd rs1 rs2 rs3 : Reg) (rm : Rm)
  /-- FNMSUB_S, R234. -/
  | fnmsubS (rd rs1 rs2 rs3 : Reg) (rm : Rm)
  /-- FNMADD_S, R234. -/
  | fnmaddS (rd rs1 rs2 rs3 : Reg) (rm : Rm)
  /-- CSRRW, R236. -/
  | csrrw (rd rs1 : Reg) (csr : Csr)
  /-- CSRRS, R236. -/
  | csrrs (rd rs1 : Reg) (csr : Csr)
  /-- CSRRC, R236. -/
  | csrrc (rd rs1 : Reg) (csr : Csr)
  /-- CSRRWI, R236. -/
  | csrrwi (rd : Reg) (u : Fin 32) (csr : Csr)
  /-- CSRRSI, R236. -/
  | csrrsi (rd : Reg) (u : Fin 32) (csr : Csr)
  /-- CSRRCI, R236. -/
  | csrrci (rd : Reg) (u : Fin 32) (csr : Csr)
  /-- TRAP, R240. -/
  | trap (imm : Fin 256)
  /-- ERET, R416. -/
  | eret
  /-- HALT, R242. -/
  | halt
  /-- BRK, R240. -/
  | brk
  /-- LB, R247. -/
  | lb (rd rs1 : Reg) (imm : Int) (la : La)
  /-- LH, R247. -/
  | lh (rd rs1 : Reg) (imm : Int) (la : La)
  /-- LW, R247. -/
  | lw (rd rs1 : Reg) (imm : Int) (la : La)
  /-- LD, R247. -/
  | ld (rd rs1 : Reg) (imm : Int) (la : La)
  /-- LBU, R247. -/
  | lbu (rd rs1 : Reg) (imm : Int) (la : La)
  /-- LHU, R247. -/
  | lhu (rd rs1 : Reg) (imm : Int) (la : La)
  /-- LWU, R247. -/
  | lwu (rd rs1 : Reg) (imm : Int) (la : La)
  /-- LOAD_ACQUIRE, R249. -/
  | loadAcquire (rd rs1 : Reg) (size : Fin 8) (sc : Scope) (la : La)
  /-- SB, R248. -/
  | sb (rs2 rs1 : Reg) (imm : Int)
  /-- SH, R248. -/
  | sh (rs2 rs1 : Reg) (imm : Int)
  /-- SW, R248. -/
  | sw (rs2 rs1 : Reg) (imm : Int)
  /-- SD, R248. -/
  | sd (rs2 rs1 : Reg) (imm : Int)
  /-- STORE_RELEASE, R249. -/
  | storeRelease (rs2 rs1 : Reg) (size : Fin 4) (sc : Scope)
  /-- VLD, R250. -/
  | vld (vd rs1 : Reg) (imm : Int) (la : La) (pfx : Option Pfx)
  /-- VLDB, R250. -/
  | vldb (vd rs1 : Reg) (imm : Int) (la : La) (pfx : Option Pfx)
  /-- VLDS, R250. -/
  | vlds (vd rs1 rs2 : Reg) (la : La) (pfx : Option Pfx)
  /-- VLDG, R250. -/
  | vldg (vd rs1 vs2 : Reg) (la : La) (pfx : Option Pfx)
  /-- VST, R250. -/
  | vst (vs rs1 : Reg) (imm : Int) (pfx : Option Pfx)
  /-- VSTS, R250. -/
  | vsts (vs rs1 rs2 : Reg) (pfx : Option Pfx)
  /-- VSTG, R252. -/
  | vstg (vs rs1 vs2 : Reg) (pfx : Option Pfx)
  /-- LDF_E, R65. -/
  | ldfE (rd rs1 : Reg) (imm : Int) (la : La)
  /-- LDF_F, R65. -/
  | ldfF (rd rs1 : Reg) (imm : Int) (la : La)
  /-- STE, R65. -/
  | ste (rs2 rs1 : Reg) (imm : Int)
  /-- STF, R65. -/
  | stf (rs2 rs1 : Reg) (imm : Int)
  /-- FETAG, R65. -/
  | fetag (rd rs1 : Reg) (imm : Int)
  /-- FSET_E, R65. -/
  | fsetE (rs1 : Reg) (imm : Int)
  /-- FSET_F, R65. -/
  | fsetF (rs1 : Reg) (imm : Int)
  /-- AMOSWAP, R256. -/
  | amoswap (rd rs1 : Reg) (dbl aq rl : Bool) (sc : Scope) (la : La)
  /-- AMOADD, R256. -/
  | amoadd (rd rs1 : Reg) (dbl aq rl : Bool) (sc : Scope) (la : La)
  /-- AMOAND, R256. -/
  | amoand (rd rs1 : Reg) (dbl aq rl : Bool) (sc : Scope) (la : La)
  /-- AMOOR, R256. -/
  | amoor (rd rs1 : Reg) (dbl aq rl : Bool) (sc : Scope) (la : La)
  /-- AMOXOR, R256. -/
  | amoxor (rd rs1 : Reg) (dbl aq rl : Bool) (sc : Scope) (la : La)
  /-- AMOMIN, R256. -/
  | amomin (rd rs1 : Reg) (dbl aq rl : Bool) (sc : Scope) (la : La)
  /-- AMOMAX, R256. -/
  | amomax (rd rs1 : Reg) (dbl aq rl : Bool) (sc : Scope) (la : La)
  /-- AMOMINU, R256. -/
  | amominu (rd rs1 : Reg) (dbl aq rl : Bool) (sc : Scope) (la : La)
  /-- AMOMAXU, R256. -/
  | amomaxu (rd rs1 : Reg) (dbl aq rl : Bool) (sc : Scope) (la : La)
  /-- AMOFADD, R256. -/
  | amofadd (rd rs1 : Reg) (aq rl : Bool) (sc : Scope) (la : La)
  /-- AMOCAS, R256. -/
  | amocas (rd rs1 : Reg) (dbl aq rl : Bool) (sc : Scope) (la : La)
  /-- LR, R257. -/
  | lr (rd rs1 : Reg) (dbl aq : Bool) (sc : Scope) (la : La)
  /-- SC, R257. -/
  | sc (rd rs1 : Reg) (dbl rl : Bool) (sc : Scope) (la : La)
  /-- REDADD, R258. -/
  | redadd (rs2 rs1 : Reg) (dbl : Bool)
  /-- REDAND, R258. -/
  | redand (rs2 rs1 : Reg) (dbl : Bool)
  /-- REDOR, R258. -/
  | redor (rs2 rs1 : Reg) (dbl : Bool)
  /-- REDXOR, R258. -/
  | redxor (rs2 rs1 : Reg) (dbl : Bool)
  /-- REDMIN, R258. -/
  | redmin (rs2 rs1 : Reg) (dbl : Bool)
  /-- REDMAX, R258. -/
  | redmax (rs2 rs1 : Reg) (dbl : Bool)
  /-- REDMINU, R258. -/
  | redminu (rs2 rs1 : Reg) (dbl : Bool)
  /-- REDMAXU, R258. -/
  | redmaxu (rs2 rs1 : Reg) (dbl : Bool)
  /-- REDFADD, R258. -/
  | redfadd (rs2 rs1 : Reg)
  /-- FENCE, R259. -/
  | fence (pred succ : Fin 256) (sc : Scope)
  /-- IFENCE, R260. -/
  | ifence
  /-- CODEINV, R261. -/
  | codeinv (rs1 rs2 : Reg) (sc : Scope)
  /-- IPREF, R262. -/
  | ipref (rs2 rs1 : Reg)
  /-- DPREF, R262. -/
  | dpref (rs1 : Reg) (imm : Int)
  /-- TLBLOG, R263. -/
  | tlblog (rd rs1 rs2 : Reg) (die : Fin 8)
  /-- TLBLOGW, R263. -/
  | tlblogw (rd rs1 rs2 : Reg) (die : Fin 8)
  /-- VADD, R295. -/
  | vadd (vd vs1 src2 : Reg) (x : Bool) (ty : TInt) (pfx : Option Pfx)
  /-- VSUB, R295. -/
  | vsub (vd vs1 src2 : Reg) (x : Bool) (ty : TInt) (pfx : Option Pfx)
  /-- VMUL, R295. -/
  | vmul (vd vs1 src2 : Reg) (x : Bool) (ty : TInt) (pfx : Option Pfx)
  /-- VMULH, R295. -/
  | vmulh (vd vs1 src2 : Reg) (x : Bool) (ty : TInt) (pfx : Option Pfx)
  /-- VMIN, R295. -/
  | vmin (vd vs1 src2 : Reg) (x : Bool) (ty : TInt) (pfx : Option Pfx)
  /-- VMAX, R295. -/
  | vmax (vd vs1 src2 : Reg) (x : Bool) (ty : TInt) (pfx : Option Pfx)
  /-- VAND, R295. -/
  | vand (vd vs1 src2 : Reg) (x : Bool) (ty : TInt) (pfx : Option Pfx)
  /-- VOR, R295. -/
  | vor (vd vs1 src2 : Reg) (x : Bool) (ty : TInt) (pfx : Option Pfx)
  /-- VXOR, R295. -/
  | vxor (vd vs1 src2 : Reg) (x : Bool) (ty : TInt) (pfx : Option Pfx)
  /-- VSLL, R295. -/
  | vsll (vd vs1 src2 : Reg) (x : Bool) (ty : TInt) (pfx : Option Pfx)
  /-- VSR, R295. -/
  | vsr (vd vs1 src2 : Reg) (x : Bool) (ty : TInt) (pfx : Option Pfx)
  /-- VABSD, R295. -/
  | vabsd (vd vs1 src2 : Reg) (x : Bool) (ty : TInt) (pfx : Option Pfx)
  /-- VFADD, R296. -/
  | vfadd (vd vs1 src2 : Reg) (x : Bool) (ty : TFlt) (pfx : Option Pfx)
  /-- VFSUB, R296. -/
  | vfsub (vd vs1 src2 : Reg) (x : Bool) (ty : TFlt) (pfx : Option Pfx)
  /-- VFMUL, R296. -/
  | vfmul (vd vs1 src2 : Reg) (x : Bool) (ty : TFlt) (pfx : Option Pfx)
  /-- VFMIN, R296. -/
  | vfmin (vd vs1 src2 : Reg) (x : Bool) (ty : TFlt) (pfx : Option Pfx)
  /-- VFMAX, R296. -/
  | vfmax (vd vs1 src2 : Reg) (x : Bool) (ty : TFlt) (pfx : Option Pfx)
  /-- VFMA, R296. -/
  | vfma (vd vs1 src2 : Reg) (x : Bool) (ty : TFlt) (pfx : Option Pfx)
  /-- VFMS, R296. -/
  | vfms (vd vs1 src2 : Reg) (x : Bool) (ty : TFlt) (pfx : Option Pfx)
  /-- VFNMA, R296. -/
  | vfnma (vd vs1 src2 : Reg) (x : Bool) (ty : TFlt) (pfx : Option Pfx)
  /-- VFABS, R296. -/
  | vfabs (vd vs1 : Reg) (ty : TFlt) (pfx : Option Pfx)
  /-- VFNEG, R296. -/
  | vfneg (vd vs1 : Reg) (ty : TFlt) (pfx : Option Pfx)
  /-- VSCACC, R298. -/
  | vscacc (vd vs1 vs2 : Reg) (pfx : Option Pfx)
  /-- VFDIV_F32, R299. -/
  | vfdivF32 (vd vs1 vs2 : Reg) (la : La) (pfx : Option Pfx)
  /-- VFSQRT_F32, R299. -/
  | vfsqrtF32 (vd vs1 : Reg) (la : La) (pfx : Option Pfx)
  /-- VFDIV_BF16, R299. -/
  | vfdivBf16 (vd vs1 vs2 : Reg) (la : La) (pfx : Option Pfx)
  /-- VFSQRT_BF16, R299. -/
  | vfsqrtBf16 (vd vs1 : Reg) (la : La) (pfx : Option Pfx)
  /-- VFDIV_F16, R299. -/
  | vfdivF16 (vd vs1 vs2 : Reg) (la : La) (pfx : Option Pfx)
  /-- VFSQRT_F16, R299. -/
  | vfsqrtF16 (vd vs1 : Reg) (la : La) (pfx : Option Pfx)
  /-- VEXP2, R300. -/
  | vexp2 (vd vs1 : Reg) (la : La) (pfx : Option Pfx)
  /-- VLOG2, R300. -/
  | vlog2 (vd vs1 : Reg) (la : La) (pfx : Option Pfx)
  /-- VRCP, R300. -/
  | vrcp (vd vs1 : Reg) (la : La) (pfx : Option Pfx)
  /-- VRSQRT, R300. -/
  | vrsqrt (vd vs1 : Reg) (la : La) (pfx : Option Pfx)
  /-- VSQRT, R300. -/
  | vsqrt (vd vs1 : Reg) (la : La) (pfx : Option Pfx)
  /-- VTANH, R300. -/
  | vtanh (vd vs1 : Reg) (la : La) (pfx : Option Pfx)
  /-- VSIN, R300. -/
  | vsin (vd vs1 : Reg) (la : La) (pfx : Option Pfx)
  /-- VCOS, R300. -/
  | vcos (vd vs1 : Reg) (la : La) (pfx : Option Pfx)
  /-- VCVT, R302. -/
  | vcvt (vd vs1 : Reg) (dst src : Fmt) (part : Fin 8) (pfx : Option Pfx)
  /-- VTRANS, R304. -/
  | vtrans (vd vs1 : Reg) (pfx : Option Pfx)
  /-- VPERM, R304. -/
  | vperm (vd vs1 vs2 : Reg) (pfx : Option Pfx)
  /-- VSLIDE_C, R304. -/
  | vslideC (vd vs1 xs : Reg) (pfx : Option Pfx)
  /-- VSLIDE_R, R304. -/
  | vslideR (vd vs1 xs : Reg) (pfx : Option Pfx)
  /-- VBCAST_R, R304. -/
  | vbcastR (vd vs1 xs : Reg) (pfx : Option Pfx)
  /-- VBCAST_C, R304. -/
  | vbcastC (vd vs1 xs : Reg) (pfx : Option Pfx)
  /-- VREDSUM, R305. -/
  | vredsum (vd vs1 : Reg) (col : Bool) (fmt : Fmt) (pfx : Option Pfx)
  /-- VREDMIN, R305. -/
  | vredmin (vd vs1 : Reg) (col : Bool) (fmt : Fmt) (pfx : Option Pfx)
  /-- VREDMAX, R305. -/
  | vredmax (vd vs1 : Reg) (col : Bool) (fmt : Fmt) (pfx : Option Pfx)
  /-- VRAND, R307. -/
  | vrand (vd : Reg) (pfx : Option Pfx)
  /-- VRANDF, R307. -/
  | vrandf (vd : Reg) (pfx : Option Pfx)
  /-- VCMP, R308. -/
  | vcmp (xd vs1 vs2 : Reg) (cond : Cond) (fmt : CmpFmt) (pfx : Option Pfx)
  /-- VSEL, R309. -/
  | vsel (vd vs1 vs2 : Reg) (pfx : Option Pfx)
  /-- VMV, R309. -/
  | vmv (vd vs1 : Reg) (pfx : Option Pfx)
  /-- VGETX, R310. -/
  | vgetx (xd vs1 xs : Reg) (pfx : Option Pfx)
  /-- VSETX, R310. -/
  | vsetx (vd xa xs : Reg) (pfx : Option Pfx)
  /-- VBCX, R310. -/
  | vbcx (vd xa : Reg) (pfx : Option Pfx)
  /-- TSHAPE, R291. -/
  | tshape (rows cols : Fin 8) (pfx : Option Pfx)
  /-- YIELD, R378. -/
  | yield
  /-- SUSPEND, R378. -/
  | suspend (rs1 : Reg)
  /-- EXIT, R377. -/
  | exit
  /-- JOIN, R376. -/
  | join (rs1 : Reg)
  /-- SPAWNL, R375. -/
  | spawnl (rd rs1 rs2 : Reg)
  /-- GANG, R389. -/
  | gang
  /-- UNGANG, R389. -/
  | ungang
  /-- FORK, R373. -/
  | fork (xs xj : Reg) (off : Int)
  /-- SPAWN, R374. -/
  | spawn (rs1 : Reg) (prio : Fin 4)
  /-- SPAWN_N, R374. -/
  | spawnN (rs1 : Reg) (prio : Fin 4)
  /-- SEND, R381. -/
  | send (rd rs1 rs2 : Reg) (n : Fin 4) (sc : Scope)
  /-- SENDP, R381. -/
  | sendp (rd rs1 rs2 : Reg) (n : Fin 4) (sc : Scope)
  /-- TAGEN, R383. -/
  | tagen (rd rs1 : Reg)
  /-- TAGDIS, R383. -/
  | tagdis (rd rs1 : Reg)
  /-- TAGSET, R383. -/
  | tagset (rd rs1 : Reg)
  /-- TAGCLR, R383. -/
  | tagclr (rd rs1 : Reg)
  /-- TAGQ, R383. -/
  | tagq (rd rs1 : Reg)
  /-- TAGW, R383. -/
  | tagw (rs1 rs2 xc : Reg)
  /-- WAIT, R385. -/
  | wait (rs1 : Reg) (grp : Fin 4)
  /-- BARA, R386. -/
  | bara (d : Fin 64)
  /-- BARW, R386. -/
  | barw (d : Fin 64)
  /-- BAR, R386. -/
  | bar (d : Fin 64)
  /-- GIVE, R61. -/
  | give (rs1 : Reg) (cnt : Fin 256)
  /-- TAKE, R387. -/
  | take (rs1 : Reg) (cnt : Fin 256)
  /-- MLEASE, R387. -/
  | mlease (rs1 : Reg)
  /-- MFREE, R323. -/
  | mfree
  /-- CDOPEN, R390. -/
  | cdopen (rd rs1 : Reg)
  /-- CDCLOSE, R391. -/
  | cdclose
  /-- CDABORT, R392. -/
  | cdabort
  /-- QSTAT, R388. -/
  | qstat (rd : Reg) (p : Fin 4)
  -- engine commands (14, 15)
  /-- MX_ZERO, R333. -/
  | mxZero (h : Hdr) (negz acls : Bool)
  /-- MX_LDB, R327. -/
  | mxLdb (h : Hdr) (ld : MxLoad)
  /-- MX_GATHA, R328. -/
  | mxGatha (h : Hdr) (ld : MxLoad) (icore ioff : Nat)
  /-- MX_DENSA, R327. -/
  | mxDensa (h : Hdr) (ld : MxLoad)
  /-- MX_CSRB, R329. -/
  | mxCsrb (h : Hdr) (rowptr colidx vals kcnt koff : Nat) (bank : Bool) (fmt : Fmt)
  /-- MX_RUN, R335. -/
  | mxRun (h : Hdr) (kcnt koff : Nat) (abank bbank : Bool) (m n : Nat)
  /-- MX_DRAIN, R338. -/
  | mxDrain (h : Hdr) (dr : MxDrain)
  /-- MX_STAT, R339. -/
  | mxStat (h : Hdr) (clr : Bool) (core off : Nat)
  /-- CP_G2S, R361. -/
  | cpG2s (h : Hdr) (va : Nat) (sp : Spx)
  /-- CP_S2G, R361. -/
  | cpS2g (h : Hdr) (va : Nat) (sp : Spx)
  /-- CP_S2S, R361. -/
  | cpS2s (h : Hdr) (sp : Spx) (ddie dclus dcore doff : Nat)
  /-- CP_2D, R361. -/
  | cp2d (h : Hdr) (va : Nat) (dir : Bool) (sp : Spx) (gstride : Int) (sstride rows : Nat)
  /-- CP_GATH, R361. -/
  | cpGath (h : Hdr) (va : Nat) (sp : Spx) (icore ioff cnt : Nat)
  /-- CP_RGET, R361. -/
  | cpRget (h : Hdr) (va : Nat) (sp : Spx) (planes : Nat) (path : Fin 3)
  /-- CP_RPUT, R361. -/
  | cpRput (h : Hdr) (va : Nat) (sp : Spx) (planes : Nat) (path : Fin 3)
  /-- CP_RRED, R361. -/
  | cpRred (h : Hdr) (va : Nat) (sp : Spx) (planes : Nat) (path : Fin 3) (op : RedOp) (dbl : Bool)
  /-- CP_CK, R361. -/
  | cpCk (h : Hdr) (src dst len : Nat)
  /-- CP_NOP, R155. -/
  | cpNop (h : Hdr)
  /-- HG_COUNT, R363. -/
  | hgCount (h : Hdr) (core off cnt : Nat)
  /-- HG_LATCH, R363. -/
  | hgLatch (h : Hdr) (first n : Nat) (clr wr : Bool) (base core off : Nat)
  /-- HG_CLEAR, R363. -/
  | hgClear (h : Hdr)
  /-- BD_GATH, R365. -/
  | bdGath (h : Hdr) (src dst : Loc) (icore ioff cnt rowu : Nat) (stack : Bool)
  /-- BD_RED, R285. -/
  | bdRed (h : Hdr) (src dst : Loc) (n vstr ecnt : Nat) (fmt : Fmt) (rm : Rm) (sat stack : Bool)
  /-- BD_CVT, R365. -/
  | bdCvt (h : Hdr) (src dst : Loc) (sfmt dfmt : Fmt) (rm : Rm) (sat : Bool) (ecnt : Nat) (stack : Bool)
  /-- BD_COPY, R365. -/
  | bdCopy (h : Hdr) (src dst : Loc) (len : Nat) (stack : Bool)
  -- events (95)
  /-- NODE_COMPLETE, R350. -/
  | nodeComplete (cl node : Nat)
  /-- MX_TURN_START, R321. -/
  | mxTurnStart (cl : Nat)
  /-- MX_TURN_TIMEOUT, R321. -/
  | mxTurnTimeout (cl : Nat)
  /-- TASK_PICK, R171. -/
  | taskPick (c : Nat)
  /-- STEAL, R172. -/
  | steal (c : Nat)
  /-- CORE_SLEEP_TIMEOUT, R174. -/
  | coreSleepTimeout (c : Nat)
  /-- FIFO_AGING, R173. -/
  | fifoAging (c : Nat)
  /-- MESSAGE_ARRIVAL, R176. -/
  | messageArrival (cl k : Nat)
  /-- INBOX_HELD_ACTION, R177. -/
  | inboxHeldAction (c : Nat)
  /-- NI_RESEND, R177. -/
  | niResend (cl k : Nat)
  /-- REMOTE_WORD_ACCESS, R74. -/
  | remoteWordAccess (c : Nat)
  /-- TRAP_ASYNC, R418. -/
  | trapAsync (c : Nat)
  /-- LA_RESULT_ARRIVE, R422. -/
  | laResultArrive (c k : Nat)
  /-- PAGE_WALK, R30. -/
  | pageWalk (c : Nat) (va : Word) (acc : Acc)
  /-- IL_APPLY, R39. -/
  | ilApply (d : Nat)
  /-- SCB_DRAIN_TIMEOUT, R85. -/
  | scbDrainTimeout (c : Nat)
  /-- RP_AGED_WRITEBACK, R153. -/
  | rpAgedWriteback (d : Nat)
  /-- REMOTE_TXN_FAIL, R86. -/
  | remoteTxnFail (k cause : Nat)
  /-- RFM_COMPLETE, R106. -/
  | rfmComplete (d bank : Nat)
  /-- REFRESH_WINDOW_END, R105. -/
  | refreshWindowEnd
  /-- HBM_SCRUB, R95. -/
  | hbmScrub (d line : Nat)
  /-- CE_FILTER_CLEAR, R107. -/
  | ceFilterClear
  /-- FABRIC_TXN_ARRIVE, R434. -/
  | fabricTxnArrive (k : Nat)
  /-- FABRIC_ACK_RECEIVE, R440. -/
  | fabricAckReceive (k : Nat)
  /-- MAP_NACK_RECEIVE, R446. -/
  | mapNackReceive (cl k : Nat)
  /-- ROTOR_SLOT_BOUNDARY, R438. -/
  | rotorSlotBoundary (plane seen : Nat)
  /-- WL_RETRAIN_DONE, R443. -/
  | wlRetrainDone (plane fibre wl : Nat)
  /-- FABRIC_RESEND_TIMEOUT, R448. -/
  | fabricResendTimeout (k : Nat)
  /-- MAP_PREPARE, R447. -/
  | mapPrepare (cl e : Nat) (v : Word)
  /-- MAP_COMMIT, R447. -/
  | mapCommit (cl : Nat)
  /-- DIE_LOSS_VERDICT, R460. -/
  | dieLossVerdict (d : Nat)
  /-- VOTE_TIMEOUT, R458. -/
  | voteTimeout (d : Nat)
  /-- CD_ROLLBACK, R455. -/
  | cdRollback (dom cause : Nat)
  /-- BAR_NOTIFY_ARRIVE, R368. -/
  | barNotifyArrive (cl k : Nat)
  /-- HQ_DOORBELL, R394. -/
  | hqDoorbell (q : Nat) (v : Word)
  /-- HQCTL_WRITE, R393. -/
  | hqctlWrite (q : Nat) (v : Word)
  /-- PACKET_READ, R394. -/
  | packetRead (q : Nat)
  /-- PKT_NOP, R395. -/
  | pktNop (q : Nat)
  /-- PKT_LAUNCH, R399. -/
  | pktLaunch (q : Nat)
  /-- PKT_COPY, R395. -/
  | pktCopy (q : Nat)
  /-- PKT_SIGNAL, R395. -/
  | pktSignal (q : Nat)
  /-- PKT_WAIT, R395. -/
  | pktWait (q : Nat)
  /-- PKT_WAIT_POLL, R395. -/
  | pktWaitPoll (q : Nat)
  /-- MODULE_LOAD, R428. -/
  | moduleLoad (q : Nat)
  /-- MODULE_UNLOAD, R429. -/
  | moduleUnload (q : Nat)
  /-- BARN_START, R402. -/
  | barnStart (q : Nat)
  /-- BARN_COMPLETE, R403. -/
  | barnComplete (q seq : Nat)
  /-- PREEMPT_BATCH, R406. -/
  | preemptBatch (t : Nat)
  /-- PREEMPT_FORCE, R407. -/
  | preemptForce (t : Nat)
  /-- PREEMPT_RESUME, R408. -/
  | preemptResume (t : Nat)
  /-- HANG_DETECT, R411. -/
  | hangDetect (q : Nat)
  /-- PADDOCK_WRITE, R404. -/
  | paddockWrite (t : Nat) (v : Word)
  /-- BARRIER_DESCRIPTOR_WRITE, R367. -/
  | barrierDescriptorWrite (cl d : Nat) (v : Word)
  /-- VMROOT_WRITE, R29. -/
  | vmrootWrite (c : Nat) (v : Word)
  /-- SPCFG_WRITE, R49. -/
  | spcfgWrite (c : Nat) (v : Word)
  /-- SPLIT_CHANGE_COMPLETE, R49. -/
  | splitChangeComplete (c : Nat)
  /-- MIGCFG_FLUSH, R78. -/
  | migcfgFlush (c : Nat)
  /-- L2CFG_WRITE, R84. -/
  | l2cfgWrite (d : Nat) (v : Word)
  /-- KEYCMD_NONE, R44. -/
  | keycmdNone (v : Word)
  /-- KEYCMD_LOAD, R44. -/
  | keycmdLoad (v : Word)
  /-- KEYCMD_ERASE, R44. -/
  | keycmdErase (v : Word)
  /-- IVSET_WRITE, R46. -/
  | ivsetWrite (v : Word)
  /-- PVSET_WRITE, R46. -/
  | pvsetWrite (v : Word)
  /-- YGSET_WRITE, R46. -/
  | ygsetWrite (v : Word)
  /-- HDMCFG_WRITE, R46. -/
  | hdmcfgWrite (v : Word)
  /-- DBGRESUME_GO, R46. -/
  | dbgresumeGo (v : Word)
  /-- REGISTER_WRITE, R4. -/
  | registerWrite (host : Bool) (off size : Nat) (v : Word)
  /-- TRACE_SAMPLE, R480. -/
  | traceSample (c : Nat)
  /-- LIFETIME_UPDATE, R484. -/
  | lifetimeUpdate
  /-- CKPT_INTERVAL_UPDATE, R463. -/
  | ckptIntervalUpdate
  /-- POWER_CAP_STEP, R473. -/
  | powerCapStep (d : Nat)
  /-- THERMAL_SHUTDOWN, R473. -/
  | thermalShutdown
  /-- COLD_RESET, R469. -/
  | coldReset (ok : Bool)
  /-- CORE_RESET, R242. -/
  | coreReset (c : Nat)
  /-- FW_MAILBOX_LOAD, R469. -/
  | fwMailboxLoad (ok : Bool)
  /-- ENTER_FULL_SERVICE, R470. -/
  | enterFullService
  /-- ILLEGAL_INSTRUCTION, R190. -/
  | illegalInstruction (cause : Nat) (tval : Word)
  /-- FETCH_FAULT, R88. -/
  | fetchFault (cause : Nat) (tval : Word)
  /-- L2_RESIZE_COMPLETE, R84. -/
  | l2ResizeComplete (d : Nat)
  /-- KEY_COMMAND_COMPLETE, R44. -/
  | keyCommandComplete
  /-- ELECTRICAL_PORT_DOWN, R432. -/
  | electricalPortDown (k : Nat)
  /-- ELECTRICAL_PORT_UP, R432. -/
  | electricalPortUp (k : Nat)
  /-- FLIT_CHECK_FAILURE, R442. -/
  | flitCheckFailure (plane fibre wl : Nat)
  /-- FIBRE_LOSS, R443. -/
  | fibreLoss (plane fibre : Nat)
  /-- PLANE_LOSS, R462. -/
  | planeLoss (k : Nat)
  /-- MODULE_LOSS_VERDICT, R462. -/
  | moduleLossVerdict (k : Nat)
  /-- SERVICE_PROCESSOR_FAILURE, R458. -/
  | serviceProcessorFailure (k : Nat)
  /-- DIE_FAILURE, R460. -/
  | dieFailure (k : Nat)
  /-- LINK_TRAINING_DONE, R468. -/
  | linkTrainingDone
  /-- HBM_TRAINING_DONE, R468. -/
  | hbmTrainingDone
  /-- DIE_SELF_TEST_DONE, R468. -/
  | dieSelfTestDone
  /-- HOST_MEMORY_ACCESS, R467. -/
  | hostMemoryAccess (wr : Bool) (addr len : Nat) (v : Word)
  /-- HOST_SNOOP, R87. -/
  | hostSnoop (line : Nat) (inval : Bool) (off len : Nat) (v : Word)
  /-- CLOCK_STEP_UP, R473. -/
  | clockStepUp (d : Nat)
  deriving DecidableEq, Repr

end Sys2Proof
end

