-- ==== Sys2Proof/WellFormed.lean ====
section
/-!
DEFINITION. Well-formed instructions: the operand values an encoding admits (09 R187, R190, R195; 11 R245, R255; 13
R292, R302, R305, R311; 16 R371), and which prefix fields each tile instruction accepts (13 R292, 11 R251).
-/

namespace Sys2Proof

/-- Width of an element in bits (12 R265, R267). -/
def Fmt.width : Fmt → Nat
  | .f32 => 32 | .bf16 => 16 | .f16 => 16 | .e4m3 => 8 | .e5m2 => 8 | .e3m2 => 6 | .e2m3 => 6 | .e2m1 => 4
  | .i32 => 32 | .i16 => 16 | .i8 => 8 | .i4 => 4 | .ui32 => 32 | .ui16 => 16 | .ui8 => 8

/-- Elements per 32-bit slot (12 R266). -/
def Fmt.perSlot : Fmt → Nat
  | .f32 => 1 | .bf16 => 2 | .f16 => 2 | .e4m3 => 4 | .e5m2 => 4 | .e3m2 => 5 | .e2m3 => 5 | .e2m1 => 8
  | .i32 => 1 | .i16 => 2 | .i8 => 4 | .i4 => 8 | .ui32 => 1 | .ui16 => 2 | .ui8 => 4

/-- The formats a tile reduction takes (13 R305). -/
def Fmt.reducible : Fmt → Bool
  | .f32 => true | .bf16 => true | .f16 => true | .i32 => true | .i16 => true | .i8 => true
  | .ui32 => true | .ui16 => true | .ui8 => true | _ => false

/-- The prefix fields an instruction accepts (13 R292): op4 and needMask say that V4, or a mask, is required. -/
structure Accept where
  mask : Bool := false
  zero : Bool := false
  rm : Bool := false
  sat : Bool := false
  gang : Bool := false
  op4 : Bool := false
  needMask : Bool := false
  deriving DecidableEq, Repr

/-- The prefix of a tile instruction. -/
def Instr.pfx? : Instr → Option Pfx
  | .vld _ _ _ _ pfx => pfx
  | .vldb _ _ _ _ pfx => pfx
  | .vlds _ _ _ _ pfx => pfx
  | .vldg _ _ _ _ pfx => pfx
  | .vst _ _ _ pfx => pfx
  | .vsts _ _ _ pfx => pfx
  | .vstg _ _ _ pfx => pfx
  | .vadd _ _ _ _ _ pfx => pfx
  | .vsub _ _ _ _ _ pfx => pfx
  | .vmul _ _ _ _ _ pfx => pfx
  | .vmulh _ _ _ _ _ pfx => pfx
  | .vmin _ _ _ _ _ pfx => pfx
  | .vmax _ _ _ _ _ pfx => pfx
  | .vand _ _ _ _ _ pfx => pfx
  | .vor _ _ _ _ _ pfx => pfx
  | .vxor _ _ _ _ _ pfx => pfx
  | .vsll _ _ _ _ _ pfx => pfx
  | .vsr _ _ _ _ _ pfx => pfx
  | .vabsd _ _ _ _ _ pfx => pfx
  | .vfadd _ _ _ _ _ pfx => pfx
  | .vfsub _ _ _ _ _ pfx => pfx
  | .vfmul _ _ _ _ _ pfx => pfx
  | .vfmin _ _ _ _ _ pfx => pfx
  | .vfmax _ _ _ _ _ pfx => pfx
  | .vfma _ _ _ _ _ pfx => pfx
  | .vfms _ _ _ _ _ pfx => pfx
  | .vfnma _ _ _ _ _ pfx => pfx
  | .vfabs _ _ _ pfx => pfx
  | .vfneg _ _ _ pfx => pfx
  | .vscacc _ _ _ pfx => pfx
  | .vfdivF32 _ _ _ _ pfx => pfx
  | .vfsqrtF32 _ _ _ pfx => pfx
  | .vfdivBf16 _ _ _ _ pfx => pfx
  | .vfsqrtBf16 _ _ _ pfx => pfx
  | .vfdivF16 _ _ _ _ pfx => pfx
  | .vfsqrtF16 _ _ _ pfx => pfx
  | .vexp2 _ _ _ pfx => pfx
  | .vlog2 _ _ _ pfx => pfx
  | .vrcp _ _ _ pfx => pfx
  | .vrsqrt _ _ _ pfx => pfx
  | .vsqrt _ _ _ pfx => pfx
  | .vtanh _ _ _ pfx => pfx
  | .vsin _ _ _ pfx => pfx
  | .vcos _ _ _ pfx => pfx
  | .vcvt _ _ _ _ _ pfx => pfx
  | .vtrans _ _ pfx => pfx
  | .vperm _ _ _ pfx => pfx
  | .vslideC _ _ _ pfx => pfx
  | .vslideR _ _ _ pfx => pfx
  | .vbcastR _ _ _ pfx => pfx
  | .vbcastC _ _ _ pfx => pfx
  | .vredsum _ _ _ _ pfx => pfx
  | .vredmin _ _ _ _ pfx => pfx
  | .vredmax _ _ _ _ pfx => pfx
  | .vrand _ pfx => pfx
  | .vrandf _ pfx => pfx
  | .vcmp _ _ _ _ _ pfx => pfx
  | .vsel _ _ _ pfx => pfx
  | .vmv _ _ pfx => pfx
  | .vgetx _ _ _ pfx => pfx
  | .vsetx _ _ _ pfx => pfx
  | .vbcx _ _ pfx => pfx
  | .tshape _ _ pfx => pfx
  | _ => none

/-- What each tile instruction accepts of a prefix (13 R292, 11 R251). -/
def Instr.accept : Instr → Accept
  | .vld _ _ _ _ _ => { mask := true, zero := true }
  | .vldb _ _ _ _ _ => { mask := true, zero := true }
  | .vlds _ _ _ _ _ => { mask := true, zero := true }
  | .vldg _ _ _ _ _ => { mask := true, zero := true }
  | .vst _ _ _ _ => { mask := true }
  | .vsts _ _ _ _ => { mask := true }
  | .vstg _ _ _ _ => { mask := true }
  | .vadd _ _ _ _ _ _ => { mask := true, zero := true, sat := true, gang := true }
  | .vsub _ _ _ _ _ _ => { mask := true, zero := true, sat := true, gang := true }
  | .vmul _ _ _ _ _ _ => { mask := true, zero := true, sat := true, gang := true }
  | .vmulh _ _ _ _ _ _ => { mask := true, zero := true, gang := true }
  | .vmin _ _ _ _ _ _ => { mask := true, zero := true, gang := true }
  | .vmax _ _ _ _ _ _ => { mask := true, zero := true, gang := true }
  | .vand _ _ _ _ _ _ => { mask := true, zero := true, gang := true }
  | .vor _ _ _ _ _ _ => { mask := true, zero := true, gang := true }
  | .vxor _ _ _ _ _ _ => { mask := true, zero := true, gang := true }
  | .vsll _ _ _ _ _ _ => { mask := true, zero := true, gang := true }
  | .vsr _ _ _ _ _ _ => { mask := true, zero := true, gang := true }
  | .vabsd _ _ _ _ _ _ => { mask := true, zero := true, gang := true }
  | .vfadd _ _ _ _ _ _ => { mask := true, zero := true, rm := true, sat := true, gang := true }
  | .vfsub _ _ _ _ _ _ => { mask := true, zero := true, rm := true, sat := true, gang := true }
  | .vfmul _ _ _ _ _ _ => { mask := true, zero := true, rm := true, sat := true, gang := true }
  | .vfmin _ _ _ _ _ _ => { mask := true, zero := true, gang := true }
  | .vfmax _ _ _ _ _ _ => { mask := true, zero := true, gang := true }
  | .vfma _ _ _ _ _ _ => { mask := true, zero := true, rm := true, sat := true, gang := true, op4 := true }
  | .vfms _ _ _ _ _ _ => { mask := true, zero := true, rm := true, sat := true, gang := true, op4 := true }
  | .vfnma _ _ _ _ _ _ => { mask := true, zero := true, rm := true, sat := true, gang := true, op4 := true }
  | .vfabs _ _ _ _ => { mask := true, zero := true, gang := true }
  | .vfneg _ _ _ _ => { mask := true, zero := true, gang := true }
  | .vscacc _ _ _ _ => { mask := true, zero := true, rm := true, sat := true, gang := true, op4 := true }
  | .vfdivF32 _ _ _ _ _ => { mask := true, zero := true, rm := true, sat := true }
  | .vfsqrtF32 _ _ _ _ => { mask := true, zero := true, rm := true, sat := true }
  | .vfdivBf16 _ _ _ _ _ => { mask := true, zero := true, rm := true, sat := true }
  | .vfsqrtBf16 _ _ _ _ => { mask := true, zero := true, rm := true, sat := true }
  | .vfdivF16 _ _ _ _ _ => { mask := true, zero := true, rm := true, sat := true }
  | .vfsqrtF16 _ _ _ _ => { mask := true, zero := true, rm := true, sat := true }
  | .vexp2 _ _ _ _ => { mask := true, zero := true }
  | .vlog2 _ _ _ _ => { mask := true, zero := true }
  | .vrcp _ _ _ _ => { mask := true, zero := true }
  | .vrsqrt _ _ _ _ => { mask := true, zero := true }
  | .vsqrt _ _ _ _ => { mask := true, zero := true }
  | .vtanh _ _ _ _ => { mask := true, zero := true }
  | .vsin _ _ _ _ => { mask := true, zero := true }
  | .vcos _ _ _ _ => { mask := true, zero := true }
  | .vcvt _ _ _ _ _ _ => { mask := true, zero := true, rm := true, sat := true, gang := true }
  | .vtrans _ _ _ => { mask := true, zero := true, gang := true }
  | .vperm _ _ _ _ => { mask := true, zero := true, gang := true }
  | .vslideC _ _ _ _ => { mask := true, zero := true, gang := true }
  | .vslideR _ _ _ _ => { mask := true, zero := true, gang := true }
  | .vbcastR _ _ _ _ => { mask := true, zero := true, gang := true }
  | .vbcastC _ _ _ _ => { mask := true, zero := true, gang := true }
  | .vredsum _ _ _ _ _ => { mask := true, zero := true, rm := true, sat := true, gang := true }
  | .vredmin _ _ _ _ _ => { mask := true, zero := true, rm := true, sat := true, gang := true }
  | .vredmax _ _ _ _ _ => { mask := true, zero := true, rm := true, sat := true, gang := true }
  | .vrand _ _ => { mask := true, zero := true }
  | .vrandf _ _ => { mask := true, zero := true }
  | .vcmp _ _ _ _ _ _ => { mask := true, gang := true }
  | .vsel _ _ _ _ => { mask := true, gang := true, needMask := true }
  | .vmv _ _ _ => { mask := true, zero := true, gang := true }
  | .vbcx _ _ _ => { mask := true, zero := true }
  | _ => { }

/-- The vs1 field of a tile instruction that reads a tile there, for the rule on gang sources (13 R311). -/
def Instr.vs1? : Instr → Option Reg
  | .vadd _ vs1 _ _ _ _ => some vs1
  | .vsub _ vs1 _ _ _ _ => some vs1
  | .vmul _ vs1 _ _ _ _ => some vs1
  | .vmulh _ vs1 _ _ _ _ => some vs1
  | .vmin _ vs1 _ _ _ _ => some vs1
  | .vmax _ vs1 _ _ _ _ => some vs1
  | .vand _ vs1 _ _ _ _ => some vs1
  | .vor _ vs1 _ _ _ _ => some vs1
  | .vxor _ vs1 _ _ _ _ => some vs1
  | .vsll _ vs1 _ _ _ _ => some vs1
  | .vsr _ vs1 _ _ _ _ => some vs1
  | .vabsd _ vs1 _ _ _ _ => some vs1
  | .vfadd _ vs1 _ _ _ _ => some vs1
  | .vfsub _ vs1 _ _ _ _ => some vs1
  | .vfmul _ vs1 _ _ _ _ => some vs1
  | .vfmin _ vs1 _ _ _ _ => some vs1
  | .vfmax _ vs1 _ _ _ _ => some vs1
  | .vfma _ vs1 _ _ _ _ => some vs1
  | .vfms _ vs1 _ _ _ _ => some vs1
  | .vfnma _ vs1 _ _ _ _ => some vs1
  | .vfabs _ vs1 _ _ => some vs1
  | .vfneg _ vs1 _ _ => some vs1
  | .vscacc _ vs1 _ _ => some vs1
  | .vfdivF32 _ vs1 _ _ _ => some vs1
  | .vfsqrtF32 _ vs1 _ _ => some vs1
  | .vfdivBf16 _ vs1 _ _ _ => some vs1
  | .vfsqrtBf16 _ vs1 _ _ => some vs1
  | .vfdivF16 _ vs1 _ _ _ => some vs1
  | .vfsqrtF16 _ vs1 _ _ => some vs1
  | .vexp2 _ vs1 _ _ => some vs1
  | .vlog2 _ vs1 _ _ => some vs1
  | .vrcp _ vs1 _ _ => some vs1
  | .vrsqrt _ vs1 _ _ => some vs1
  | .vsqrt _ vs1 _ _ => some vs1
  | .vtanh _ vs1 _ _ => some vs1
  | .vsin _ vs1 _ _ => some vs1
  | .vcos _ vs1 _ _ => some vs1
  | .vcvt _ vs1 _ _ _ _ => some vs1
  | .vtrans _ vs1 _ => some vs1
  | .vperm _ vs1 _ _ => some vs1
  | .vslideC _ vs1 _ _ => some vs1
  | .vslideR _ vs1 _ _ => some vs1
  | .vbcastR _ vs1 _ _ => some vs1
  | .vbcastC _ vs1 _ _ => some vs1
  | .vredsum _ vs1 _ _ _ => some vs1
  | .vredmin _ vs1 _ _ _ => some vs1
  | .vredmax _ vs1 _ _ _ => some vs1
  | .vcmp _ vs1 _ _ _ _ => some vs1
  | .vsel _ vs1 _ _ => some vs1
  | .vmv _ vs1 _ => some vs1
  | .vgetx _ vs1 _ _ => some vs1
  | _ => none

/-- Whether an instruction takes a prefix at all. -/
def Instr.isTile : Instr → Bool
  | .vld _ _ _ _ _ => true
  | .vldb _ _ _ _ _ => true
  | .vlds _ _ _ _ _ => true
  | .vldg _ _ _ _ _ => true
  | .vst _ _ _ _ => true
  | .vsts _ _ _ _ => true
  | .vstg _ _ _ _ => true
  | .vadd _ _ _ _ _ _ => true
  | .vsub _ _ _ _ _ _ => true
  | .vmul _ _ _ _ _ _ => true
  | .vmulh _ _ _ _ _ _ => true
  | .vmin _ _ _ _ _ _ => true
  | .vmax _ _ _ _ _ _ => true
  | .vand _ _ _ _ _ _ => true
  | .vor _ _ _ _ _ _ => true
  | .vxor _ _ _ _ _ _ => true
  | .vsll _ _ _ _ _ _ => true
  | .vsr _ _ _ _ _ _ => true
  | .vabsd _ _ _ _ _ _ => true
  | .vfadd _ _ _ _ _ _ => true
  | .vfsub _ _ _ _ _ _ => true
  | .vfmul _ _ _ _ _ _ => true
  | .vfmin _ _ _ _ _ _ => true
  | .vfmax _ _ _ _ _ _ => true
  | .vfma _ _ _ _ _ _ => true
  | .vfms _ _ _ _ _ _ => true
  | .vfnma _ _ _ _ _ _ => true
  | .vfabs _ _ _ _ => true
  | .vfneg _ _ _ _ => true
  | .vscacc _ _ _ _ => true
  | .vfdivF32 _ _ _ _ _ => true
  | .vfsqrtF32 _ _ _ _ => true
  | .vfdivBf16 _ _ _ _ _ => true
  | .vfsqrtBf16 _ _ _ _ => true
  | .vfdivF16 _ _ _ _ _ => true
  | .vfsqrtF16 _ _ _ _ => true
  | .vexp2 _ _ _ _ => true
  | .vlog2 _ _ _ _ => true
  | .vrcp _ _ _ _ => true
  | .vrsqrt _ _ _ _ => true
  | .vsqrt _ _ _ _ => true
  | .vtanh _ _ _ _ => true
  | .vsin _ _ _ _ => true
  | .vcos _ _ _ _ => true
  | .vcvt _ _ _ _ _ _ => true
  | .vtrans _ _ _ => true
  | .vperm _ _ _ _ => true
  | .vslideC _ _ _ _ => true
  | .vslideR _ _ _ _ => true
  | .vbcastR _ _ _ _ => true
  | .vbcastC _ _ _ _ => true
  | .vredsum _ _ _ _ _ => true
  | .vredmin _ _ _ _ _ => true
  | .vredmax _ _ _ _ _ => true
  | .vrand _ _ => true
  | .vrandf _ _ => true
  | .vcmp _ _ _ _ _ _ => true
  | .vsel _ _ _ _ => true
  | .vmv _ _ _ => true
  | .vgetx _ _ _ _ => true
  | .vsetx _ _ _ _ => true
  | .vbcx _ _ _ => true
  | .tshape _ _ _ => true
  | _ => false

/-- The detail a prefix, or its absence, raises: 0x12 for a field that is not accepted or a required one that is
missing, then 0x13 for a mask that names x28 to x31 (09 R190, R195; 13 R292, R311). -/
def Instr.pfxDetail (i : Instr) : Option Nat :=
  let a := i.accept
  match i.pfx? with
  | none => if a.op4 || a.needMask then some 0x12 else none
  | some p =>
    if (!a.mask && p.mask != 0) || (!a.zero && p.zero) || (!a.rm && p.rm != 0) || (!a.sat && p.sat)
        || (!a.gang && p.gang) || (!p.gang && p.goff != 0) || (a.op4 && !p.v4) || (!a.op4 && (p.v4 || p.op4 != 0))
        || (a.needMask && p.mask == 0) || (p.gang && (i.vs1?.getD 0).val ≥ 28) then some 0x12
    else if p.mask.val ≥ 28 then some 0x13
    else none

/-- An immediate of n bits in two's complement. -/
def inRange (n : Nat) (v : Int) : Bool := decide (-(2 ^ (n - 1) : Nat) ≤ v ∧ v < (2 ^ (n - 1) : Nat))

/-- A register field that may not name a port. -/
def plain (r : Reg) : Bool := decide (r.val < 28)

/-- The part numbers of a conversion (13 R302). -/
def wfPart (dst src : Fmt) (part : Nat) : Bool :=
  let nd := dst.perSlot; let ns := src.perSlot
  if nd = ns then part == 0 else if nd < ns then decide (part < (ns + nd - 1) / nd) else decide (part < (nd + ns - 1) / ns)

/-- Whether the encoding of an instruction admits its operands. Commands and events have no encoding of this kind. -/
def Instr.wellFormed (i : Instr) : Bool :=
  i.pfxDetail.isNone &&
  match i with
  | .add _ _ _ => true
  | .sll _ _ _ => true
  | .slt _ _ _ => true
  | .sltu _ _ _ => true
  | .xor _ _ _ => true
  | .srl _ _ _ => true
  | .or _ _ _ => true
  | .and _ _ _ => true
  | .sub _ _ _ => true
  | .sra _ _ _ => true
  | .mul _ _ _ => true
  | .mulh _ _ _ => true
  | .mulhsu _ _ _ => true
  | .mulhu _ _ _ => true
  | .addw _ _ _ => true
  | .subw _ _ _ => true
  | .sllw _ _ _ => true
  | .srlw _ _ _ => true
  | .sraw _ _ _ => true
  | .mulw _ _ _ => true
  | .addi _ _ imm => inRange 12 imm
  | .slti _ _ imm => inRange 12 imm
  | .sltiu _ _ imm => inRange 12 imm
  | .xori _ _ imm => inRange 12 imm
  | .ori _ _ imm => inRange 12 imm
  | .andi _ _ imm => inRange 12 imm
  | .slli _ _ _ => true
  | .srli _ _ _ => true
  | .srai _ _ _ => true
  | .addiw _ _ imm => inRange 12 imm
  | .slliw _ _ _ => true
  | .srliw _ _ _ => true
  | .sraiw _ _ _ => true
  | .lui _ _ => true
  | .auipc _ _ => true
  | .div rd _ _ _ => plain rd
  | .divu rd _ _ _ => plain rd
  | .rem rd _ _ _ => plain rd
  | .remu rd _ _ _ => plain rd
  | .divw rd _ _ _ => plain rd
  | .divuw rd _ _ _ => plain rd
  | .remw rd _ _ _ => plain rd
  | .remuw rd _ _ _ => plain rd
  | .andn _ _ _ => true
  | .orn _ _ _ => true
  | .min _ _ _ => true
  | .max _ _ _ => true
  | .minu _ _ _ => true
  | .maxu _ _ _ => true
  | .rol _ _ _ => true
  | .ror _ _ _ => true
  | .clmul _ _ _ => true
  | .clmulh _ _ _ => true
  | .clmulr _ _ _ => true
  | .bext _ _ _ => true
  | .bdep _ _ _ => true
  | .clz _ _ => true
  | .ctz _ _ => true
  | .popc _ _ => true
  | .brev _ _ => true
  | .bswap _ _ => true
  | .sextB _ _ => true
  | .sextH _ _ => true
  | .sextW _ _ => true
  | .zextB _ _ => true
  | .zextH _ _ => true
  | .zextW _ _ => true
  | .rori _ _ _ => true
  | .modp _ _ _ => true
  | .beq rs1 rs2 off => inRange 12 off && plain rs1 && plain rs2
  | .bne rs1 rs2 off => inRange 12 off && plain rs1 && plain rs2
  | .bbs rs1 rs2 off => inRange 12 off && plain rs1 && plain rs2
  | .bbc rs1 rs2 off => inRange 12 off && plain rs1 && plain rs2
  | .blt rs1 rs2 off => inRange 12 off && plain rs1 && plain rs2
  | .bge rs1 rs2 off => inRange 12 off && plain rs1 && plain rs2
  | .bltu rs1 rs2 off => inRange 12 off && plain rs1 && plain rs2
  | .bgeu rs1 rs2 off => inRange 12 off && plain rs1 && plain rs2
  | .jal rd off => inRange 20 off && plain rd
  | .jalr rd rs1 imm => inRange 12 imm && plain rd && plain rs1
  | .jalp rd rs1 => plain rd && plain rs1
  | .faddS _ _ _ _ => true
  | .fsubS _ _ _ _ => true
  | .fmulS _ _ _ _ => true
  | .fminS _ _ _ => true
  | .fmaxS _ _ _ => true
  | .fsgnjS _ _ _ => true
  | .fsgnjnS _ _ _ => true
  | .fsgnjxS _ _ _ => true
  | .fleS _ _ _ => true
  | .fltS _ _ _ => true
  | .feqS _ _ _ => true
  | .fclassS _ _ => true
  | .fcvtWS _ _ _ => true
  | .fcvtWuS _ _ _ => true
  | .fcvtLS _ _ _ => true
  | .fcvtLuS _ _ _ => true
  | .fcvtSW _ _ _ => true
  | .fcvtSWu _ _ _ => true
  | .fcvtSL _ _ _ => true
  | .fcvtSLu _ _ _ => true
  | .fdivS rd _ _ _ _ => plain rd
  | .fsqrtS rd _ _ _ => plain rd
  | .fmaddS _ _ _ _ _ => true
  | .fmsubS _ _ _ _ _ => true
  | .fnmsubS _ _ _ _ _ => true
  | .fnmaddS _ _ _ _ _ => true
  | .csrrw rd rs1 _ => plain rd && plain rs1
  | .csrrs rd rs1 _ => plain rd && plain rs1
  | .csrrc rd rs1 _ => plain rd && plain rs1
  | .csrrwi rd _ _ => plain rd
  | .csrrsi rd _ _ => plain rd
  | .csrrci rd _ _ => plain rd
  | .trap _ => true
  | .eret => true
  | .halt => true
  | .brk => true
  | .lb rd _ imm _ => inRange 8 imm && plain rd
  | .lh rd _ imm _ => inRange 8 imm && plain rd
  | .lw rd _ imm _ => inRange 8 imm && plain rd
  | .ld rd _ imm _ => inRange 8 imm && plain rd
  | .lbu rd _ imm _ => inRange 8 imm && plain rd
  | .lhu rd _ imm _ => inRange 8 imm && plain rd
  | .lwu rd _ imm _ => inRange 8 imm && plain rd
  | .loadAcquire rd _ size _ _ => plain rd && decide (size.val < 7)
  | .sb _ _ imm => inRange 12 imm
  | .sh _ _ imm => inRange 12 imm
  | .sw _ _ imm => inRange 12 imm
  | .sd _ _ imm => inRange 12 imm
  | .storeRelease _ _ _ _ => true
  | .vld vd _ imm _ _ => inRange 8 imm && plain vd
  | .vldb vd _ imm _ _ => inRange 8 imm && plain vd
  | .vlds vd _ _ _ _ => plain vd
  | .vldg vd _ vs2 _ _ => plain vd && plain vs2
  | .vst _ _ imm _ => inRange 12 imm
  | .vsts _ _ _ _ => true
  | .vstg _ _ vs2 _ => plain vs2
  | .ldfE rd _ imm _ => inRange 8 imm && plain rd
  | .ldfF rd _ imm _ => inRange 8 imm && plain rd
  | .ste _ _ imm => inRange 12 imm
  | .stf _ _ imm => inRange 12 imm
  | .fetag rd _ imm => inRange 8 imm && plain rd
  | .fsetE _ imm => inRange 12 imm
  | .fsetF _ imm => inRange 12 imm
  | .amoswap rd _ _ _ _ _ _ => plain rd
  | .amoadd rd _ _ _ _ _ _ => plain rd
  | .amoand rd _ _ _ _ _ _ => plain rd
  | .amoor rd _ _ _ _ _ _ => plain rd
  | .amoxor rd _ _ _ _ _ _ => plain rd
  | .amomin rd _ _ _ _ _ _ => plain rd
  | .amomax rd _ _ _ _ _ _ => plain rd
  | .amominu rd _ _ _ _ _ _ => plain rd
  | .amomaxu rd _ _ _ _ _ _ => plain rd
  | .amofadd rd _ _ _ _ _ => plain rd
  | .amocas rd _ _ _ _ _ _ => plain rd && rd.val % 2 == 0
  | .lr rd _ _ _ _ _ => plain rd
  | .sc rd _ _ _ _ _ => plain rd
  | .redadd _ _ _ => true
  | .redand _ _ _ => true
  | .redor _ _ _ => true
  | .redxor _ _ _ => true
  | .redmin _ _ _ => true
  | .redmax _ _ _ => true
  | .redminu _ _ _ => true
  | .redmaxu _ _ _ => true
  | .redfadd _ _ => true
  | .fence _ _ _ => true
  | .ifence => true
  | .codeinv rs1 rs2 _ => plain rs1 && plain rs2
  | .ipref rs2 rs1 => plain rs1 && plain rs2
  | .dpref rs1 imm => inRange 12 imm && plain rs1
  | .tlblog rd rs1 rs2 _ => plain rd && plain rs1 && plain rs2
  | .tlblogw rd rs1 rs2 _ => plain rd && plain rs1 && plain rs2
  | .vadd _ _ _ _ _ _ => true
  | .vsub _ _ _ _ _ _ => true
  | .vmul _ _ _ _ _ _ => true
  | .vmulh _ _ _ _ _ _ => true
  | .vmin _ _ _ _ _ _ => true
  | .vmax _ _ _ _ _ _ => true
  | .vand _ _ _ _ _ _ => true
  | .vor _ _ _ _ _ _ => true
  | .vxor _ _ _ _ _ _ => true
  | .vsll _ _ _ _ _ _ => true
  | .vsr _ _ _ _ _ _ => true
  | .vabsd _ _ _ _ _ _ => true
  | .vfadd _ _ _ _ _ _ => true
  | .vfsub _ _ _ _ _ _ => true
  | .vfmul _ _ _ _ _ _ => true
  | .vfmin _ _ _ _ _ _ => true
  | .vfmax _ _ _ _ _ _ => true
  | .vfma _ _ _ _ _ _ => true
  | .vfms _ _ _ _ _ _ => true
  | .vfnma _ _ _ _ _ _ => true
  | .vfabs _ _ _ _ => true
  | .vfneg _ _ _ _ => true
  | .vscacc _ _ _ _ => true
  | .vfdivF32 vd _ _ _ _ => plain vd
  | .vfsqrtF32 vd _ _ _ => plain vd
  | .vfdivBf16 vd _ _ _ _ => plain vd
  | .vfsqrtBf16 vd _ _ _ => plain vd
  | .vfdivF16 vd _ _ _ _ => plain vd
  | .vfsqrtF16 vd _ _ _ => plain vd
  | .vexp2 vd _ _ _ => plain vd
  | .vlog2 vd _ _ _ => plain vd
  | .vrcp vd _ _ _ => plain vd
  | .vrsqrt vd _ _ _ => plain vd
  | .vsqrt vd _ _ _ => plain vd
  | .vtanh vd _ _ _ => plain vd
  | .vsin vd _ _ _ => plain vd
  | .vcos vd _ _ _ => plain vd
  | .vcvt _ _ dst src part _ => wfPart dst src part.val
  | .vtrans _ _ _ => true
  | .vperm _ _ _ _ => true
  | .vslideC _ _ _ _ => true
  | .vslideR _ _ _ _ => true
  | .vbcastR _ _ _ _ => true
  | .vbcastC _ _ _ _ => true
  | .vredsum _ _ _ fmt _ => fmt.reducible
  | .vredmin _ _ _ fmt _ => fmt.reducible
  | .vredmax _ _ _ fmt _ => fmt.reducible
  | .vrand _ _ => true
  | .vrandf _ _ => true
  | .vcmp _ _ _ _ _ _ => true
  | .vsel _ _ _ _ => true
  | .vmv _ _ _ => true
  | .vgetx _ _ _ _ => true
  | .vsetx _ _ _ _ => true
  | .vbcx _ _ _ => true
  | .tshape _ _ _ => true
  | .yield => true
  | .suspend rs1 => plain rs1
  | .exit => true
  | .join rs1 => plain rs1
  | .spawnl rd rs1 rs2 => plain rd && plain rs1 && plain rs2
  | .gang => true
  | .ungang => true
  | .fork xs xj off => inRange 12 off && plain xs && plain xj
  | .spawn rs1 _ => plain rs1
  | .spawnN rs1 _ => plain rs1
  | .send rd rs1 rs2 _ _ => plain rd && plain rs1 && plain rs2
  | .sendp rd rs1 rs2 _ _ => plain rd && plain rs1 && plain rs2
  | .tagen rd rs1 => plain rd && plain rs1
  | .tagdis rd rs1 => plain rd && plain rs1
  | .tagset rd rs1 => plain rd && plain rs1
  | .tagclr rd rs1 => plain rd && plain rs1
  | .tagq rd rs1 => plain rd && plain rs1
  | .tagw rs1 rs2 xc => plain rs1 && plain rs2 && plain xc
  | .wait rs1 _ => plain rs1
  | .bara _ => true
  | .barw _ => true
  | .bar _ => true
  | .give rs1 _ => plain rs1
  | .take rs1 _ => plain rs1
  | .mlease rs1 => plain rs1
  | .mfree => true
  | .cdopen rd rs1 => plain rd && plain rs1
  | .cdclose => true
  | .cdabort => true
  | .qstat rd _ => plain rd
  | .mxZero _ _ _ => true
  | .mxLdb _ _ => true
  | .mxGatha _ _ _ _ => true
  | .mxDensa _ _ => true
  | .mxCsrb _ _ _ _ _ _ _ _ => true
  | .mxRun _ _ _ _ _ _ _ => true
  | .mxDrain _ _ => true
  | .mxStat _ _ _ _ => true
  | .cpG2s _ _ _ => true
  | .cpS2g _ _ _ => true
  | .cpS2s _ _ _ _ _ _ => true
  | .cp2d _ _ _ _ _ _ _ => true
  | .cpGath _ _ _ _ _ _ => true
  | .cpRget _ _ _ _ _ => true
  | .cpRput _ _ _ _ _ => true
  | .cpRred _ _ _ _ _ _ _ => true
  | .cpCk _ _ _ _ => true
  | .cpNop _ => true
  | .hgCount _ _ _ _ => true
  | .hgLatch _ _ _ _ _ _ _ _ => true
  | .hgClear _ => true
  | .bdGath _ _ _ _ _ _ _ _ => true
  | .bdRed _ _ _ _ _ _ _ _ _ _ => true
  | .bdCvt _ _ _ _ _ _ _ _ _ => true
  | .bdCopy _ _ _ _ _ => true
  | .nodeComplete _ _ => true
  | .mxTurnStart _ => true
  | .mxTurnTimeout _ => true
  | .taskPick _ => true
  | .steal _ => true
  | .coreSleepTimeout _ => true
  | .fifoAging _ => true
  | .messageArrival _ _ => true
  | .inboxHeldAction _ => true
  | .niResend _ _ => true
  | .remoteWordAccess _ => true
  | .trapAsync _ => true
  | .laResultArrive _ _ => true
  | .pageWalk _ _ _ => true
  | .ilApply _ => true
  | .scbDrainTimeout _ => true
  | .rpAgedWriteback _ => true
  | .remoteTxnFail _ _ => true
  | .rfmComplete _ _ => true
  | .refreshWindowEnd => true
  | .hbmScrub _ _ => true
  | .ceFilterClear => true
  | .fabricTxnArrive _ => true
  | .fabricAckReceive _ => true
  | .mapNackReceive _ _ => true
  | .rotorSlotBoundary _ _ => true
  | .wlRetrainDone _ _ _ => true
  | .fabricResendTimeout _ => true
  | .mapPrepare _ _ _ => true
  | .mapCommit _ => true
  | .dieLossVerdict _ => true
  | .voteTimeout _ => true
  | .cdRollback _ _ => true
  | .barNotifyArrive _ _ => true
  | .hqDoorbell _ _ => true
  | .hqctlWrite _ _ => true
  | .packetRead _ => true
  | .pktNop _ => true
  | .pktLaunch _ => true
  | .pktCopy _ => true
  | .pktSignal _ => true
  | .pktWait _ => true
  | .pktWaitPoll _ => true
  | .moduleLoad _ => true
  | .moduleUnload _ => true
  | .barnStart _ => true
  | .barnComplete _ _ => true
  | .preemptBatch _ => true
  | .preemptForce _ => true
  | .preemptResume _ => true
  | .hangDetect _ => true
  | .paddockWrite _ _ => true
  | .barrierDescriptorWrite _ _ _ => true
  | .vmrootWrite _ _ => true
  | .spcfgWrite _ _ => true
  | .splitChangeComplete _ => true
  | .migcfgFlush _ => true
  | .l2cfgWrite _ _ => true
  | .keycmdNone _ => true
  | .keycmdLoad _ => true
  | .keycmdErase _ => true
  | .ivsetWrite _ => true
  | .pvsetWrite _ => true
  | .ygsetWrite _ => true
  | .hdmcfgWrite _ => true
  | .dbgresumeGo _ => true
  | .registerWrite _ _ _ _ => true
  | .traceSample _ => true
  | .lifetimeUpdate => true
  | .ckptIntervalUpdate => true
  | .powerCapStep _ => true
  | .thermalShutdown => true
  | .coldReset _ => true
  | .coreReset _ => true
  | .fwMailboxLoad _ => true
  | .enterFullService => true
  | .illegalInstruction _ _ => true
  | .fetchFault _ _ => true
  | .l2ResizeComplete _ => true
  | .keyCommandComplete => true
  | .electricalPortDown _ => true
  | .electricalPortUp _ => true
  | .flitCheckFailure _ _ _ => true
  | .fibreLoss _ _ => true
  | .planeLoss _ => true
  | .moduleLossVerdict _ => true
  | .serviceProcessorFailure _ => true
  | .dieFailure _ => true
  | .linkTrainingDone => true
  | .hbmTrainingDone => true
  | .dieSelfTestDone => true
  | .hostMemoryAccess _ _ _ _ => true
  | .hostSnoop _ _ _ _ _ => true
  | .clockStepUp _ => true

/-- Whether an instruction is one of the CPU's, with a word of its own. -/
def Instr.isCpu : Instr → Bool
  | .mxZero _ _ _ => false
  | .mxLdb _ _ => false
  | .mxGatha _ _ _ _ => false
  | .mxDensa _ _ => false
  | .mxCsrb _ _ _ _ _ _ _ _ => false
  | .mxRun _ _ _ _ _ _ _ => false
  | .mxDrain _ _ => false
  | .mxStat _ _ _ _ => false
  | .cpG2s _ _ _ => false
  | .cpS2g _ _ _ => false
  | .cpS2s _ _ _ _ _ _ => false
  | .cp2d _ _ _ _ _ _ _ => false
  | .cpGath _ _ _ _ _ _ => false
  | .cpRget _ _ _ _ _ => false
  | .cpRput _ _ _ _ _ => false
  | .cpRred _ _ _ _ _ _ _ => false
  | .cpCk _ _ _ _ => false
  | .cpNop _ => false
  | .hgCount _ _ _ _ => false
  | .hgLatch _ _ _ _ _ _ _ _ => false
  | .hgClear _ => false
  | .bdGath _ _ _ _ _ _ _ _ => false
  | .bdRed _ _ _ _ _ _ _ _ _ _ => false
  | .bdCvt _ _ _ _ _ _ _ _ _ => false
  | .bdCopy _ _ _ _ _ => false
  | .nodeComplete _ _ => false
  | .mxTurnStart _ => false
  | .mxTurnTimeout _ => false
  | .taskPick _ => false
  | .steal _ => false
  | .coreSleepTimeout _ => false
  | .fifoAging _ => false
  | .messageArrival _ _ => false
  | .inboxHeldAction _ => false
  | .niResend _ _ => false
  | .remoteWordAccess _ => false
  | .trapAsync _ => false
  | .laResultArrive _ _ => false
  | .pageWalk _ _ _ => false
  | .ilApply _ => false
  | .scbDrainTimeout _ => false
  | .rpAgedWriteback _ => false
  | .remoteTxnFail _ _ => false
  | .rfmComplete _ _ => false
  | .refreshWindowEnd => false
  | .hbmScrub _ _ => false
  | .ceFilterClear => false
  | .fabricTxnArrive _ => false
  | .fabricAckReceive _ => false
  | .mapNackReceive _ _ => false
  | .rotorSlotBoundary _ _ => false
  | .wlRetrainDone _ _ _ => false
  | .fabricResendTimeout _ => false
  | .mapPrepare _ _ _ => false
  | .mapCommit _ => false
  | .dieLossVerdict _ => false
  | .voteTimeout _ => false
  | .cdRollback _ _ => false
  | .barNotifyArrive _ _ => false
  | .hqDoorbell _ _ => false
  | .hqctlWrite _ _ => false
  | .packetRead _ => false
  | .pktNop _ => false
  | .pktLaunch _ => false
  | .pktCopy _ => false
  | .pktSignal _ => false
  | .pktWait _ => false
  | .pktWaitPoll _ => false
  | .moduleLoad _ => false
  | .moduleUnload _ => false
  | .barnStart _ => false
  | .barnComplete _ _ => false
  | .preemptBatch _ => false
  | .preemptForce _ => false
  | .preemptResume _ => false
  | .hangDetect _ => false
  | .paddockWrite _ _ => false
  | .barrierDescriptorWrite _ _ _ => false
  | .vmrootWrite _ _ => false
  | .spcfgWrite _ _ => false
  | .splitChangeComplete _ => false
  | .migcfgFlush _ => false
  | .l2cfgWrite _ _ => false
  | .keycmdNone _ => false
  | .keycmdLoad _ => false
  | .keycmdErase _ => false
  | .ivsetWrite _ => false
  | .pvsetWrite _ => false
  | .ygsetWrite _ => false
  | .hdmcfgWrite _ => false
  | .dbgresumeGo _ => false
  | .registerWrite _ _ _ _ => false
  | .traceSample _ => false
  | .lifetimeUpdate => false
  | .ckptIntervalUpdate => false
  | .powerCapStep _ => false
  | .thermalShutdown => false
  | .coldReset _ => false
  | .coreReset _ => false
  | .fwMailboxLoad _ => false
  | .enterFullService => false
  | .illegalInstruction _ _ => false
  | .fetchFault _ _ => false
  | .l2ResizeComplete _ => false
  | .keyCommandComplete => false
  | .electricalPortDown _ => false
  | .electricalPortUp _ => false
  | .flitCheckFailure _ _ _ => false
  | .fibreLoss _ _ => false
  | .planeLoss _ => false
  | .moduleLossVerdict _ => false
  | .serviceProcessorFailure _ => false
  | .dieFailure _ => false
  | .linkTrainingDone => false
  | .hbmTrainingDone => false
  | .dieSelfTestDone => false
  | .hostMemoryAccess _ _ _ _ => false
  | .hostSnoop _ _ _ _ _ => false
  | .clockStepUp _ => false
  | _ => true

/-- Whether a row is an event: a step of a part other than an issuing core or an engine. -/
def Instr.isEvent : Instr → Bool
  | .nodeComplete _ _ => true
  | .mxTurnStart _ => true
  | .mxTurnTimeout _ => true
  | .taskPick _ => true
  | .steal _ => true
  | .coreSleepTimeout _ => true
  | .fifoAging _ => true
  | .messageArrival _ _ => true
  | .inboxHeldAction _ => true
  | .niResend _ _ => true
  | .remoteWordAccess _ => true
  | .trapAsync _ => true
  | .laResultArrive _ _ => true
  | .pageWalk _ _ _ => true
  | .ilApply _ => true
  | .scbDrainTimeout _ => true
  | .rpAgedWriteback _ => true
  | .remoteTxnFail _ _ => true
  | .rfmComplete _ _ => true
  | .refreshWindowEnd => true
  | .hbmScrub _ _ => true
  | .ceFilterClear => true
  | .fabricTxnArrive _ => true
  | .fabricAckReceive _ => true
  | .mapNackReceive _ _ => true
  | .rotorSlotBoundary _ _ => true
  | .wlRetrainDone _ _ _ => true
  | .fabricResendTimeout _ => true
  | .mapPrepare _ _ _ => true
  | .mapCommit _ => true
  | .dieLossVerdict _ => true
  | .voteTimeout _ => true
  | .cdRollback _ _ => true
  | .barNotifyArrive _ _ => true
  | .hqDoorbell _ _ => true
  | .hqctlWrite _ _ => true
  | .packetRead _ => true
  | .pktNop _ => true
  | .pktLaunch _ => true
  | .pktCopy _ => true
  | .pktSignal _ => true
  | .pktWait _ => true
  | .pktWaitPoll _ => true
  | .moduleLoad _ => true
  | .moduleUnload _ => true
  | .barnStart _ => true
  | .barnComplete _ _ => true
  | .preemptBatch _ => true
  | .preemptForce _ => true
  | .preemptResume _ => true
  | .hangDetect _ => true
  | .paddockWrite _ _ => true
  | .barrierDescriptorWrite _ _ _ => true
  | .vmrootWrite _ _ => true
  | .spcfgWrite _ _ => true
  | .splitChangeComplete _ => true
  | .migcfgFlush _ => true
  | .l2cfgWrite _ _ => true
  | .keycmdNone _ => true
  | .keycmdLoad _ => true
  | .keycmdErase _ => true
  | .ivsetWrite _ => true
  | .pvsetWrite _ => true
  | .ygsetWrite _ => true
  | .hdmcfgWrite _ => true
  | .dbgresumeGo _ => true
  | .registerWrite _ _ _ _ => true
  | .traceSample _ => true
  | .lifetimeUpdate => true
  | .ckptIntervalUpdate => true
  | .powerCapStep _ => true
  | .thermalShutdown => true
  | .coldReset _ => true
  | .coreReset _ => true
  | .fwMailboxLoad _ => true
  | .enterFullService => true
  | .illegalInstruction _ _ => true
  | .fetchFault _ _ => true
  | .l2ResizeComplete _ => true
  | .keyCommandComplete => true
  | .electricalPortDown _ => true
  | .electricalPortUp _ => true
  | .flitCheckFailure _ _ _ => true
  | .fibreLoss _ _ => true
  | .planeLoss _ => true
  | .moduleLossVerdict _ => true
  | .serviceProcessorFailure _ => true
  | .dieFailure _ => true
  | .linkTrainingDone => true
  | .hbmTrainingDone => true
  | .dieSelfTestDone => true
  | .hostMemoryAccess _ _ _ _ => true
  | .hostSnoop _ _ _ _ _ => true
  | .clockStepUp _ => true
  | _ => false

/-- Whether a row is an engine command. -/
def Instr.isCommand : Instr → Bool
  | .mxZero _ _ _ => true
  | .mxLdb _ _ => true
  | .mxGatha _ _ _ _ => true
  | .mxDensa _ _ => true
  | .mxCsrb _ _ _ _ _ _ _ _ => true
  | .mxRun _ _ _ _ _ _ _ => true
  | .mxDrain _ _ => true
  | .mxStat _ _ _ _ => true
  | .cpG2s _ _ _ => true
  | .cpS2g _ _ _ => true
  | .cpS2s _ _ _ _ _ _ => true
  | .cp2d _ _ _ _ _ _ _ => true
  | .cpGath _ _ _ _ _ _ => true
  | .cpRget _ _ _ _ _ => true
  | .cpRput _ _ _ _ _ => true
  | .cpRred _ _ _ _ _ _ _ => true
  | .cpCk _ _ _ _ => true
  | .cpNop _ => true
  | .hgCount _ _ _ _ => true
  | .hgLatch _ _ _ _ _ _ _ _ => true
  | .hgClear _ => true
  | .bdGath _ _ _ _ _ _ _ _ => true
  | .bdRed _ _ _ _ _ _ _ _ _ _ => true
  | .bdCvt _ _ _ _ _ _ _ _ _ => true
  | .bdCopy _ _ _ _ _ => true
  | _ => false

end Sys2Proof
end

