-- ==== Sys2Proof/Decode.lean ====
section
/-!
DEFINITION. Decoding instruction words (09 R185 to R195), total on any bits and rejecting by the detail of 09 R190,
and the encoder of well-formed instructions, written from the same encoding tables. (Lean's code generator does not
build values of constructors numbered above 244, so what builds them is noncomputable; the kernel evaluates it.)
-/

namespace Sys2Proof

noncomputable section

/-- The register of the 5-bit field that starts at bit lo. -/
def rg (w lo : Nat) : Reg := Fin.ofNat 32 (w / 2 ^ lo)

/-- The fields of a prefix word (09 R193). -/
def pfxOfWord (w : Nat) : Pfx :=
  { sat := bit w 25, gang := bit w 24, goff := Fin.ofNat 4 (w / 2 ^ 22), v4 := bit w 21, op4 := rg w 16,
    rm := Fin.ofNat 8 (w / 2 ^ 13), zero := bit w 12, mask := rg w 7 }

/-- Whether a word is a prefix word: major 00111 (09 R193). -/
def isPfxWord (w : Nat) : Bool := w % 128 == 31

/-- The immediate of the I format (09 R187). -/
def immI (w : Nat) : Int := sx 12 (w / 2 ^ 20)
/-- The immediate of the S format, and the word offset of the B format (09 R187). -/
def immS (w : Nat) : Int := sx 12 (bits w 31 25 * 32 + bits w 11 7)
/-- The immediate of the L.i format, in access sizes (09 R187). -/
def immL (w : Nat) : Int := sx 8 (w / 2 ^ 20)
/-- The word offset of the J format (09 R187). -/
def offJ (w : Nat) : Int := sx 20 (w / 2 ^ 12)
/-- The lookahead field (09 R197). -/
def laOf (w : Nat) : La := Fin.ofNat 16 (w / 2 ^ 28)
/-- The rm field (10 R229). -/
def rmOf (w : Nat) : Rm := Fin.ofNat 8 (w / 2 ^ 12)

/-- Refuses with a detail when a condition holds. -/
def failIf (b : Bool) (detail : Nat) (k : Except Nat Instr) : Except Nat Instr := if b then .error detail else k

/-- Whether one of the register fields rd, rs1, rs2 names a queue port. -/
def port (r : Reg) : Bool := decide (28 ≤ r.val)

/-- Continues with a scope, or refuses the reserved code (06 R117). -/
def withScope (n : Nat) (k : Scope → Except Nat Instr) : Except Nat Instr :=
  match Scope.ofCode n with
  | some sc => k sc
  | none => .error 0x06

/-- Major 00000: scalar loads (11 R247, R249). -/
def decLoad (w : Nat) : Except Nat Instr :=
  let rd := rg w 7; let rs1 := rg w 15
  let f3 := bits w 14 12
  if f3 = 7 then
    failIf (bits w 24 22 == 7) 0x04 <| failIf (bits w 21 20 != 0) 0x05 <|
    withScope (bits w 27 25) fun sc => failIf (port rd) 0x06 <| .ok (.loadAcquire rd rs1 (Fin.ofNat 8 (w / 2 ^ 22)) sc (laOf w))
  else failIf (port rd) 0x06 <|
    if f3 = 0 then .ok (.lb rd rs1 (immL w) (laOf w)) else if f3 = 1 then .ok (.lh rd rs1 (immL w) (laOf w))
    else if f3 = 2 then .ok (.lw rd rs1 (immL w) (laOf w)) else if f3 = 3 then .ok (.ld rd rs1 (immL w) (laOf w))
    else if f3 = 4 then .ok (.lbu rd rs1 (immL w) (laOf w)) else if f3 = 5 then .ok (.lhu rd rs1 (immL w) (laOf w))
    else .ok (.lwu rd rs1 (immL w) (laOf w))

/-- Major 00001: tile loads (11 R250). -/
def decTileLoad (w : Nat) (p : Option Pfx) : Except Nat Instr :=
  let vd := rg w 7; let rs1 := rg w 15
  let f3 := bits w 14 12
  if f3 = 0 then failIf (port vd) 0x06 <| .ok (.vld vd rs1 (immL w) (laOf w) p)
  else if f3 = 1 then failIf (port vd) 0x06 <| .ok (.vldb vd rs1 (immL w) (laOf w) p)
  else if f3 = 2 then failIf (bits w 27 25 != 0) 0x05 <| failIf (port vd) 0x06 <| .ok (.vlds vd rs1 (rg w 20) (laOf w) p)
  else if f3 = 3 then failIf (bits w 27 25 != 0) 0x05 <| failIf (port vd || port (rg w 20)) 0x06 <| .ok (.vldg vd rs1 (rg w 20) (laOf w) p)
  else .error 0x04

/-- Major 00010: full/empty operations (11 R253). -/
def decFullEmpty (w : Nat) : Except Nat Instr :=
  let rd := rg w 7; let rs1 := rg w 15; let rs2 := rg w 20
  let f3 := bits w 14 12
  if f3 = 0 then failIf (port rd) 0x06 <| .ok (.ldfE rd rs1 (immL w) (laOf w))
  else if f3 = 1 then failIf (port rd) 0x06 <| .ok (.ldfF rd rs1 (immL w) (laOf w))
  else if f3 = 2 then .ok (.ste rs2 rs1 (immS w))
  else if f3 = 3 then .ok (.stf rs2 rs1 (immS w))
  else if f3 = 4 then failIf (bits w 31 28 != 0) 0x05 <| failIf (port rd) 0x06 <| .ok (.fetag rd rs1 (immL w))
  else if f3 = 5 then failIf (bits w 24 20 != 0) 0x05 <| .ok (.fsetE rs1 (immS w))
  else if f3 = 6 then failIf (bits w 24 20 != 0) 0x05 <| .ok (.fsetF rs1 (immS w))
  else .error 0x04

/-- Major 00011: fences, instruction-cache maintenance, prefetch, translation logs (11 R259 to R263). -/
def decMisc (w : Nat) : Except Nat Instr :=
  let rd := rg w 7; let rs1 := rg w 15; let rs2 := rg w 20
  let f3 := bits w 14 12
  if f3 = 0 then
    failIf (bits w 15 15 != 0 || bits w 11 10 != 0) 0x05 <|
    withScope (bits w 9 7) fun sc => .ok (.fence (Fin.ofNat 256 (w / 2 ^ 24)) (Fin.ofNat 256 (w / 2 ^ 16)) sc)
  else if f3 = 1 then failIf (bits w 31 15 != 0 || bits w 11 7 != 0) 0x05 <| .ok .ifence
  else if f3 = 2 then
    failIf (bits w 31 25 != 0 || bits w 11 10 != 0) 0x05 <|
    withScope (bits w 9 7) fun sc => failIf (port rs1 || port rs2) 0x06 <| .ok (.codeinv rs1 rs2 sc)
  else if f3 = 3 then
    failIf (bits w 31 25 != 0 || bits w 11 7 != 0) 0x05 <| failIf (port rs1 || port rs2) 0x06 <| .ok (.ipref rs2 rs1)
  else if f3 = 4 then failIf (bits w 11 7 != 0) 0x05 <| failIf (port rs1) 0x06 <| .ok (.dpref rs1 (immI w))
  else if f3 = 5 then
    failIf (bits w 31 29 != 0) 0x05 <| failIf (port rd || port rs1 || port rs2) 0x06 <|
    if bits w 28 28 = 0 then .ok (.tlblog rd rs1 rs2 (Fin.ofNat 8 (w / 2 ^ 25)))
    else .ok (.tlblogw rd rs1 rs2 (Fin.ofNat 8 (w / 2 ^ 25)))
  else .error 0x04

/-- Major 00100: immediate operations (10 R214). -/
def decOpImm (w : Nat) : Except Nat Instr :=
  let rd := rg w 7; let rs1 := rg w 15
  let f3 := bits w 14 12; let hi := bits w 31 26; let sh := Fin.ofNat 64 (w / 2 ^ 20)
  if f3 = 0 then .ok (.addi rd rs1 (immI w)) else if f3 = 2 then .ok (.slti rd rs1 (immI w))
  else if f3 = 3 then .ok (.sltiu rd rs1 (immI w)) else if f3 = 4 then .ok (.xori rd rs1 (immI w))
  else if f3 = 6 then .ok (.ori rd rs1 (immI w)) else if f3 = 7 then .ok (.andi rd rs1 (immI w))
  else if f3 = 1 then (if hi = 0 then .ok (.slli rd rs1 sh) else .error 0x04)
  else if hi = 0 then .ok (.srli rd rs1 sh) else if hi = 16 then .ok (.srai rd rs1 sh) else .error 0x04

/-- Major 00110: 32-bit immediate operations (10 R215). -/
def decOpImm32 (w : Nat) : Except Nat Instr :=
  let rd := rg w 7; let rs1 := rg w 15
  let f3 := bits w 14 12; let hi := bits w 31 25; let sh := Fin.ofNat 32 (w / 2 ^ 20)
  if f3 = 0 then .ok (.addiw rd rs1 (immI w))
  else if f3 = 1 then (if hi = 0 then .ok (.slliw rd rs1 sh) else .error 0x04)
  else if f3 = 5 then
    (if hi = 0 then .ok (.srliw rd rs1 sh) else if hi = 32 then .ok (.sraiw rd rs1 sh) else .error 0x04)
  else .error 0x04

/-- Major 01000: scalar stores (11 R248, R249). -/
def decStore (w : Nat) : Except Nat Instr :=
  let rs1 := rg w 15; let rs2 := rg w 20
  let f3 := bits w 14 12
  if f3 = 0 then .ok (.sb rs2 rs1 (immS w)) else if f3 = 1 then .ok (.sh rs2 rs1 (immS w))
  else if f3 = 2 then .ok (.sw rs2 rs1 (immS w)) else if f3 = 3 then .ok (.sd rs2 rs1 (immS w))
  else if f3 = 7 then
    failIf (bits w 26 25 != 0 || bits w 11 7 != 0) 0x05 <|
    withScope (bits w 31 29) fun sc => .ok (.storeRelease rs2 rs1 (Fin.ofNat 4 (w / 2 ^ 27)) sc)
  else .error 0x04

/-- Major 01001: tile stores (11 R250). -/
def decTileStore (w : Nat) (p : Option Pfx) : Except Nat Instr :=
  let rs1 := rg w 15; let rs2 := rg w 20
  let f3 := bits w 14 12
  if f3 = 0 then .ok (.vst rs2 rs1 (immS w) p)
  else if f3 = 1 then failIf (bits w 31 25 != 0) 0x05 <| .ok (.vsts (rg w 7) rs1 rs2 p)
  else if f3 = 2 then failIf (bits w 31 25 != 0) 0x05 <| failIf (port rs2) 0x06 <| .ok (.vstg (rg w 7) rs1 rs2 p)
  else .error 0x04

/-- Major 01010: task instructions (16 R372). -/
def decTask (w : Nat) : Except Nat Instr :=
  let rd := rg w 7; let rs1 := rg w 15; let rs2 := rg w 20
  let f3 := bits w 14 12; let f7 := bits w 31 25
  let z := bits w 11 7 == 0; let z1 := bits w 19 15 == 0; let z2 := bits w 24 20 == 0
  if f3 = 0 then
    if f7 = 0 then failIf (!(z && z1 && z2)) 0x05 (.ok .yield)
    else if f7 = 1 then failIf (!(z && z2)) 0x05 <| failIf (port rs1) 0x06 (.ok (.suspend rs1))
    else if f7 = 2 then failIf (!(z && z1 && z2)) 0x05 (.ok .exit)
    else if f7 = 3 then failIf (!(z && z2)) 0x05 <| failIf (port rs1) 0x06 (.ok (.join rs1))
    else if f7 = 4 then failIf (port rd || port rs1 || port rs2) 0x06 (.ok (.spawnl rd rs1 rs2))
    else if f7 = 5 then failIf (!(z && z1 && z2)) 0x05 (.ok .gang)
    else if f7 = 6 then failIf (!(z && z1 && z2)) 0x05 (.ok .ungang)
    else .error 0x04
  else if f3 = 1 then failIf (port rd || port rs1) 0x06 (.ok (.fork rd rs1 (immI w)))
  else if f3 = 2 then
    failIf (!z || bits w 31 23 != 0) 0x05 <| failIf (port rs1) 0x06 <|
    if bits w 22 22 = 0 then .ok (.spawn rs1 (Fin.ofNat 4 (w / 2 ^ 20))) else .ok (.spawnN rs1 (Fin.ofNat 4 (w / 2 ^ 20)))
  else .error 0x04

/-- Major 01011: reductions (11 R258). -/
def decRed (w : Nat) : Except Nat Instr :=
  let rs1 := rg w 15; let rs2 := rg w 20
  let op := bits w 28 25; let dbl := bit w 29
  let chk (k : Except Nat Instr) := failIf (bits w 31 30 != 0 || bits w 11 7 != 0) 0x05 k
  if op = 1 then chk (.ok (.redadd rs2 rs1 dbl)) else if op = 2 then chk (.ok (.redand rs2 rs1 dbl))
  else if op = 3 then chk (.ok (.redor rs2 rs1 dbl)) else if op = 4 then chk (.ok (.redxor rs2 rs1 dbl))
  else if op = 5 then chk (.ok (.redmin rs2 rs1 dbl)) else if op = 6 then chk (.ok (.redmax rs2 rs1 dbl))
  else if op = 7 then chk (.ok (.redminu rs2 rs1 dbl)) else if op = 8 then chk (.ok (.redmaxu rs2 rs1 dbl))
  else if op = 9 then failIf dbl 0x04 <| chk (.ok (.redfadd rs2 rs1))
  else .error 0x04

/-- Major 01011: atomics, lr and sc (11 R255). -/
def decAmo (w : Nat) : Except Nat Instr :=
  let rd := rg w 7; let rs1 := rg w 15
  let op := bits w 27 24; let dbl := bit w 23; let aq := bit w 22; let rl := bit w 21; let la := laOf w
  let chk (k : Scope → Except Nat Instr) := failIf (bits w 20 20 != 0) 0x05 <|
    withScope (bits w 14 12) fun sc => failIf (port rd) 0x06 (k sc)
  if op = 0 then chk fun sc => .ok (.amoswap rd rs1 dbl aq rl sc la)
  else if op = 1 then chk fun sc => .ok (.amoadd rd rs1 dbl aq rl sc la)
  else if op = 2 then chk fun sc => .ok (.amoand rd rs1 dbl aq rl sc la)
  else if op = 3 then chk fun sc => .ok (.amoor rd rs1 dbl aq rl sc la)
  else if op = 4 then chk fun sc => .ok (.amoxor rd rs1 dbl aq rl sc la)
  else if op = 5 then chk fun sc => .ok (.amomin rd rs1 dbl aq rl sc la)
  else if op = 6 then chk fun sc => .ok (.amomax rd rs1 dbl aq rl sc la)
  else if op = 7 then chk fun sc => .ok (.amominu rd rs1 dbl aq rl sc la)
  else if op = 8 then chk fun sc => .ok (.amomaxu rd rs1 dbl aq rl sc la)
  else if op = 9 then failIf dbl 0x04 <| chk fun sc => .ok (.amofadd rd rs1 aq rl sc la)
  else if op = 10 then chk fun sc => failIf (rd.val % 2 == 1) 0x06 (.ok (.amocas rd rs1 dbl aq rl sc la))
  else if op = 11 then failIf rl 0x04 <| chk fun sc => .ok (.lr rd rs1 dbl aq sc la)
  else if op = 12 then failIf aq 0x04 <| chk fun sc => .ok (.sc rd rs1 dbl rl sc la)
  else .error 0x04

/-- Major 01100: 64-bit register operations and divides (10 R212, R217). -/
def decOp (w : Nat) : Except Nat Instr :=
  let rd := rg w 7; let rs1 := rg w 15; let rs2 := rg w 20
  let f3 := bits w 14 12; let f7 := bits w 31 25
  if bits w 27 25 = 7 then
    if f3 = 0 then failIf (port rd) 0x06 (.ok (.div rd rs1 rs2 (laOf w)))
    else if f3 = 1 then failIf (port rd) 0x06 (.ok (.divu rd rs1 rs2 (laOf w)))
    else if f3 = 2 then failIf (port rd) 0x06 (.ok (.rem rd rs1 rs2 (laOf w)))
    else if f3 = 3 then failIf (port rd) 0x06 (.ok (.remu rd rs1 rs2 (laOf w)))
    else .error 0x04
  else if f7 = 0 then
    if f3 = 0 then .ok (.add rd rs1 rs2) else if f3 = 1 then .ok (.sll rd rs1 rs2)
    else if f3 = 2 then .ok (.slt rd rs1 rs2) else if f3 = 3 then .ok (.sltu rd rs1 rs2)
    else if f3 = 4 then .ok (.xor rd rs1 rs2) else if f3 = 5 then .ok (.srl rd rs1 rs2)
    else if f3 = 6 then .ok (.or rd rs1 rs2) else .ok (.and rd rs1 rs2)
  else if f7 = 32 then
    if f3 = 0 then .ok (.sub rd rs1 rs2) else if f3 = 5 then .ok (.sra rd rs1 rs2) else .error 0x04
  else if f7 = 1 then
    if f3 = 0 then .ok (.mul rd rs1 rs2) else if f3 = 1 then .ok (.mulh rd rs1 rs2)
    else if f3 = 2 then .ok (.mulhsu rd rs1 rs2) else if f3 = 3 then .ok (.mulhu rd rs1 rs2) else .error 0x04
  else .error 0x04

/-- Major 01110: 32-bit register operations and divides (10 R213, R217). -/
def decOp32 (w : Nat) : Except Nat Instr :=
  let rd := rg w 7; let rs1 := rg w 15; let rs2 := rg w 20
  let f3 := bits w 14 12; let f7 := bits w 31 25
  if bits w 27 25 = 7 then
    if f3 = 0 then failIf (port rd) 0x06 (.ok (.divw rd rs1 rs2 (laOf w)))
    else if f3 = 1 then failIf (port rd) 0x06 (.ok (.divuw rd rs1 rs2 (laOf w)))
    else if f3 = 2 then failIf (port rd) 0x06 (.ok (.remw rd rs1 rs2 (laOf w)))
    else if f3 = 3 then failIf (port rd) 0x06 (.ok (.remuw rd rs1 rs2 (laOf w)))
    else .error 0x04
  else if f7 = 0 then
    if f3 = 0 then .ok (.addw rd rs1 rs2) else if f3 = 1 then .ok (.sllw rd rs1 rs2)
    else if f3 = 5 then .ok (.srlw rd rs1 rs2) else .error 0x04
  else if f7 = 32 then
    if f3 = 0 then .ok (.subw rd rs1 rs2) else if f3 = 5 then .ok (.sraw rd rs1 rs2) else .error 0x04
  else if f7 = 1 then (if f3 = 0 then .ok (.mulw rd rs1 rs2) else .error 0x04)
  else .error 0x04

/-- Major 01111: messages, tags and barriers (16 R372). -/
def decMsg (w : Nat) : Except Nat Instr :=
  let rd := rg w 7; let rs1 := rg w 15; let rs2 := rg w 20
  let f3 := bits w 14 12; let f7 := bits w 31 25
  let tag (k : Instr) : Except Nat Instr := failIf (bits w 24 20 != 0) 0x05 <| failIf (port rd || port rs1) 0x06 (.ok k)
  let barr (k : Instr) : Except Nat Instr := failIf (bits w 11 7 != 0 || bits w 19 15 != 0 || bits w 31 28 != 0) 0x05 (.ok k)
  let d := Fin.ofNat 64 (w / 2 ^ 20)
  if f3 = 0 then
    failIf (bits w 27 27 != 0) 0x05 <| withScope (bits w 31 29) fun sc => failIf (port rd || port rs1 || port rs2) 0x06 <|
    if bits w 28 28 = 0 then .ok (.send rd rs1 rs2 (Fin.ofNat 4 (w / 2 ^ 25)) sc)
    else .ok (.sendp rd rs1 rs2 (Fin.ofNat 4 (w / 2 ^ 25)) sc)
  else if f3 = 1 then
    if f7 = 0 then tag (.tagen rd rs1) else if f7 = 1 then tag (.tagdis rd rs1) else if f7 = 2 then tag (.tagset rd rs1)
    else if f7 = 3 then tag (.tagclr rd rs1) else if f7 = 4 then tag (.tagq rd rs1)
    else if f7 = 5 then failIf (port rd || port rs1 || port rs2) 0x06 (.ok (.tagw rs1 rs2 rd))
    else .error 0x04
  else if f3 = 2 then
    failIf (bits w 11 7 != 0 || bits w 31 22 != 0) 0x05 <| failIf (port rs1) 0x06 (.ok (.wait rs1 (Fin.ofNat 4 (w / 2 ^ 20))))
  else if f3 = 3 then
    if bits w 27 26 = 0 then barr (.bara d) else if bits w 27 26 = 1 then barr (.barw d)
    else if bits w 27 26 = 2 then barr (.bar d) else .error 0x04
  else .error 0x04

/-- Major 10000: scalar FP32 (10 R230, R235). -/
def decFp (w : Nat) : Except Nat Instr :=
  let rd := rg w 7; let rs1 := rg w 15; let rs2 := rg w 20; let rm := rmOf w
  let f3 := bits w 14 12; let f7 := bits w 31 25; let s2 := bits w 24 20
  if bits w 27 26 = 3 then
    if bits w 25 25 = 0 then failIf (port rd) 0x06 (.ok (.fdivS rd rs1 rs2 rm (laOf w)))
    else failIf (s2 != 0) 0x05 <| failIf (port rd) 0x06 (.ok (.fsqrtS rd rs1 rm (laOf w)))
  else if f7 = 0 then .ok (.faddS rd rs1 rs2 rm)
  else if f7 = 4 then .ok (.fsubS rd rs1 rs2 rm)
  else if f7 = 8 then .ok (.fmulS rd rs1 rs2 rm)
  else if f7 = 12 then
    if f3 = 0 then .ok (.fminS rd rs1 rs2) else if f3 = 1 then .ok (.fmaxS rd rs1 rs2) else .error 0x04
  else if f7 = 16 then
    if f3 = 0 then .ok (.fsgnjS rd rs1 rs2) else if f3 = 1 then .ok (.fsgnjnS rd rs1 rs2)
    else if f3 = 2 then .ok (.fsgnjxS rd rs1 rs2) else .error 0x04
  else if f7 = 20 then
    if f3 = 0 then .ok (.fleS rd rs1 rs2) else if f3 = 1 then .ok (.fltS rd rs1 rs2)
    else if f3 = 2 then .ok (.feqS rd rs1 rs2) else .error 0x04
  else if f7 = 24 then
    if f3 = 0 then failIf (s2 != 0) 0x05 (.ok (.fclassS rd rs1)) else .error 0x04
  else if f7 = 28 then
    if s2 = 0 then .ok (.fcvtWS rd rs1 rm) else if s2 = 1 then .ok (.fcvtWuS rd rs1 rm)
    else if s2 = 2 then .ok (.fcvtLS rd rs1 rm) else if s2 = 3 then .ok (.fcvtLuS rd rs1 rm) else .error 0x04
  else if f7 = 32 then
    if s2 = 0 then .ok (.fcvtSW rd rs1 rm) else if s2 = 1 then .ok (.fcvtSWu rd rs1 rm)
    else if s2 = 2 then .ok (.fcvtSL rd rs1 rm) else if s2 = 3 then .ok (.fcvtSLu rd rs1 rm) else .error 0x04
  else .error 0x04

/-- Major 10001: scalar fused multiply-add (10 R234). -/
def decFma (w : Nat) : Except Nat Instr :=
  let rd := rg w 7; let rs1 := rg w 15; let rs2 := rg w 20; let rs3 := rg w 27; let rm := rmOf w
  let f2 := bits w 26 25
  if f2 = 0 then .ok (.fmaddS rd rs1 rs2 rs3 rm) else if f2 = 1 then .ok (.fmsubS rd rs1 rs2 rs3 rm)
  else if f2 = 2 then .ok (.fnmsubS rd rs1 rs2 rs3 rm) else .ok (.fnmaddS rd rs1 rs2 rs3 rm)

/-- Major 11101: bit manipulation, carry-less multiply, modp (10 R218 to R222). -/
def decBit (w : Nat) : Except Nat Instr :=
  let rd := rg w 7; let rs1 := rg w 15; let rs2 := rg w 20
  let f3 := bits w 14 12; let f7 := bits w 31 25; let s2 := bits w 24 20; let sh := Fin.ofNat 64 (w / 2 ^ 20)
  let un (k : Instr) : Except Nat Instr := failIf (f7 != 0) 0x05 (.ok k)
  if f3 = 0 then
    if f7 = 0 then .ok (.andn rd rs1 rs2) else if f7 = 1 then .ok (.orn rd rs1 rs2)
    else if f7 = 2 then .ok (.min rd rs1 rs2) else if f7 = 3 then .ok (.max rd rs1 rs2)
    else if f7 = 4 then .ok (.minu rd rs1 rs2) else if f7 = 5 then .ok (.maxu rd rs1 rs2)
    else if f7 = 6 then .ok (.rol rd rs1 rs2) else if f7 = 7 then .ok (.ror rd rs1 rs2)
    else if f7 = 8 then .ok (.clmul rd rs1 rs2) else if f7 = 9 then .ok (.clmulh rd rs1 rs2)
    else if f7 = 10 then .ok (.clmulr rd rs1 rs2) else if f7 = 11 then .ok (.bext rd rs1 rs2)
    else if f7 = 12 then .ok (.bdep rd rs1 rs2) else .error 0x04
  else if f3 = 1 then
    if s2 = 0 then un (.clz rd rs1) else if s2 = 1 then un (.ctz rd rs1) else if s2 = 2 then un (.popc rd rs1)
    else if s2 = 3 then un (.brev rd rs1) else if s2 = 4 then un (.bswap rd rs1) else if s2 = 5 then un (.sextB rd rs1)
    else if s2 = 6 then un (.sextH rd rs1) else if s2 = 7 then un (.sextW rd rs1) else if s2 = 8 then un (.zextB rd rs1)
    else if s2 = 9 then un (.zextH rd rs1) else if s2 = 10 then un (.zextW rd rs1) else .error 0x04
  else if f3 = 4 then failIf (bits w 31 26 != 0) 0x05 (.ok (.rori rd rs1 sh))
  else if f3 = 5 then failIf (bits w 31 26 != 0) 0x05 (.ok (.modp rd rs1 sh))
  else .error 0x04

/-- Major 11000: branches (10 R223). -/
def decBranch (w : Nat) : Except Nat Instr :=
  let rs1 := rg w 15; let rs2 := rg w 20; let off := immS w
  let f3 := bits w 14 12
  failIf (port rs1 || port rs2) 0x06 <|
  if f3 = 0 then .ok (.beq rs1 rs2 off) else if f3 = 1 then .ok (.bne rs1 rs2 off)
  else if f3 = 2 then .ok (.bbs rs1 rs2 off) else if f3 = 3 then .ok (.bbc rs1 rs2 off)
  else if f3 = 4 then .ok (.blt rs1 rs2 off) else if f3 = 5 then .ok (.bge rs1 rs2 off)
  else if f3 = 6 then .ok (.bltu rs1 rs2 off) else .ok (.bgeu rs1 rs2 off)

/-- Major 11001: register jumps (10 R225). -/
def decJump (w : Nat) : Except Nat Instr :=
  let rd := rg w 7; let rs1 := rg w 15
  let f3 := bits w 14 12
  if f3 = 0 then failIf (port rd || port rs1) 0x06 (.ok (.jalr rd rs1 (immI w)))
  else if f3 = 1 then failIf (bits w 31 20 != 0) 0x05 <| failIf (port rd || port rs1) 0x06 (.ok (.jalp rd rs1))
  else .error 0x04

/-- Major 11100: CSR and system instructions (10 R236, R239). -/
def decSystem (w : Nat) : Except Nat Instr :=
  let rd := rg w 7; let rs1 := rg w 15; let csr := Fin.ofNat 4096 (w / 2 ^ 20); let u := Fin.ofNat 32 (w / 2 ^ 15)
  let f3 := bits w 14 12; let n := bits w 31 20
  let sys (k : Instr) : Except Nat Instr := failIf (bits w 11 7 != 0 || bits w 19 15 != 0) 0x05 (.ok k)
  if f3 = 0 then
    if n < 256 then sys (.trap (Fin.ofNat 256 (w / 2 ^ 20)))
    else if n = 0x100 then sys .eret else if n = 0x101 then sys .halt else if n = 0x102 then sys .brk else .error 0x04
  else if f3 = 1 then failIf (port rd || port rs1) 0x06 (.ok (.csrrw rd rs1 csr))
  else if f3 = 2 then failIf (port rd || port rs1) 0x06 (.ok (.csrrs rd rs1 csr))
  else if f3 = 3 then failIf (port rd || port rs1) 0x06 (.ok (.csrrc rd rs1 csr))
  else if f3 = 5 then failIf (port rd) 0x06 (.ok (.csrrwi rd u csr))
  else if f3 = 6 then failIf (port rd) 0x06 (.ok (.csrrsi rd u csr))
  else if f3 = 7 then failIf (port rd) 0x06 (.ok (.csrrci rd u csr))
  else .error 0x04

/-- Major 10010: tile integer operations (13 R295). -/
def decTileInt (w : Nat) (p : Option Pfx) : Except Nat Instr :=
  let vd := rg w 7; let a := rg w 15; let b := rg w 20; let x := bit w 25
  let f4 := bits w 31 28
  let chk (k : TInt → Instr) : Except Nat Instr :=
    match TInt.ofCode (bits w 14 12) with
    | none => .error 0x04
    | some ty => failIf (bits w 27 26 != 0) 0x05 (.ok (k ty))
  if f4 = 0 then chk fun ty => .vadd vd a b x ty p else if f4 = 1 then chk fun ty => .vsub vd a b x ty p
  else if f4 = 2 then chk fun ty => .vmul vd a b x ty p else if f4 = 3 then chk fun ty => .vmulh vd a b x ty p
  else if f4 = 4 then chk fun ty => .vmin vd a b x ty p else if f4 = 5 then chk fun ty => .vmax vd a b x ty p
  else if f4 = 6 then chk fun ty => .vand vd a b x ty p else if f4 = 7 then chk fun ty => .vor vd a b x ty p
  else if f4 = 8 then chk fun ty => .vxor vd a b x ty p else if f4 = 9 then chk fun ty => .vsll vd a b x ty p
  else if f4 = 10 then chk fun ty => .vsr vd a b x ty p else if f4 = 11 then chk fun ty => .vabsd vd a b x ty p
  else .error 0x04

/-- Major 10011: tile floating operations (13 R296, R298, R299). -/
def decTileFp (w : Nat) (p : Option Pfx) : Except Nat Instr :=
  let vd := rg w 7; let a := rg w 15; let b := rg w 20; let x := bit w 25; let la := laOf w
  let f3 := bits w 14 12; let f4 := bits w 31 28; let f3b := bits w 27 25; let z2 := bits w 24 20 == 0
  let chk (k : TFlt → Instr) : Except Nat Instr :=
    match TFlt.ofCode f3 with
    | none => .error 0x04
    | some ty => failIf (bits w 27 26 != 0) 0x05 (.ok (k ty))
  let una (k : TFlt → Instr) : Except Nat Instr :=
    match TFlt.ofCode f3 with
    | none => .error 0x04
    | some ty => failIf (f3b != 0 || !z2) 0x05 (.ok (k ty))
  if f3 = 7 then
    if f3b = 0 then failIf (port vd) 0x06 (.ok (.vfdivF32 vd a b la p))
    else if f3b = 1 then failIf (!z2) 0x05 <| failIf (port vd) 0x06 (.ok (.vfsqrtF32 vd a la p))
    else if f3b = 2 then failIf (port vd) 0x06 (.ok (.vfdivBf16 vd a b la p))
    else if f3b = 3 then failIf (!z2) 0x05 <| failIf (port vd) 0x06 (.ok (.vfsqrtBf16 vd a la p))
    else if f3b = 4 then failIf (port vd) 0x06 (.ok (.vfdivF16 vd a b la p))
    else if f3b = 5 then failIf (!z2) 0x05 <| failIf (port vd) 0x06 (.ok (.vfsqrtF16 vd a la p))
    else .error 0x04
  else if f4 = 0 then chk fun ty => .vfadd vd a b x ty p else if f4 = 1 then chk fun ty => .vfsub vd a b x ty p
  else if f4 = 2 then chk fun ty => .vfmul vd a b x ty p else if f4 = 3 then chk fun ty => .vfmin vd a b x ty p
  else if f4 = 4 then chk fun ty => .vfmax vd a b x ty p else if f4 = 5 then chk fun ty => .vfma vd a b x ty p
  else if f4 = 6 then chk fun ty => .vfms vd a b x ty p else if f4 = 7 then chk fun ty => .vfnma vd a b x ty p
  else if f4 = 8 then una fun ty => .vfabs vd a ty p else if f4 = 9 then una fun ty => .vfneg vd a ty p
  else if f4 = 10 then (if f3 = 0 then failIf (f3b != 0) 0x05 (.ok (.vscacc vd a b p)) else .error 0x04)
  else .error 0x04

/-- The part numbers of a conversion (13 R302). -/
def partOk (dst src : Fmt) (part : Nat) : Bool :=
  let nd := dst.perSlot; let ns := src.perSlot
  if nd = ns then part == 0 else if nd < ns then decide (part < (ns + nd - 1) / nd) else decide (part < (nd + ns - 1) / ns)

/-- Major 10100: convert, permute, reduce, random, special functions (13 R300 to R307). -/
def decTileMisc (w : Nat) (p : Option Pfx) : Except Nat Instr :=
  let vd := rg w 7; let a := rg w 15; let b := rg w 20; let la := laOf w
  let f3 := bits w 14 12; let f4 := bits w 31 28; let f3b := bits w 27 25
  let z1 := bits w 19 15 == 0; let z2 := bits w 24 20 == 0
  let sfu (k : Instr) : Except Nat Instr := failIf (!z2) 0x05 <| failIf (port vd) 0x06 (.ok k)
  let red (k : Fmt → Instr) : Except Nat Instr :=
    match Fmt.ofCode (bits w 23 20) with
    | none => .error 0x04
    | some f => failIf (!f.reducible) 0x04 <| failIf (f3b != 0) 0x05 (.ok (k f))
  if f3 = 7 then
    if f3b = 0 then sfu (.vexp2 vd a la p) else if f3b = 1 then sfu (.vlog2 vd a la p)
    else if f3b = 2 then sfu (.vrcp vd a la p) else if f3b = 3 then sfu (.vrsqrt vd a la p)
    else if f3b = 4 then sfu (.vsqrt vd a la p) else if f3b = 5 then sfu (.vtanh vd a la p)
    else if f3b = 6 then sfu (.vsin vd a la p) else sfu (.vcos vd a la p)
  else if f3 = 0 then
    failIf (bits w 24 24 != 0) 0x05 <|
    match Fmt.ofCode f4, Fmt.ofCode (bits w 23 20) with
    | some dst, some src => failIf (!partOk dst src f3b) 0x06 (.ok (.vcvt vd a dst src (Fin.ofNat 8 (w / 2 ^ 25)) p))
    | _, _ => .error 0x06
  else if f3 = 1 then
    if f4 = 0 then failIf (f3b != 0 || !z2) 0x05 (.ok (.vtrans vd a p))
    else if f4 = 1 then failIf (f3b != 0) 0x05 (.ok (.vperm vd a b p))
    else if f4 = 2 then failIf (f3b != 0) 0x05 (.ok (.vslideC vd a b p))
    else if f4 = 3 then failIf (f3b != 0) 0x05 (.ok (.vslideR vd a b p))
    else if f4 = 4 then failIf (f3b != 0) 0x05 (.ok (.vbcastR vd a b p))
    else if f4 = 5 then failIf (f3b != 0) 0x05 (.ok (.vbcastC vd a b p))
    else .error 0x04
  else if f3 = 2 then
    if f4 = 0 then red fun f => .vredsum vd a (bit w 24) f p else if f4 = 1 then red fun f => .vredmin vd a (bit w 24) f p
    else if f4 = 2 then red fun f => .vredmax vd a (bit w 24) f p else .error 0x04
  else if f3 = 3 then
    if f4 = 0 then failIf (f3b != 0 || !z1 || !z2) 0x05 (.ok (.vrand vd p))
    else if f4 = 1 then failIf (f3b != 0 || !z1 || !z2) 0x05 (.ok (.vrandf vd p)) else .error 0x04
  else .error 0x04

/-- Major 10101: compare, select, move, shape (13 R291, R308 to R310). A prefix before vgetx, vsetx or tshape is
refused whatever its fields when one of them is non-zero (13 R292). -/
def decTileCmp (w : Nat) (p : Option Pfx) : Except Nat Instr :=
  let vd := rg w 7; let a := rg w 15; let b := rg w 20
  let f3 := bits w 14 12; let f4 := bits w 31 28; let f3b := bits w 27 25; let z2 := bits w 24 20 == 0
  if f3 = 0 then
    match Cond.ofCode (bits w 30 28), CmpFmt.ofCode f3b (bit w 31) with
    | some c, some f => .ok (.vcmp vd a b c f p)
    | _, _ => .error 0x04
  else if f3 = 1 then
    if f4 = 0 then failIf (f3b != 0) 0x05 (.ok (.vsel vd a b p))
    else if f4 = 1 then failIf (f3b != 0 || !z2) 0x05 (.ok (.vmv vd a p)) else .error 0x04
  else if f3 = 2 then
    if f4 = 0 then failIf (f3b != 0) 0x05 (.ok (.vgetx vd a b p))
    else if f4 = 1 then failIf (f3b != 0) 0x05 (.ok (.vsetx vd a b p))
    else if f4 = 2 then failIf (f3b != 0 || !z2) 0x05 (.ok (.vbcx vd a p)) else .error 0x04
  else if f3 = 3 then
    if f4 = 0 then
      failIf (bits w 11 7 != 0 || f3b != 0 || bits w 19 18 != 0 || bits w 24 23 != 0) 0x05
        (.ok (.tshape (Fin.ofNat 8 (w / 2 ^ 15)) (Fin.ofNat 8 (w / 2 ^ 20)) p))
    else .error 0x04
  else .error 0x04

/-- Major 10110: engine instructions (16 R372). -/
def decEngine (w : Nat) : Except Nat Instr :=
  let rd := rg w 7; let rs1 := rg w 15
  let f3 := bits w 14 12; let f7 := bits w 31 25
  let z := bits w 11 7 == 0; let z1 := bits w 19 15 == 0; let z2 := bits w 24 20 == 0
  if f3 = 0 then failIf (!z || bits w 31 28 != 0) 0x05 <| failIf (port rs1) 0x06 (.ok (.give rs1 (Fin.ofNat 256 (w / 2 ^ 20))))
  else if f3 = 1 then failIf (!z || bits w 31 28 != 0) 0x05 <| failIf (port rs1) 0x06 (.ok (.take rs1 (Fin.ofNat 256 (w / 2 ^ 20))))
  else if f3 = 2 then
    if f7 = 0 then failIf (!(z && z2)) 0x05 <| failIf (port rs1) 0x06 (.ok (.mlease rs1))
    else if f7 = 1 then failIf (!(z && z1 && z2)) 0x05 (.ok .mfree)
    else if f7 = 2 then failIf (!z2) 0x05 <| failIf (port rd || port rs1) 0x06 (.ok (.cdopen rd rs1))
    else if f7 = 3 then failIf (!(z && z1 && z2)) 0x05 (.ok .cdclose)
    else if f7 = 4 then failIf (!(z && z1 && z2)) 0x05 (.ok .cdabort)
    else .error 0x04
  else if f3 = 3 then
    failIf (!z1 || bits w 31 22 != 0) 0x05 <| failIf (port rd) 0x06 (.ok (.qstat rd (Fin.ofNat 4 (w / 2 ^ 20))))
  else .error 0x04

/-- Selects by major (09 R188). -/
def decMajor (w : Nat) (p : Option Pfx) : Except Nat Instr :=
  let m := bits w 6 2
  if m = 0 then decLoad w else if m = 1 then decTileLoad w p else if m = 2 then decFullEmpty w
  else if m = 3 then decMisc w else if m = 4 then decOpImm w
  else if m = 5 then .ok (.auipc (rg w 7) (Fin.ofNat 1048576 (w / 2 ^ 12)))
  else if m = 6 then decOpImm32 w else if m = 8 then decStore w else if m = 9 then decTileStore w p
  else if m = 10 then decTask w else if m = 11 then (if bits w 14 12 = 7 then decRed w else decAmo w)
  else if m = 12 then decOp w else if m = 13 then .ok (.lui (rg w 7) (Fin.ofNat 1048576 (w / 2 ^ 12)))
  else if m = 14 then decOp32 w else if m = 15 then decMsg w else if m = 16 then decFp w else if m = 17 then decFma w
  else if m = 18 then decTileInt w p else if m = 19 then decTileFp w p else if m = 20 then decTileMisc w p
  else if m = 21 then decTileCmp w p else if m = 22 then decEngine w else if m = 24 then decBranch w
  else if m = 25 then decJump w
  else if m = 27 then failIf (port (rg w 7)) 0x06 (.ok (.jal (rg w 7) (offJ w)))
  else if m = 28 then decSystem w else if m = 29 then decBit w else .error 0x03

/-- Whether a word's major takes a prefix (09 R190, detail 0x10). -/
def tileMajor (w : Nat) : Bool :=
  let m := bits w 6 2
  m == 1 || m == 9 || decide (18 ≤ m ∧ m ≤ 21)

/-- Decodes a base word after an optional prefix word, or gives the first detail of 09 R190 that applies. Details 0x07,
0x08, 0x20 and 0x30 depend on the core's state and are found at issue. -/
def decodeBase (w : Nat) (pw : Option Nat) : Except Nat Instr :=
  if w = 0 then .error 0x01 else if w % 4 ≠ 3 then .error 0x02
  else
    match pw with
    | none =>
      if isPfxWord w then .error 0x11
      else match decMajor w none with
        | .error d => .error d
        | .ok i => match i.pfxDetail with
          | some d => .error d
          | none => .ok i
    | some pv =>
      if isPfxWord w then .error 0x11 else if !tileMajor w then .error 0x10
      else match decMajor w (some (pfxOfWord pv)) with
        | .error d => .error d
        | .ok i =>
          if bits pv 31 26 ≠ 0 then .error 0x12
          else match i.pfxDetail with
            | some d => .error d
            | none => .ok i

/-- Decodes the words of one instruction: a base word, or a prefix word and its base word (09 R195). Answers the
instruction and its length in bytes. -/
def decodeWords : List Nat → Except Nat (Instr × Nat)
  | [] => .error 0x01
  | [w] =>
    match decodeBase w none with
    | .ok i => .ok (i, 4)
    | .error d => .error d
  | w0 :: w1 :: _ =>
    if isPfxWord w0 then
      match decodeBase w1 (some w0) with
      | .ok i => .ok (i, 8)
      | .error d => .error d
    else
      match decodeBase w0 none with
      | .ok i => .ok (i, 4)
      | .error d => .error d

/-- The 32-bit word whose little-endian bytes these are (00 R3), and the bytes after it. -/
def wordOfBytes : List Nat → Option (Nat × List Nat)
  | b0 :: b1 :: b2 :: b3 :: r => some (b0 % 256 + 256 * (b1 % 256) + 65536 * (b2 % 256) + 16777216 * (b3 % 256), r)
  | _ => none

/-- Decodes the instruction at the head of a list of bytes, total on any bytes: too few bytes are refused as the
all-zero word would be. -/
def decodeBytes (b : List Nat) : Except Nat (Instr × Nat) :=
  match wordOfBytes b with
  | none => .error 0x01
  | some (w0, r) =>
    match wordOfBytes r with
    | none => decodeWords [w0]
    | some (w1, _) => decodeWords [w0, w1]

/-- The instruction the decoder reads from the words of an opcode-table row: the first word is bits 31 to 0, a later
word follows above it, and bits above nbits are 0. -/
def decodeTableWord (nbits w : Nat) : Option Instr :=
  let v := w % 2 ^ nbits
  match decodeWords [v % 2 ^ 32, v / 2 ^ 32 % 2 ^ 32] with
  | .ok (i, _) => some i
  | .error _ => none

/-! ## The encoder (09 R186, and the encoding tables of 10, 11, 13 and 16) -/

/-- Format R. -/
def encR (f7 : Nat) (rs2 rs1 : Reg) (f3 : Nat) (rd : Reg) (major : Nat) : Nat :=
  f7 * 2 ^ 25 + rs2.val * 2 ^ 20 + rs1.val * 2 ^ 15 + f3 * 2 ^ 12 + rd.val * 2 ^ 7 + major * 4 + 3
/-- Format I. -/
def encI (imm : Nat) (rs1 : Reg) (f3 : Nat) (rd : Reg) (major : Nat) : Nat :=
  imm * 2 ^ 20 + rs1.val * 2 ^ 15 + f3 * 2 ^ 12 + rd.val * 2 ^ 7 + major * 4 + 3
/-- Formats S and B. -/
def encS (imm : Nat) (rs2 rs1 : Reg) (f3 major : Nat) : Nat :=
  imm / 32 * 2 ^ 25 + rs2.val * 2 ^ 20 + rs1.val * 2 ^ 15 + f3 * 2 ^ 12 + imm % 32 * 2 ^ 7 + major * 4 + 3
/-- Formats U and J. -/
def encU (imm : Nat) (rd : Reg) (major : Nat) : Nat := imm * 2 ^ 12 + rd.val * 2 ^ 7 + major * 4 + 3
/-- Format L.i. -/
def encLi (la : La) (imm : Nat) (rs1 : Reg) (f3 : Nat) (rd : Reg) (major : Nat) : Nat :=
  la.val * 2 ^ 28 + imm * 2 ^ 20 + rs1.val * 2 ^ 15 + f3 * 2 ^ 12 + rd.val * 2 ^ 7 + major * 4 + 3
/-- Formats L.r and V. -/
def encV (f4 f3b : Nat) (rs2 rs1 : Reg) (f3 : Nat) (rd : Reg) (major : Nat) : Nat :=
  f4 * 2 ^ 28 + f3b * 2 ^ 25 + rs2.val * 2 ^ 20 + rs1.val * 2 ^ 15 + f3 * 2 ^ 12 + rd.val * 2 ^ 7 + major * 4 + 3
/-- Format L.a (11 R255). -/
def encA (la : La) (op : Nat) (dbl aq rl : Bool) (rs1 : Reg) (sc : Scope) (rd : Reg) : Nat :=
  la.val * 2 ^ 28 + op * 2 ^ 24 + b2n dbl * 2 ^ 23 + b2n aq * 2 ^ 22 + b2n rl * 2 ^ 21 + rs1.val * 2 ^ 15 +
    sc.code * 2 ^ 12 + rd.val * 2 ^ 7 + 11 * 4 + 3
/-- Format Q. -/
def encQ (rs3 : Reg) (f2 : Nat) (rs2 rs1 : Reg) (rm : Rm) (rd : Reg) : Nat :=
  rs3.val * 2 ^ 27 + f2 * 2 ^ 25 + rs2.val * 2 ^ 20 + rs1.val * 2 ^ 15 + rm.val * 2 ^ 12 + rd.val * 2 ^ 7 + 17 * 4 + 3
/-- The prefix word (09 R193). -/
def encPfx (p : Pfx) : Nat :=
  b2n p.sat * 2 ^ 25 + b2n p.gang * 2 ^ 24 + p.goff.val * 2 ^ 22 + b2n p.v4 * 2 ^ 21 + p.op4.val * 2 ^ 16 +
    p.rm.val * 2 ^ 13 + b2n p.zero * 2 ^ 12 + p.mask.val * 2 ^ 7 + 31

/-- The base word of a CPU instruction; 0 for a command or an event, which has no word. -/
def encWord : Instr → Nat
  | .add rd rs1 rs2 => encR 0 rs2 rs1 0 rd 12
  | .sll rd rs1 rs2 => encR 0 rs2 rs1 1 rd 12
  | .slt rd rs1 rs2 => encR 0 rs2 rs1 2 rd 12
  | .sltu rd rs1 rs2 => encR 0 rs2 rs1 3 rd 12
  | .xor rd rs1 rs2 => encR 0 rs2 rs1 4 rd 12
  | .srl rd rs1 rs2 => encR 0 rs2 rs1 5 rd 12
  | .or rd rs1 rs2 => encR 0 rs2 rs1 6 rd 12
  | .and rd rs1 rs2 => encR 0 rs2 rs1 7 rd 12
  | .sub rd rs1 rs2 => encR 32 rs2 rs1 0 rd 12
  | .sra rd rs1 rs2 => encR 32 rs2 rs1 5 rd 12
  | .mul rd rs1 rs2 => encR 1 rs2 rs1 0 rd 12
  | .mulh rd rs1 rs2 => encR 1 rs2 rs1 1 rd 12
  | .mulhsu rd rs1 rs2 => encR 1 rs2 rs1 2 rd 12
  | .mulhu rd rs1 rs2 => encR 1 rs2 rs1 3 rd 12
  | .addw rd rs1 rs2 => encR 0 rs2 rs1 0 rd 14
  | .subw rd rs1 rs2 => encR 32 rs2 rs1 0 rd 14
  | .sllw rd rs1 rs2 => encR 0 rs2 rs1 1 rd 14
  | .srlw rd rs1 rs2 => encR 0 rs2 rs1 5 rd 14
  | .sraw rd rs1 rs2 => encR 32 rs2 rs1 5 rd 14
  | .mulw rd rs1 rs2 => encR 1 rs2 rs1 0 rd 14
  | .addi rd rs1 imm => encI (ux 12 imm) rs1 0 rd 4
  | .slti rd rs1 imm => encI (ux 12 imm) rs1 2 rd 4
  | .sltiu rd rs1 imm => encI (ux 12 imm) rs1 3 rd 4
  | .xori rd rs1 imm => encI (ux 12 imm) rs1 4 rd 4
  | .ori rd rs1 imm => encI (ux 12 imm) rs1 6 rd 4
  | .andi rd rs1 imm => encI (ux 12 imm) rs1 7 rd 4
  | .slli rd rs1 sh => encI sh.val rs1 1 rd 4
  | .srli rd rs1 sh => encI sh.val rs1 5 rd 4
  | .srai rd rs1 sh => encI (1024 + sh.val) rs1 5 rd 4
  | .addiw rd rs1 imm => encI (ux 12 imm) rs1 0 rd 6
  | .slliw rd rs1 sh => encI sh.val rs1 1 rd 6
  | .srliw rd rs1 sh => encI sh.val rs1 5 rd 6
  | .sraiw rd rs1 sh => encI (1024 + sh.val) rs1 5 rd 6
  | .lui rd imm => encU imm.val rd 13
  | .auipc rd imm => encU imm.val rd 5
  | .div rd rs1 rs2 la => encV la.val 7 rs2 rs1 0 rd 12
  | .divu rd rs1 rs2 la => encV la.val 7 rs2 rs1 1 rd 12
  | .rem rd rs1 rs2 la => encV la.val 7 rs2 rs1 2 rd 12
  | .remu rd rs1 rs2 la => encV la.val 7 rs2 rs1 3 rd 12
  | .divw rd rs1 rs2 la => encV la.val 7 rs2 rs1 0 rd 14
  | .divuw rd rs1 rs2 la => encV la.val 7 rs2 rs1 1 rd 14
  | .remw rd rs1 rs2 la => encV la.val 7 rs2 rs1 2 rd 14
  | .remuw rd rs1 rs2 la => encV la.val 7 rs2 rs1 3 rd 14
  | .andn rd rs1 rs2 => encR 0 rs2 rs1 0 rd 29
  | .orn rd rs1 rs2 => encR 1 rs2 rs1 0 rd 29
  | .min rd rs1 rs2 => encR 2 rs2 rs1 0 rd 29
  | .max rd rs1 rs2 => encR 3 rs2 rs1 0 rd 29
  | .minu rd rs1 rs2 => encR 4 rs2 rs1 0 rd 29
  | .maxu rd rs1 rs2 => encR 5 rs2 rs1 0 rd 29
  | .rol rd rs1 rs2 => encR 6 rs2 rs1 0 rd 29
  | .ror rd rs1 rs2 => encR 7 rs2 rs1 0 rd 29
  | .clmul rd rs1 rs2 => encR 8 rs2 rs1 0 rd 29
  | .clmulh rd rs1 rs2 => encR 9 rs2 rs1 0 rd 29
  | .clmulr rd rs1 rs2 => encR 10 rs2 rs1 0 rd 29
  | .bext rd rs1 rs2 => encR 11 rs2 rs1 0 rd 29
  | .bdep rd rs1 rs2 => encR 12 rs2 rs1 0 rd 29
  | .clz rd rs1 => encR 0 0 rs1 1 rd 29
  | .ctz rd rs1 => encR 0 1 rs1 1 rd 29
  | .popc rd rs1 => encR 0 2 rs1 1 rd 29
  | .brev rd rs1 => encR 0 3 rs1 1 rd 29
  | .bswap rd rs1 => encR 0 4 rs1 1 rd 29
  | .sextB rd rs1 => encR 0 5 rs1 1 rd 29
  | .sextH rd rs1 => encR 0 6 rs1 1 rd 29
  | .sextW rd rs1 => encR 0 7 rs1 1 rd 29
  | .zextB rd rs1 => encR 0 8 rs1 1 rd 29
  | .zextH rd rs1 => encR 0 9 rs1 1 rd 29
  | .zextW rd rs1 => encR 0 10 rs1 1 rd 29
  | .rori rd rs1 sh => encI sh.val rs1 4 rd 29
  | .modp rd rs1 c => encI c.val rs1 5 rd 29
  | .beq rs1 rs2 off => encS (ux 12 off) rs2 rs1 0 24
  | .bne rs1 rs2 off => encS (ux 12 off) rs2 rs1 1 24
  | .bbs rs1 rs2 off => encS (ux 12 off) rs2 rs1 2 24
  | .bbc rs1 rs2 off => encS (ux 12 off) rs2 rs1 3 24
  | .blt rs1 rs2 off => encS (ux 12 off) rs2 rs1 4 24
  | .bge rs1 rs2 off => encS (ux 12 off) rs2 rs1 5 24
  | .bltu rs1 rs2 off => encS (ux 12 off) rs2 rs1 6 24
  | .bgeu rs1 rs2 off => encS (ux 12 off) rs2 rs1 7 24
  | .jal rd off => encU (ux 20 off) rd 27
  | .jalr rd rs1 imm => encI (ux 12 imm) rs1 0 rd 25
  | .jalp rd rs1 => encR 0 0 rs1 1 rd 25
  | .faddS rd rs1 rs2 rm => encR 0 rs2 rs1 rm.val rd 16
  | .fsubS rd rs1 rs2 rm => encR 4 rs2 rs1 rm.val rd 16
  | .fmulS rd rs1 rs2 rm => encR 8 rs2 rs1 rm.val rd 16
  | .fminS rd rs1 rs2 => encR 12 rs2 rs1 0 rd 16
  | .fmaxS rd rs1 rs2 => encR 12 rs2 rs1 1 rd 16
  | .fsgnjS rd rs1 rs2 => encR 16 rs2 rs1 0 rd 16
  | .fsgnjnS rd rs1 rs2 => encR 16 rs2 rs1 1 rd 16
  | .fsgnjxS rd rs1 rs2 => encR 16 rs2 rs1 2 rd 16
  | .fleS rd rs1 rs2 => encR 20 rs2 rs1 0 rd 16
  | .fltS rd rs1 rs2 => encR 20 rs2 rs1 1 rd 16
  | .feqS rd rs1 rs2 => encR 20 rs2 rs1 2 rd 16
  | .fclassS rd rs1 => encR 24 0 rs1 0 rd 16
  | .fcvtWS rd rs1 rm => encR 28 0 rs1 rm.val rd 16
  | .fcvtWuS rd rs1 rm => encR 28 1 rs1 rm.val rd 16
  | .fcvtLS rd rs1 rm => encR 28 2 rs1 rm.val rd 16
  | .fcvtLuS rd rs1 rm => encR 28 3 rs1 rm.val rd 16
  | .fcvtSW rd rs1 rm => encR 32 0 rs1 rm.val rd 16
  | .fcvtSWu rd rs1 rm => encR 32 1 rs1 rm.val rd 16
  | .fcvtSL rd rs1 rm => encR 32 2 rs1 rm.val rd 16
  | .fcvtSLu rd rs1 rm => encR 32 3 rs1 rm.val rd 16
  | .fdivS rd rs1 rs2 rm la => encV la.val 6 rs2 rs1 rm.val rd 16
  | .fsqrtS rd rs1 rm la => encV la.val 7 0 rs1 rm.val rd 16
  | .fmaddS rd rs1 rs2 rs3 rm => encQ rs3 0 rs2 rs1 rm rd
  | .fmsubS rd rs1 rs2 rs3 rm => encQ rs3 1 rs2 rs1 rm rd
  | .fnmsubS rd rs1 rs2 rs3 rm => encQ rs3 2 rs2 rs1 rm rd
  | .fnmaddS rd rs1 rs2 rs3 rm => encQ rs3 3 rs2 rs1 rm rd
  | .csrrw rd rs1 csr => encI csr.val rs1 1 rd 28
  | .csrrs rd rs1 csr => encI csr.val rs1 2 rd 28
  | .csrrc rd rs1 csr => encI csr.val rs1 3 rd 28
  | .csrrwi rd u csr => encI csr.val u 5 rd 28
  | .csrrsi rd u csr => encI csr.val u 6 rd 28
  | .csrrci rd u csr => encI csr.val u 7 rd 28
  | .trap imm => encI imm.val 0 0 0 28
  | .eret => encI 256 0 0 0 28
  | .halt => encI 257 0 0 0 28
  | .brk => encI 258 0 0 0 28
  | .lb rd rs1 imm la => encLi la (ux 8 imm) rs1 0 rd 0
  | .lh rd rs1 imm la => encLi la (ux 8 imm) rs1 1 rd 0
  | .lw rd rs1 imm la => encLi la (ux 8 imm) rs1 2 rd 0
  | .ld rd rs1 imm la => encLi la (ux 8 imm) rs1 3 rd 0
  | .lbu rd rs1 imm la => encLi la (ux 8 imm) rs1 4 rd 0
  | .lhu rd rs1 imm la => encLi la (ux 8 imm) rs1 5 rd 0
  | .lwu rd rs1 imm la => encLi la (ux 8 imm) rs1 6 rd 0
  | .loadAcquire rd rs1 size sc la => encLi la (sc.code * 32 + size.val * 4) rs1 7 rd 0
  | .sb rs2 rs1 imm => encS (ux 12 imm) rs2 rs1 0 8
  | .sh rs2 rs1 imm => encS (ux 12 imm) rs2 rs1 1 8
  | .sw rs2 rs1 imm => encS (ux 12 imm) rs2 rs1 2 8
  | .sd rs2 rs1 imm => encS (ux 12 imm) rs2 rs1 3 8
  | .storeRelease rs2 rs1 size sc => encR (sc.code * 16 + size.val * 4) rs2 rs1 7 0 8
  | .vld vd rs1 imm la _ => encLi la (ux 8 imm) rs1 0 vd 1
  | .vldb vd rs1 imm la _ => encLi la (ux 8 imm) rs1 1 vd 1
  | .vlds vd rs1 rs2 la _ => encV la.val 0 rs2 rs1 2 vd 1
  | .vldg vd rs1 vs2 la _ => encV la.val 0 vs2 rs1 3 vd 1
  | .vst vs rs1 imm _ => encS (ux 12 imm) vs rs1 0 9
  | .vsts vs rs1 rs2 _ => encR 0 rs2 rs1 1 vs 9
  | .vstg vs rs1 vs2 _ => encR 0 vs2 rs1 2 vs 9
  | .ldfE rd rs1 imm la => encLi la (ux 8 imm) rs1 0 rd 2
  | .ldfF rd rs1 imm la => encLi la (ux 8 imm) rs1 1 rd 2
  | .ste rs2 rs1 imm => encS (ux 12 imm) rs2 rs1 2 2
  | .stf rs2 rs1 imm => encS (ux 12 imm) rs2 rs1 3 2
  | .fetag rd rs1 imm => encLi 0 (ux 8 imm) rs1 4 rd 2
  | .fsetE rs1 imm => encS (ux 12 imm) 0 rs1 5 2
  | .fsetF rs1 imm => encS (ux 12 imm) 0 rs1 6 2
  | .amoswap rd rs1 dbl aq rl sc la => encA la 0 dbl aq rl rs1 sc rd
  | .amoadd rd rs1 dbl aq rl sc la => encA la 1 dbl aq rl rs1 sc rd
  | .amoand rd rs1 dbl aq rl sc la => encA la 2 dbl aq rl rs1 sc rd
  | .amoor rd rs1 dbl aq rl sc la => encA la 3 dbl aq rl rs1 sc rd
  | .amoxor rd rs1 dbl aq rl sc la => encA la 4 dbl aq rl rs1 sc rd
  | .amomin rd rs1 dbl aq rl sc la => encA la 5 dbl aq rl rs1 sc rd
  | .amomax rd rs1 dbl aq rl sc la => encA la 6 dbl aq rl rs1 sc rd
  | .amominu rd rs1 dbl aq rl sc la => encA la 7 dbl aq rl rs1 sc rd
  | .amomaxu rd rs1 dbl aq rl sc la => encA la 8 dbl aq rl rs1 sc rd
  | .amofadd rd rs1 aq rl sc la => encA la 9 false aq rl rs1 sc rd
  | .amocas rd rs1 dbl aq rl sc la => encA la 10 dbl aq rl rs1 sc rd
  | .lr rd rs1 dbl aq sc la => encA la 11 dbl aq false rs1 sc rd
  | .sc rd rs1 dbl rl sc la => encA la 12 dbl false rl rs1 sc rd
  | .redadd rs2 rs1 dbl => encR (b2n dbl * 16 + 1) rs2 rs1 7 0 11
  | .redand rs2 rs1 dbl => encR (b2n dbl * 16 + 2) rs2 rs1 7 0 11
  | .redor rs2 rs1 dbl => encR (b2n dbl * 16 + 3) rs2 rs1 7 0 11
  | .redxor rs2 rs1 dbl => encR (b2n dbl * 16 + 4) rs2 rs1 7 0 11
  | .redmin rs2 rs1 dbl => encR (b2n dbl * 16 + 5) rs2 rs1 7 0 11
  | .redmax rs2 rs1 dbl => encR (b2n dbl * 16 + 6) rs2 rs1 7 0 11
  | .redminu rs2 rs1 dbl => encR (b2n dbl * 16 + 7) rs2 rs1 7 0 11
  | .redmaxu rs2 rs1 dbl => encR (b2n dbl * 16 + 8) rs2 rs1 7 0 11
  | .redfadd rs2 rs1 => encR 9 rs2 rs1 7 0 11
  | .fence pred succ sc => pred.val * 2 ^ 24 + succ.val * 2 ^ 16 + sc.code * 2 ^ 7 + 15
  | .ifence => 4111
  | .codeinv rs1 rs2 sc => rs2.val * 2 ^ 20 + rs1.val * 2 ^ 15 + 2 * 2 ^ 12 + sc.code * 2 ^ 7 + 15
  | .ipref rs2 rs1 => encR 0 rs2 rs1 3 0 3
  | .dpref rs1 imm => encI (ux 12 imm) rs1 4 0 3
  | .tlblog rd rs1 rs2 die => encR die.val rs2 rs1 5 rd 3
  | .tlblogw rd rs1 rs2 die => encR (8 + die.val) rs2 rs1 5 rd 3
  | .vadd vd vs1 src2 x ty _ => encV 0 (b2n x) src2 vs1 ty.code vd 18
  | .vsub vd vs1 src2 x ty _ => encV 1 (b2n x) src2 vs1 ty.code vd 18
  | .vmul vd vs1 src2 x ty _ => encV 2 (b2n x) src2 vs1 ty.code vd 18
  | .vmulh vd vs1 src2 x ty _ => encV 3 (b2n x) src2 vs1 ty.code vd 18
  | .vmin vd vs1 src2 x ty _ => encV 4 (b2n x) src2 vs1 ty.code vd 18
  | .vmax vd vs1 src2 x ty _ => encV 5 (b2n x) src2 vs1 ty.code vd 18
  | .vand vd vs1 src2 x ty _ => encV 6 (b2n x) src2 vs1 ty.code vd 18
  | .vor vd vs1 src2 x ty _ => encV 7 (b2n x) src2 vs1 ty.code vd 18
  | .vxor vd vs1 src2 x ty _ => encV 8 (b2n x) src2 vs1 ty.code vd 18
  | .vsll vd vs1 src2 x ty _ => encV 9 (b2n x) src2 vs1 ty.code vd 18
  | .vsr vd vs1 src2 x ty _ => encV 10 (b2n x) src2 vs1 ty.code vd 18
  | .vabsd vd vs1 src2 x ty _ => encV 11 (b2n x) src2 vs1 ty.code vd 18
  | .vfadd vd vs1 src2 x ty _ => encV 0 (b2n x) src2 vs1 ty.code vd 19
  | .vfsub vd vs1 src2 x ty _ => encV 1 (b2n x) src2 vs1 ty.code vd 19
  | .vfmul vd vs1 src2 x ty _ => encV 2 (b2n x) src2 vs1 ty.code vd 19
  | .vfmin vd vs1 src2 x ty _ => encV 3 (b2n x) src2 vs1 ty.code vd 19
  | .vfmax vd vs1 src2 x ty _ => encV 4 (b2n x) src2 vs1 ty.code vd 19
  | .vfma vd vs1 src2 x ty _ => encV 5 (b2n x) src2 vs1 ty.code vd 19
  | .vfms vd vs1 src2 x ty _ => encV 6 (b2n x) src2 vs1 ty.code vd 19
  | .vfnma vd vs1 src2 x ty _ => encV 7 (b2n x) src2 vs1 ty.code vd 19
  | .vfabs vd vs1 ty _ => encV 8 0 0 vs1 ty.code vd 19
  | .vfneg vd vs1 ty _ => encV 9 0 0 vs1 ty.code vd 19
  | .vscacc vd vs1 vs2 _ => encV 10 0 vs2 vs1 0 vd 19
  | .vfdivF32 vd vs1 vs2 la _ => encV la.val 0 vs2 vs1 7 vd 19
  | .vfsqrtF32 vd vs1 la _ => encV la.val 1 0 vs1 7 vd 19
  | .vfdivBf16 vd vs1 vs2 la _ => encV la.val 2 vs2 vs1 7 vd 19
  | .vfsqrtBf16 vd vs1 la _ => encV la.val 3 0 vs1 7 vd 19
  | .vfdivF16 vd vs1 vs2 la _ => encV la.val 4 vs2 vs1 7 vd 19
  | .vfsqrtF16 vd vs1 la _ => encV la.val 5 0 vs1 7 vd 19
  | .vexp2 vd vs1 la _ => encV la.val 0 0 vs1 7 vd 20
  | .vlog2 vd vs1 la _ => encV la.val 1 0 vs1 7 vd 20
  | .vrcp vd vs1 la _ => encV la.val 2 0 vs1 7 vd 20
  | .vrsqrt vd vs1 la _ => encV la.val 3 0 vs1 7 vd 20
  | .vsqrt vd vs1 la _ => encV la.val 4 0 vs1 7 vd 20
  | .vtanh vd vs1 la _ => encV la.val 5 0 vs1 7 vd 20
  | .vsin vd vs1 la _ => encV la.val 6 0 vs1 7 vd 20
  | .vcos vd vs1 la _ => encV la.val 7 0 vs1 7 vd 20
  | .vcvt vd vs1 dst src part _ => dst.code * 2 ^ 28 + part.val * 2 ^ 25 + src.code * 2 ^ 20 + vs1.val * 2 ^ 15 + vd.val * 2 ^ 7 + 20 * 4 + 3
  | .vtrans vd vs1 _ => encV 0 0 0 vs1 1 vd 20
  | .vperm vd vs1 vs2 _ => encV 1 0 vs2 vs1 1 vd 20
  | .vslideC vd vs1 xs _ => encV 2 0 xs vs1 1 vd 20
  | .vslideR vd vs1 xs _ => encV 3 0 xs vs1 1 vd 20
  | .vbcastR vd vs1 xs _ => encV 4 0 xs vs1 1 vd 20
  | .vbcastC vd vs1 xs _ => encV 5 0 xs vs1 1 vd 20
  | .vredsum vd vs1 col fmt _ => 0 * 2 ^ 28 + b2n col * 2 ^ 24 + fmt.code * 2 ^ 20 + vs1.val * 2 ^ 15 + 2 * 2 ^ 12 + vd.val * 2 ^ 7 + 20 * 4 + 3
  | .vredmin vd vs1 col fmt _ => 1 * 2 ^ 28 + b2n col * 2 ^ 24 + fmt.code * 2 ^ 20 + vs1.val * 2 ^ 15 + 2 * 2 ^ 12 + vd.val * 2 ^ 7 + 20 * 4 + 3
  | .vredmax vd vs1 col fmt _ => 2 * 2 ^ 28 + b2n col * 2 ^ 24 + fmt.code * 2 ^ 20 + vs1.val * 2 ^ 15 + 2 * 2 ^ 12 + vd.val * 2 ^ 7 + 20 * 4 + 3
  | .vrand vd _ => encV 0 0 0 0 3 vd 20
  | .vrandf vd _ => encV 1 0 0 0 3 vd 20
  | .vcmp xd vs1 vs2 cond fmt _ => encV (b2n fmt.isU * 8 + cond.code) fmt.code vs2 vs1 0 xd 21
  | .vsel vd vs1 vs2 _ => encV 0 0 vs2 vs1 1 vd 21
  | .vmv vd vs1 _ => encV 1 0 0 vs1 1 vd 21
  | .vgetx xd vs1 xs _ => encV 0 0 xs vs1 2 xd 21
  | .vsetx vd xa xs _ => encV 1 0 xs xa 2 vd 21
  | .vbcx vd xa _ => encV 2 0 0 xa 2 vd 21
  | .tshape rows cols _ => cols.val * 2 ^ 20 + rows.val * 2 ^ 15 + 3 * 2 ^ 12 + 21 * 4 + 3
  | .yield => encR 0 0 0 0 0 10
  | .suspend rs1 => encR 1 0 rs1 0 0 10
  | .exit => encR 2 0 0 0 0 10
  | .join rs1 => encR 3 0 rs1 0 0 10
  | .spawnl rd rs1 rs2 => encR 4 rs2 rs1 0 rd 10
  | .gang => encR 5 0 0 0 0 10
  | .ungang => encR 6 0 0 0 0 10
  | .fork xs xj off => encI (ux 12 off) xj 1 xs 10
  | .spawn rs1 prio => encI prio.val rs1 2 0 10
  | .spawnN rs1 prio => encI (4 + prio.val) rs1 2 0 10
  | .send rd rs1 rs2 n sc => encR (sc.code * 16 + n.val) rs2 rs1 0 rd 15
  | .sendp rd rs1 rs2 n sc => encR (sc.code * 16 + 8 + n.val) rs2 rs1 0 rd 15
  | .tagen rd rs1 => encR 0 0 rs1 1 rd 15
  | .tagdis rd rs1 => encR 1 0 rs1 1 rd 15
  | .tagset rd rs1 => encR 2 0 rs1 1 rd 15
  | .tagclr rd rs1 => encR 3 0 rs1 1 rd 15
  | .tagq rd rs1 => encR 4 0 rs1 1 rd 15
  | .tagw rs1 rs2 xc => encR 5 rs2 rs1 1 xc 15
  | .wait rs1 grp => encI grp.val rs1 2 0 15
  | .bara d => encI (0 * 64 + d.val) 0 3 0 15
  | .barw d => encI (1 * 64 + d.val) 0 3 0 15
  | .bar d => encI (2 * 64 + d.val) 0 3 0 15
  | .give rs1 cnt => encI cnt.val rs1 0 0 22
  | .take rs1 cnt => encI cnt.val rs1 1 0 22
  | .mlease rs1 => encR 0 0 rs1 2 0 22
  | .mfree => encR 1 0 0 2 0 22
  | .cdopen rd rs1 => encR 2 0 rs1 2 rd 22
  | .cdclose => encR 3 0 0 2 0 22
  | .cdabort => encR 4 0 0 2 0 22
  | .qstat rd p => encI p.val 0 3 rd 22
  | .mxZero _ _ _ => 0
  | .mxLdb _ _ => 0
  | .mxGatha _ _ _ _ => 0
  | .mxDensa _ _ => 0
  | .mxCsrb _ _ _ _ _ _ _ _ => 0
  | .mxRun _ _ _ _ _ _ _ => 0
  | .mxDrain _ _ => 0
  | .mxStat _ _ _ _ => 0
  | .cpG2s _ _ _ => 0
  | .cpS2g _ _ _ => 0
  | .cpS2s _ _ _ _ _ _ => 0
  | .cp2d _ _ _ _ _ _ _ => 0
  | .cpGath _ _ _ _ _ _ => 0
  | .cpRget _ _ _ _ _ => 0
  | .cpRput _ _ _ _ _ => 0
  | .cpRred _ _ _ _ _ _ _ => 0
  | .cpCk _ _ _ _ => 0
  | .cpNop _ => 0
  | .hgCount _ _ _ _ => 0
  | .hgLatch _ _ _ _ _ _ _ _ => 0
  | .hgClear _ => 0
  | .bdGath _ _ _ _ _ _ _ _ => 0
  | .bdRed _ _ _ _ _ _ _ _ _ _ => 0
  | .bdCvt _ _ _ _ _ _ _ _ _ => 0
  | .bdCopy _ _ _ _ _ => 0
  | .nodeComplete _ _ => 0
  | .mxTurnStart _ => 0
  | .mxTurnTimeout _ => 0
  | .taskPick _ => 0
  | .steal _ => 0
  | .coreSleepTimeout _ => 0
  | .fifoAging _ => 0
  | .messageArrival _ _ => 0
  | .inboxHeldAction _ => 0
  | .niResend _ _ => 0
  | .remoteWordAccess _ => 0
  | .trapAsync _ => 0
  | .laResultArrive _ _ => 0
  | .pageWalk _ _ _ => 0
  | .ilApply _ => 0
  | .scbDrainTimeout _ => 0
  | .rpAgedWriteback _ => 0
  | .remoteTxnFail _ _ => 0
  | .rfmComplete _ _ => 0
  | .refreshWindowEnd => 0
  | .hbmScrub _ _ => 0
  | .ceFilterClear => 0
  | .fabricTxnArrive _ => 0
  | .fabricAckReceive _ => 0
  | .mapNackReceive _ _ => 0
  | .rotorSlotBoundary _ _ => 0
  | .wlRetrainDone _ _ _ => 0
  | .fabricResendTimeout _ => 0
  | .mapPrepare _ _ _ => 0
  | .mapCommit _ => 0
  | .dieLossVerdict _ => 0
  | .voteTimeout _ => 0
  | .cdRollback _ _ => 0
  | .barNotifyArrive _ _ => 0
  | .hqDoorbell _ _ => 0
  | .hqctlWrite _ _ => 0
  | .packetRead _ => 0
  | .pktNop _ => 0
  | .pktLaunch _ => 0
  | .pktCopy _ => 0
  | .pktSignal _ => 0
  | .pktWait _ => 0
  | .pktWaitPoll _ => 0
  | .moduleLoad _ => 0
  | .moduleUnload _ => 0
  | .barnStart _ => 0
  | .barnComplete _ _ => 0
  | .preemptBatch _ => 0
  | .preemptForce _ => 0
  | .preemptResume _ => 0
  | .hangDetect _ => 0
  | .paddockWrite _ _ => 0
  | .barrierDescriptorWrite _ _ _ => 0
  | .vmrootWrite _ _ => 0
  | .spcfgWrite _ _ => 0
  | .splitChangeComplete _ => 0
  | .migcfgFlush _ => 0
  | .l2cfgWrite _ _ => 0
  | .keycmdNone _ => 0
  | .keycmdLoad _ => 0
  | .keycmdErase _ => 0
  | .ivsetWrite _ => 0
  | .pvsetWrite _ => 0
  | .ygsetWrite _ => 0
  | .hdmcfgWrite _ => 0
  | .dbgresumeGo _ => 0
  | .registerWrite _ _ _ _ => 0
  | .traceSample _ => 0
  | .lifetimeUpdate => 0
  | .ckptIntervalUpdate => 0
  | .powerCapStep _ => 0
  | .thermalShutdown => 0
  | .coldReset _ => 0
  | .coreReset _ => 0
  | .fwMailboxLoad _ => 0
  | .enterFullService => 0
  | .illegalInstruction _ _ => 0
  | .fetchFault _ _ => 0
  | .l2ResizeComplete _ => 0
  | .keyCommandComplete => 0
  | .electricalPortDown _ => 0
  | .electricalPortUp _ => 0
  | .flitCheckFailure _ _ _ => 0
  | .fibreLoss _ _ => 0
  | .planeLoss _ => 0
  | .moduleLossVerdict _ => 0
  | .serviceProcessorFailure _ => 0
  | .dieFailure _ => 0
  | .linkTrainingDone => 0
  | .hbmTrainingDone => 0
  | .dieSelfTestDone => 0
  | .hostMemoryAccess _ _ _ _ => 0
  | .hostSnoop _ _ _ _ _ => 0
  | .clockStepUp _ => 0

/-- The words of an instruction: its prefix word, if it has one, and its base word. -/
def encode (i : Instr) : List Nat :=
  match i.pfx? with
  | some p => [encPfx p, encWord i]
  | none => [encWord i]

end

end Sys2Proof
end

