-- ==== Sys2Proof/Config.lean ====
section
/-!
DEFINITION. What one module fixes and the spec leaves open: free values, each an opaque constant with no body, so that
no proof can see a value of it. A statement that holds of the model holds whatever they are.
-/

namespace Sys2Proof.Config

/-- Which of the free node ids a port allocates (15 R343: not architectural), from the counter State.free. Log 8. -/
opaque nodeChoice : Nat → Nat

/-- The two uniform draws of a core's steal generator (08 R172), from the counter State.free. Log 8; log 11, DESIGN CHOICE,
safe. -/
opaque stealDraw : Nat → Nat

/-- A byte of a line read under another key pair or tweak than the ones that wrote it (02 R42, R44: an unpredictable value): the
pair and tweak that wrote the line, those that read, the address and the stored byte. Log 12, DESIGN CHOICE, safe. -/
opaque wrongKey : Nat → Nat → Nat → Nat → Byte

/-- The raw choice a special function makes for an input (13 R300: a fixed function of the input alone, within a bound): the
function's number and the input's bits. The model confines it to what the bound allows. Log 9, DESIGN CHOICE, safe. -/
opaque special : Nat → Nat → Nat

/-- The set of a die's data L2 that a line belongs to (04 R83 gives no function), from the number of sets and the line. Log
18, DESIGN CHOICE, safe. -/
opaque l2Set : Nat → Nat → Nat

/-- Which line leaves a full set of a data L2 (04 R83 gives no rule), from the counter State.free. Log 18, DESIGN CHOICE, safe. -/
opaque l2Victim : Nat → Nat

/-- The issue cycles that a fetch loses to a cache level (04 R92; no latency is given), from the counter State.free. Log 120,
DESIGN CHOICE, safe. -/
opaque lostCycles : Nat → Nat

/-- The syndrome of a corrected error (05 R108 gives the field and no code). Log 17, DESIGN CHOICE, unsafe. -/
opaque syndrome : Nat → Nat

/-- A dword the spec calls not architectural or unpredictable, from the counter State.free. Log 8, DESIGN CHOICE, safe. -/
opaque word : Nat → Word

/-- A choice of two that the spec leaves open (the word or the translation from before a change or from after it, a peer's
spare, a reservation at another module), from the counter State.free. Log 8, DESIGN CHOICE, safe. -/
opaque coin : Nat → Bool

end Sys2Proof.Config
end

