-- ==== Sys2Proof/Machine/Num.lean ====
section
/-!
DEFINITION. Numbers and their formats (12): values exact as a signed dyadic with a sticky bit, round_f, cvt_int, the
IEEE operations of the scalar and tile units, term counts, and the combine step of atomics and reductions.
-/

namespace Sys2Proof.Machine

open Sys2Proof

/-- Width of the fraction field (12 R267). -/
def fracBits : Fmt → Nat
  | .f32 => 23 | .bf16 => 7 | .f16 => 10 | .e4m3 => 3 | .e5m2 => 2 | .e3m2 => 2 | .e2m3 => 3 | .e2m1 => 1 | _ => 0

/-- Exponent bias (12 R267). -/
def bias : Fmt → Nat
  | .f32 => 127 | .bf16 => 127 | .f16 => 15 | .e4m3 => 7 | .e5m2 => 15 | .e3m2 => 3 | .e2m3 => 1 | .e2m1 => 1 | _ => 0

/-- Magnitude code of the largest finite value (12 R267). -/
def maxCode : Fmt → Nat
  | .f32 => 0x7F7FFFFF | .bf16 => 0x7F7F | .f16 => 0x7BFF | .e4m3 => 0x7E | .e5m2 => 0x7B | .e3m2 => 0x1F
  | .e2m3 => 0x1F | .e2m1 => 7 | _ => 0

/-- Whether a floating format has infinities (12 R267). -/
def hasInf : Fmt → Bool
  | .f32 => true | .bf16 => true | .f16 => true | .e5m2 => true | _ => false

/-- Whether a floating format has NaNs (12 R267). -/
def hasNan : Fmt → Bool
  | .f32 => true | .bf16 => true | .f16 => true | .e4m3 => true | .e5m2 => true | _ => false

/-- Magnitude code of infinity, one above the largest finite code (12 R267). -/
def infCode (f : Fmt) : Nat := maxCode f + 1

/-- The canonical NaN (12 R268). -/
def nanCode : Fmt → Nat
  | .f32 => 0x7FC00000 | .bf16 => 0x7FC0 | .f16 => 0x7E00 | .e4m3 => 0x7F | .e5m2 => 0x7E | _ => 0

/-- Whether a format is floating (12 R267). -/
def isFloat : Fmt → Bool
  | .f32 => true | .bf16 => true | .f16 => true | .e4m3 => true | .e5m2 => true | .e3m2 => true | .e2m3 => true
  | .e2m1 => true | _ => false

/-- Whether an integer format is signed (12 R265). -/
def isSigned : Fmt → Bool
  | .i32 => true | .i16 => true | .i8 => true | .i4 => true | _ => false

/-- An exact number: a NaN (true when it reports invalid), an infinity, or a sign, a significand m, an exponent e and
a sticky bit: the magnitude is m * 2^e, or lies strictly between that and (m + 1) * 2^e when the sticky bit is set. -/
inductive Exact where
  | nan (inv : Bool)
  | inf (s : Bool)
  | fin (s : Bool) (m : Nat) (e : Int) (st : Bool)
  deriving DecidableEq, Repr

/-- The number an encoding of a floating format stands for (12 R268). -/
def decodeF (f : Fmt) (v : Nat) : Exact :=
  let w := f.width
  let v := v % 2 ^ w
  let s := bit v (w - 1)
  let mag := v % 2 ^ (w - 1)
  let m := fracBits f
  if hasInf f && mag == infCode f then .inf s
  else if hasNan f && decide (maxCode f < mag) then
    .nan (decide (16 ≤ w) && !(bit mag (m - 1)))
  else
    let e := mag / 2 ^ m
    let fr := mag % 2 ^ m
    if e = 0 then .fin s fr (1 - (bias f : Int) - m) false
    else .fin s (2 ^ m + fr) ((e : Int) - bias f - m) false

/-- The exact number of an integer (12 R276). -/
def ofInt (i : Int) : Exact := .fin (decide (i < 0)) i.natAbs 0 false

/-- The integer an element of an integer format stands for (12 R265). -/
def decodeI (f : Fmt) (v : Nat) : Int := if isSigned f then sx f.width v else ((v % 2 ^ f.width : Nat) : Int)

/-- The exact number of an element of any format. -/
def decodeNum (f : Fmt) (v : Nat) : Exact := if isFloat f then decodeF f v else ofInt (decodeI f v)

/-- Rounds a magnitude to a multiple of 2^q: the multiple, and whether it differs (12 R270, R271). Modes are coded as
09 R194; u is the draw of SR. -/
def roundAt (s : Bool) (m : Nat) (e : Int) (st : Bool) (q : Int) (mode u : Nat) : Nat × Bool :=
  if q ≤ e then (m * 2 ^ (e - q).toNat, st)
  else
    let k := (q - e).toNat
    let lo := m / 2 ^ k
    let rem := m % 2 ^ k
    let exact := rem == 0 && !st
    let half := 2 ^ (k - 1)
    let above := decide (half < rem) || (rem == half && st)
    let tie := rem == half && !st
    let up :=
      if exact then false
      else if mode = 0 then above || (tie && lo % 2 == 1)
      else if mode = 1 then false
      else if mode = 2 then s
      else if mode = 3 then !s
      else if mode = 4 then above || tie
      else if mode = 5 then lo % 2 == 0
      else if mode = 6 then decide (2 ^ 24 ≤ rem * 2 ^ 24 / 2 ^ k + u % 2 ^ 24)
      else false
    (if up then lo + 1 else lo, !exact)

/-- Bits of a report, in the order of FCSR (10 R228, 12 R273): inexact, underflow, overflow, division by zero, invalid. -/
def flagNX : Nat := 1
/-- Underflow. -/
def flagUF : Nat := 2
/-- Overflow. -/
def flagOF : Nat := 4
/-- Division by zero. -/
def flagDZ : Nat := 8
/-- Invalid. -/
def flagNV : Nat := 16

/-- Sets a sign bit beside a magnitude code. -/
def withSign (f : Fmt) (s : Bool) (mag : Nat) : Nat := (if s then 2 ^ (f.width - 1) else 0) + mag

/-- overflow_result (12 R272). -/
def overflowResult (s : Bool) (f : Fmt) (mode : Nat) (sat : Bool) : Nat :=
  let big := withSign f s (maxCode f)
  let inf := withSign f s (infCode f)
  if !(hasInf f) || sat then big
  else if mode = 1 ∨ mode = 5 then big
  else if mode = 2 then (if s then inf else big)
  else if mode = 3 then (if s then big else inf)
  else inf

/-- round_f (12 R270 to R273): the encoding and the conditions reported. -/
def roundF (x : Exact) (f : Fmt) (mode : Nat) (sat : Bool) (u : Nat) : Nat × Nat :=
  match x with
  | .nan inv => (if hasNan f then nanCode f else 0, if inv || !(hasNan f) then flagNV else 0)
  | .inf s =>
    if hasInf f && !sat then (withSign f s (infCode f), 0)
    else (withSign f s (maxCode f), if hasInf f then 0 else flagNV)
  | .fin s m e st =>
    if m = 0 ∧ st = false then (withSign f s 0, 0)
    else
      let top : Int := (Nat.log2 m : Int) + e
      let low : Int := 1 - (bias f : Int)
      let ex := if top < low then low else top
      let r := roundAt s m e st (ex - fracBits f) mode u
      let mag := (ex + bias f - 1).toNat * 2 ^ fracBits f + r.1
      let uf := if r.2 && decide (mag < 2 ^ fracBits f) then flagUF else 0
      if maxCode f < mag then (overflowResult s f mode sat, flagOF + flagNX + uf)
      else (withSign f s mag, (if r.2 then flagNX else 0) + uf)

/-- Rounds a number to an integer (12 R270 with q = 1). -/
def roundInt (s : Bool) (m : Nat) (e : Int) (st : Bool) (mode u : Nat) : Int × Bool :=
  let r := roundAt s m e st 0 mode u
  (if s then -(r.1 : Int) else (r.1 : Int), r.2)

/-- Smallest and largest value of an n-bit integer format (12 R265). -/
def intRange (n : Nat) (signed : Bool) : Int × Int :=
  if signed then (-(2 ^ (n - 1) : Nat), (2 ^ (n - 1) : Nat) - 1) else (0, (2 ^ n : Nat) - 1)

/-- cvt_int (12 R275): the value and the conditions reported. -/
def cvtInt (x : Exact) (n : Nat) (signed : Bool) (mode u : Nat) : Int × Nat :=
  let rg := intRange n signed
  match x with
  | .nan _ => (0, flagNV)
  | .inf s => (if s then rg.1 else rg.2, flagNV)
  | .fin s m e st =>
    let r := roundInt s m e st mode u
    if r.1 < rg.1 then (rg.1, flagNV)
    else if rg.2 < r.1 then (rg.2, flagNV)
    else (r.1, if r.2 then flagNX else 0)

/-- An integer into an n-bit integer format (12 R276): wraps, or takes the nearer end and reports overflow. -/
def narrowInt (i : Int) (n : Nat) (signed sat : Bool) : Int × Nat :=
  let rg := intRange n signed
  if sat then (if i < rg.1 then (rg.1, flagOF) else if rg.2 < i then (rg.2, flagOF) else (i, 0)) else (i, 0)

/-- The sign of a zero sum (10 R229): mode RDN gives −0 for opposite signs. -/
def zeroSign (a b : Bool) (mode : Nat) : Bool := if a == b then a else mode == 2

/-- A sum, exact when neither addend is sticky (10 R229, R230). -/
def addNum (x y : Exact) (mode : Nat) : Exact :=
  match x, y with
  | .nan a, .nan b => .nan (a || b)
  | .nan a, _ => .nan a
  | _, .nan b => .nan b
  | .inf a, .inf b => if a == b then .inf a else .nan true
  | .inf a, _ => .inf a
  | _, .inf b => .inf b
  | .fin a m e st, .fin b n d su =>
    let q := if e < d then e else d
    let mi : Int := m * 2 ^ (e - q).toNat
    let ni : Int := n * 2 ^ (d - q).toNat
    let t := (if a then -mi else mi) + (if b then -ni else ni)
    if t = 0 then .fin (zeroSign a b mode) 0 0 false
    else .fin (decide (t < 0)) t.natAbs q (st || su)

/-- The negation of a number. -/
def negNum : Exact → Exact
  | .nan a => .nan a | .inf s => .inf (!s) | .fin s m e st => .fin (!s) m e st

/-- A product, exact (10 R230). -/
def mulNum (x y : Exact) : Exact :=
  match x, y with
  | .nan a, .nan b => .nan (a || b)
  | .nan a, _ => .nan a
  | _, .nan b => .nan b
  | .inf a, .inf b => .inf (a != b)
  | .inf a, .fin b n _ _ => if n = 0 then .nan true else .inf (a != b)
  | .fin a m _ _, .inf b => if m = 0 then .nan true else .inf (a != b)
  | .fin a m e _, .fin b n d _ => .fin (a != b) (m * n) (e + d) false

/-- x * y + z (10 R234): 0 * inf is invalid even when z is a quiet NaN. -/
def fmaNum (x y z : Exact) (mode : Nat) : Exact := addNum (mulNum x y) z mode

/-- A quotient to 64 significant bits and a sticky bit, and whether it divided by zero (10 R235). -/
def divNum (x y : Exact) : Exact × Bool :=
  match x, y with
  | .nan a, .nan b => (.nan (a || b), false)
  | .nan a, _ => (.nan a, false)
  | _, .nan b => (.nan b, false)
  | .inf _, .inf _ => (.nan true, false)
  | .inf a, .fin b _ _ _ => (.inf (a != b), false)
  | .fin a _ _ _, .inf b => (.fin (a != b) 0 0 false, false)
  | .fin a m e _, .fin b n d _ =>
    if n = 0 then (if m = 0 then (.nan true, false) else (.inf (a != b), true))
    else
      let k : Nat := 64 + Nat.log2 n
      (.fin (a != b) (m * 2 ^ k / n) (e - d - k) (m * 2 ^ k % n != 0), false)

/-- Integer square root of n by Newton steps under fuel. -/
def isqrtGo : Nat → Nat → Nat → Nat
  | 0, _, r => r
  | k + 1, n, r => let r2 := (r + n / r) / 2; if r2 < r then isqrtGo k n r2 else r

/-- The integer square root. -/
def isqrt (n : Nat) : Nat := if n = 0 then 0 else isqrtGo (Nat.log2 n + 2) n (2 ^ (Nat.log2 n / 2 + 1))

/-- A square root to at least 64 significant bits and a sticky bit (10 R235). -/
def sqrtNum (x : Exact) : Exact :=
  match x with
  | .nan a => .nan a
  | .inf s => if s then .nan true else .inf false
  | .fin s m e _ =>
    if m = 0 then .fin s 0 0 false
    else if s then .nan true
    else
      let k : Nat := if e % 2 = 0 then 128 else 129
      let n := m * 2 ^ k
      let r := isqrt n
      .fin false r ((e - k) / 2) (r * r != n)

/-- Compares two numbers that are no NaN, −0 equal to +0: negative, zero or positive. -/
def cmpNum (x y : Exact) : Int :=
  match x, y with
  | .inf a, .inf b => if a == b then 0 else if a then -1 else 1
  | .inf a, _ => if a then -1 else 1
  | _, .inf b => if b then 1 else -1
  | .fin a m e _, .fin b n d _ =>
    let q := if e < d then e else d
    let mi : Int := m * 2 ^ (e - q).toNat
    let ni : Int := n * 2 ^ (d - q).toNat
    (if a then -mi else mi) - (if b then -ni else ni)
  | _, _ => 0

/-- Whether a number is a NaN. -/
def isNan : Exact → Bool
  | .nan _ => true | _ => false

/-- Whether an encoding is a NaN that signals (12 R268). -/
def isSnan (f : Fmt) (v : Nat) : Bool :=
  match decodeF f v with | .nan a => a | _ => false

/-- The sign bit of an encoding. -/
def signOf (f : Fmt) (v : Nat) : Bool := bit v (f.width - 1)

/-- Minimum or maximum of two encodings and the conditions reported (10 R231; 13 R297): −0 below +0, the other operand
when one is a NaN, the canonical NaN when both are. -/
def fminmax (f : Fmt) (max : Bool) (a b : Nat) : Nat × Nat :=
  let x := decodeF f a
  let y := decodeF f b
  let nv := if isSnan f a || isSnan f b then flagNV else 0
  if isNan x && isNan y then (nanCode f, nv)
  else if isNan x then (b % 2 ^ f.width, nv)
  else if isNan y then (a % 2 ^ f.width, nv)
  else
    let c := cmpNum x y
    let aLess := decide (c < 0) || (c == 0 && signOf f a && !(signOf f b))
    (if aLess != max then a % 2 ^ f.width else b % 2 ^ f.width, nv)

/-- The number of terms of a significand (12 R277). -/
def popc : Nat → Nat → Nat
  | 0, _ => 0
  | k + 1, v => v % 2 + popc k (v / 2)

/-- terms(u) (12 R277). -/
def terms (u : Nat) : Nat := popc 32 (((3 * u) ^^^ u) / 2)

/-- The largest term count of a format of the array (12 R278). -/
def maxTerms : Fmt → Nat
  | .e2m1 => 2 | .e3m2 => 2 | .e5m2 => 2 | .e2m3 => 3 | .e4m3 => 3 | .i4 => 2 | .i8 => 4 | .ui8 => 5 | .bf16 => 5
  | .f16 => 6 | _ => 0

/-- The term count of an element (12 R277, R278). -/
def termsOf (f : Fmt) (v : Nat) : Nat :=
  match decodeNum f v with
  | .fin _ m _ _ => terms m
  | _ => maxTerms f

/-- binary32 addition under RNE without flags: update-only reductions and amofadd (04 R79, 11 R256). -/
def fadd32 (a b : Nat) : Nat :=
  (roundF (addNum (decodeF .f32 a) (decodeF .f32 b) 0) .f32 0 false 0).1

/-- The combine column of 04 R79 on w-bit elements (11 R256, R258). -/
def combine (op : RedOp) (w old v : Nat) : Nat :=
  match op with
  | .add => (old + v) % 2 ^ w
  | .and => (old &&& v) % 2 ^ w
  | .or => (old ||| v) % 2 ^ w
  | .xor => (old ^^^ v) % 2 ^ w
  | .min => if sx w old ≤ sx w v then old % 2 ^ w else v % 2 ^ w
  | .max => if sx w v ≤ sx w old then old % 2 ^ w else v % 2 ^ w
  | .minu => if old % 2 ^ w ≤ v % 2 ^ w then old % 2 ^ w else v % 2 ^ w
  | .maxu => if v % 2 ^ w ≤ old % 2 ^ w then old % 2 ^ w else v % 2 ^ w
  | .fadd => fadd32 (old % 2 ^ 32) (v % 2 ^ 32)

/-- The identity of an operation (04 R79). -/
def identity (op : RedOp) (w : Nat) : Nat :=
  match op with
  | .add => 0 | .or => 0 | .xor => 0 | .maxu => 0
  | .and => 2 ^ w - 1 | .minu => 2 ^ w - 1
  | .min => 2 ^ (w - 1) - 1 | .max => 2 ^ (w - 1)
  | .fadd => 0x80000000

end Sys2Proof.Machine
end

