-- ==== Sys2Proof/Machine/State.lean ====
section
/-!
DEFINITION. The state of the whole module as plain data, the reasons a step can stop, and the module after reset.
Addresses of cores, clusters and dies: core = die*128 + cluster*8 + core in cluster, cluster = die*16 + cluster in die.
-/

namespace Sys2Proof.Machine

open Sys2Proof

/-- Why a step ends in a fault. -/
inductive Fault where
  /-- Raised by step for a schedule entry that names an agent that does not exist (a core above 1,023, a cluster above
  127, an event that is no event row). Safe: it stops the model where the module has nothing. -/
  | noAgent
  deriving DecidableEq, Repr

/-- Why an instruction is refused. -/
inductive Refusal where
  /-- Raised by exec for an instruction that has no meaning in the model yet. Safe. -/
  | notModelled (mnemonic : String)
  deriving DecidableEq, Repr

/-- What a core is doing (17 R409; 10 R242; 18 R419). -/
inductive Run where
  | running | idle | reserved | halted | stopped
  deriving DecidableEq, Repr

/-- A stall as the wait table shows it (17 R409), and the event that counts its lost cycles, or 0 (09 R201; 13 R317; 15 R370). -/
structure Stall where
  what : Nat
  operand : Word
  lost : Nat := 0
  deriving DecidableEq, Repr

/-- A migration context (18 R426, 08 R168). -/
structure MigCtx where
  regs : AList Word
  pc : Word
  gtid : Word
  ctl : Word
  joinw : Word
  trec : Word
  fcsr : Word
  tshape : Word
  rngkey : Word
  rngcnt : Word
  deriving DecidableEq, Repr

/-- An entry of a run queue: a slot address, the die cycle of its push, whether aging has moved it (08 R169, R173). -/
structure QEntry where
  slot : Word
  cyc : Nat
  promoted : Bool := false
  mig : Option MigCtx := none
  acq : Scope := .c
  deriving DecidableEq, Repr

/-- A push that the hardware still owes a run queue (08 R169), with what its trace record shows (22 R479). -/
structure HeldPush where
  queue : Nat
  src : Nat
  gtid : Word
  pc : Word
  entry : QEntry
  deriving DecidableEq, Repr

/-- A run queue: hardware entries and spill-ring entries, oldest first, and the ring's positions (08 R169, R170). -/
structure RunQ where
  hw : List QEntry := []
  ring : List QEntry := []
  rhead : Nat := 0
  deriving DecidableEq, Repr

/-- A message (08 R176, 16 R380). -/
structure Msg where
  tenant : Nat
  src : Nat
  mod : Nat
  core : Nat
  tag : Nat
  payload : List Word
  posted : Bool
  sup : Bool
  scope : Scope
  gen : Nat
  nacks : Nat
  held : Bool
  deriving DecidableEq, Repr

/-- A registration of wait: the tags named and the suspended record's slot (16 R385). -/
structure WaitReg where
  tags : List Nat
  slot : Word
  deriving DecidableEq, Repr

/-- An entry of an inbound link queue: the die cycle from which it can be popped, and its 64 slots (13 R311). -/
structure LinkEntry where
  avail : Nat
  tile : Tile
  deriving DecidableEq, Repr

/-- A queue port: the dwords of a partly pushed command and the unread return words (15 R343, R344). -/
structure Port where
  part : List Word := []
  ret : List Word := []
  deriving DecidableEq, Repr

/-- What has become of a window's result (09 R198, 18 R422). -/
inductive WinSt where
  | flying
  | waitTag (home off va : Nat)
  | waitTxn (id : Nat)
  | arrived
  | faulty (cause : Nat) (tval : Word)
  deriving DecidableEq, Repr

/-- An open lookahead window: the address of its instruction or prefix, instructions still to count, the pending
scalar and tile destinations, the values and flags that arrive, the fabric transactions that carry them with the data
address of each, and whether it is an acquire's (06 R126). -/
structure Window where
  pcw : Nat
  remain : Nat
  dx : List Nat
  dv : List Nat
  st : WinSt
  xval : List (Nat × Word)
  tval : List (Nat × Tile)
  flags : Nat
  txns : List (Nat × Nat)
  acq : Bool := false
  deriving DecidableEq, Repr

/-- An entry of the store combining buffer: a 128-byte line of the physical map, its kind and key, the HOME and tenant under
which it was stored, the bytes written, and the die cycle of its allocation (04 R85). -/
structure ScbEntry where
  line : Nat
  kind : Nat
  key : Nat
  home : Nat
  tenant : Nat
  bytes : AList Nat
  cyc : Nat
  deriving DecidableEq, Repr

/-- A cached translation: tenant, first 64 KiB page number, size code, and the leaf's fields (02 R35). -/
structure TlbEntry where
  tenant : Nat
  vpn : Nat
  size : Nat
  leaf : Word
  deriving DecidableEq, Repr

/-- A line of an instruction cache, with the 32 words it held when it was filled (04 R88). -/
structure CodeLine where
  line : Nat
  words : List Nat
  deriving DecidableEq, Repr

/-- A valid entry of the migration predictor (04 R75). -/
structure PredEntry where
  home : Nat
  count : Nat
  deriving DecidableEq, Repr

/-- An update-only copy: its copy-table entry, line, home, operation and element size, touched granules, and data by element
(04 R79). -/
structure UoCopy where
  idx : Nat
  line : Nat
  home : Nat
  key : Nat
  op : RedOp
  dbl : Bool
  touched : Nat
  data : AList Nat
  deriving DecidableEq, Repr

/-- A list of the sharer directory: a home line and the cores that hold copies (04 R79). -/
structure Sharers where
  line : Nat
  cores : List Nat
  deriving DecidableEq, Repr

/-- A line held in L1, with its state (04 R71, R72): clean, dirty, or an update-only copy with its copy-table entry. -/
structure L1Line where
  line : Nat
  dirty : Bool
  uo : Option Nat := none
  deriving DecidableEq, Repr

/-- A line held in a die's data L2 (04 R83). -/
structure L2Line where
  line : Nat
  dirty : Bool
  deriving DecidableEq, Repr

/-- A 64-byte line held in the host-line cache, and whether it is held exclusive (04 R87). -/
structure HostLine where
  line : Nat
  dirty : Bool
  excl : Bool
  deriving DecidableEq, Repr

/-- A reservation of lr: the line in the key space of locations, and the width (06 R134). -/
structure Resv where
  line : Nat
  dbl : Bool
  deriving DecidableEq, Repr

/-- Which full/empty operation waits (03 R65). -/
inductive FeOp where
  | ldfE | ldfF | ste
  deriving DecidableEq, Repr

/-- A full/empty waiter at the scratchpad that holds the word (03 R67); pops are the ports its operands pop. -/
structure Waiter where
  off : Nat
  who : Nat
  op : FeOp
  val : Word
  pcw : Nat
  va : Nat
  pops : List Nat := []
  deriving DecidableEq, Repr

/-- A pending engine trap: cause and node id (15 R350, 18 R418). -/
structure EngTrap where
  cause : Nat
  node : Nat
  deriving DecidableEq, Repr

/-- A store of a core that waits at a home whose split is changing (04 R73), or at a remote partition that is resized (04 R84).
-/
structure RemAcc where
  line : Nat
  kind : Nat
  key : Nat
  bytes : AList Nat
  who : Nat
  deriving DecidableEq, Repr

/-- The progress of a send or mlease that stalls its core (16 R381, R387). -/
inductive Req where
  | none | waiting | result (v : Nat)
  deriving DecidableEq, Repr

/-- One core. -/
structure CoreSt where
  regs : AList Word := []
  tiles : AList Tile := []
  pc : Word := 0
  status : Word := 1
  cause : Word := 0
  epc : Word := 0
  tval : Word := 0
  tvec : Word := 0
  sscratch : Word := 0
  law0 : Word := 0
  law1 : Word := 0
  law2 : Word := 0
  law3 : Word := 0
  dbgctl : Word := 0
  vmroot : Word := 0
  spcfg : Word := 4
  spNew : Nat := 0
  migcfg : Word := 1
  rqspill : Word := 0
  spillArea : Word := 0
  trec : Word := 0
  fcsr : Word := 0
  tshape : Word := 0x3F
  tileuse : Bool := false
  rngkey : Word := 0
  rngcnt : Word := 0
  cnt : AList Word := []
  evsel : AList Word := []
  trcbase : Word := 0
  trcctl : Word := 0
  trchead : Word := 0
  trcread : Word := 0
  trcLast : Nat := 0
  run : Run := .idle
  stall : Option Stall := none
  since : Nat := 0
  haveTask : Bool := false
  gtid : Word := 0
  ctl : Word := 0
  joinw : Word := 0
  member : Option Word := none
  memberSlot : Option Word := none
  picking : Bool := true
  seq : Nat := 0
  fifo0 : RunQ := {}
  fifo1 : RunQ := {}
  fifo2 : RunQ := {}
  deque : RunQ := {}
  hslots : AList Word := []
  pushes : List HeldPush := []
  tags : AList (Word × Word) := []
  seen : List Nat := []
  inbox : List Msg := []
  waits : List WaitReg := []
  links : AList (List LinkEntry) := []
  ports : AList Port := []
  windows : List Window := []
  redo : List Word := []
  ereting : Bool := false
  aborted : Bool := false
  scb : List ScbEntry := []
  resv : Option Resv := none
  l0 : List TlbEntry := []
  i0 : List CodeLine := []
  fbuf : AList Nat := []
  pred : AList PredEntry := []
  copies : List UoCopy := []
  sharers : List Sharers := []
  l1 : List L1Line := []
  sp : Memory := []
  full : List Nat := []
  owner : List Nat := []
  spBad : List Nat := []
  spPois : List Nat := []
  waiters : List Waiter := []
  nacked : List Waiter := []
  remq : List RemAcc := []
  ganged : Bool := false
  gangCnt : Nat := 0
  gangWait : Nat := 0
  prevTiles : AList Tile := []
  trapQ : List EngTrap := []
  stepPend : Bool := false
  bkpPend : Bool := false
  hangPend : Option Word := none
  ovfPend : List Nat := []
  spillPend : Bool := false
  barArrived : Bool := false
  sendReq : Req := .none
  leaseReq : Req := .none
  steFault : Option (Nat × Word) := none
  sleepAt : Nat := 0
  waker : Option Nat := none
  barn : Option (Nat × Nat) := none
  badX : List Nat := []
  badT : List Nat := []
  fpDiv : Bool := false
  rpWait : Bool := false
  ilWait : Bool := false
  logSeq : Option Nat := none
  deriving DecidableEq, Repr

/-- State of a command's node (15 R347). -/
inductive NodeSt where
  | waiting | ready | launched
  deriving DecidableEq, Repr

/-- A node of the dependence graph (15 R347 to R352): beside its command and its pusher, its count, when it was
pushed (by the cluster's stamp and by its die's cycles) and became ready (by its die's cycles), its successors, the cause that cancelled it, whether its accesses
have been performed, its error, the tiles it names (core, tile), the modules its remote traffic goes to, its place in the
order of launches, whether its release has written back the remote partition, whether its tiles and successors have been served
(R350 steps 1 and 2), and the pages it translated. -/
structure Node where
  cmd : Instr
  port : Nat
  core : Nat
  gtid : Word
  dom : Nat
  tenant : Nat
  sup : Bool
  frm : Nat
  st : NodeSt
  count : Nat
  pushedAt : Nat
  pushCyc : Nat
  readyCyc : Nat := 0
  succs : List Nat
  cancel : Option Nat
  done : Bool
  err : Option Nat
  tiles : List (Nat × Nat)
  dsts : List Nat
  order : Nat
  rel : Bool := false
  given : Bool := false
  vpns : List Nat
  deriving DecidableEq, Repr

/-- A cell of an accumulator set (12 R280, R282, R283): the 96-bit sum in units of 2^-40, the FP32 accumulator, the
sticky bits, the bit "started at -0 and only -0 products so far", and poison. -/
structure Cell where
  acc : Int := 0
  fp : Nat := 0
  nan : Bool := false
  pinf : Bool := false
  ninf : Bool := false
  negz : Bool := false
  bad : Bool := false
  deriving DecidableEq, Repr

/-- An accumulator set: class (true is FP32), the cell of every place not listed, cells by 128*row + column, residue
registers by group, and the K total (14 R318, R336). -/
structure MxSet where
  fp32 : Bool := false
  start : Cell := {}
  cells : AList Cell := []
  residue : AList Nat := []
  ktotal : Nat := 0
  deriving DecidableEq, Repr

/-- A lease of the matrix array (14 R319 to R323): core, task, spill base, set, counters by their dword of R339,
whether the set is held in a physical set or has been spilled, and when its owner's last turn ended. -/
structure Lease where
  core : Nat
  gtid : Word
  sb : Nat
  set : MxSet := {}
  ctrs : AList Nat := []
  phys : Option Nat := none
  spilled : Bool := false
  lastEnd : Nat := 0
  deriving DecidableEq, Repr

/-- A task that waits in mlease (14 R321). -/
structure LeaseReq where
  core : Nat
  gtid : Word
  sb : Nat
  since : Nat
  deriving DecidableEq, Repr

/-- The running turn (14 R321). -/
structure Turn where
  core : Nat
  since : Nat
  launched : Nat
  ending : Bool := false
  deriving DecidableEq, Repr

/-- An operand latch bank (14 R325, R326): tag, elements by line, poisoned lines. -/
structure Latch where
  valid : Bool := false
  core : Nat := 0
  fmt : Fmt := .bf16
  lines : AList (AList Nat) := []
  bad : List Nat := []
  deriving DecidableEq, Repr

/-- A participant's barrier state at its NI (15 R368): epochs completed, whether it has arrived in the current one,
rounds already sent, and the received rounds of the current and the next epoch. -/
structure BarPart where
  epoch : Nat := 0
  arrived : Bool := false
  sent : Nat := 0
  got : List Nat := []
  gotNext : List Nat := []
  deriving DecidableEq, Repr

/-- A barrier descriptor and its participants on the cluster (15 R367). -/
structure BarSt where
  word : Word := 0
  parts : AList BarPart := []
  deriving DecidableEq, Repr

/-- A barrier notification in flight (15 R368). -/
structure Notify where
  desc : Nat
  epoch : Nat
  rnd : Nat
  dst : Nat
  src : Nat
  tenant : Nat
  gen : Nat
  nacks : Nat := 0
  deriving DecidableEq, Repr

/-- One cluster. -/
structure ClusterSt where
  nodes : AList Node := []
  stamp : Nat := 0
  evAt : Nat := 0
  leases : List Lease := []
  leaseReqs : List LeaseReq := []
  turn : Option Turn := none
  lastTurn : Nat := 7
  latches : AList Latch := []
  hcount : AList Nat := []
  outr : Nat := 0
  latch : AList Word := []
  bars : AList BarSt := []
  ctlb : List TlbEntry := []
  i1 : List CodeLine := []
  msgs : List Msg := []
  notes : List Notify := []
  diemap : AList Word := []
  mapgen : Nat := 0
  mapNext : AList Word := []
  lastTenant : Option Nat := none
  deriving DecidableEq, Repr

/-- A line of a die's remote partition (04 R86): its physical line, the bytes held, the dirty bytes, and the die cycle
of the oldest dirty byte. -/
structure RpLine where
  line : Nat
  key : Nat
  bytes : AList Nat
  dirty : List Nat
  cyc : Nat
  deriving DecidableEq, Repr

/-- A DRAM bank (05 R105, R106): the open row, tracked rows with counts, and victims still to be refreshed. -/
structure DramBank where
  row : Option Nat := none
  acts : List (Nat × Nat) := []
  victims : List Nat := []
  queued : Bool := false
  deriving DecidableEq, Repr

/-- One logical die. -/
structure DieSt where
  cyc : Nat := 0
  ilbase : Word := 0
  ilhead : Word := 0
  ildone : Word := 0
  l2cfg : Word := 0x1010
  dtlb : List TlbEntry := []
  i2 : List CodeLine := []
  l2 : List L2Line := []
  rp : List RpLine := []
  rpStores : List RemAcc := []
  cefilter : AList Nat := []
  cehist : AList Nat := []
  ceInj : List Nat := []
  ueInj : List Nat := []
  scrubbed : AList Nat := []
  mhz : Nat := 2100
  hot : Bool := false
  melt : Bool := false
  stepAt : Option Nat := none
  deriving DecidableEq, Repr

/-- A poisoned range of HBM lines: first line and end (02 R28, 05 R96, 20 R461). -/
structure LineRange where
  lo : Nat
  hi : Nat
  deriving DecidableEq, Repr

/-- A packet read from a host queue (17 R394, R395). -/
structure Packet where
  dws : List Word
  idx : Nat
  checked : Bool := false
  trap : Bool := false
  deriving DecidableEq, Repr

/-- A batch (17 R397 to R403): its launch's fields, the sequence number of its first barn, and the tag image. -/
structure Batch where
  q : Nat
  idx : Nat
  seq0 : Nat
  nbarn : Nat
  level : Nat
  team : Nat
  cpb : Nat
  aff : Nat
  entry : Word
  karg : Word
  db : Nat
  tagimg : AList (Word × Word)
  cw : Word
  modhdr : Word
  rslot : Word
  trap : Bool
  hdr : List Nat := []
  deriving DecidableEq, Repr

/-- Where a barn stands (17 R400 to R408). -/
inductive BarnSt where
  | resident | saved | complete
  deriving DecidableEq, Repr

/-- A started barn (17 R402, R403): queue, sequence number, its batch's first sequence number, die, clusters and
live tasks. -/
structure Barn where
  q : Nat
  seq : Nat
  seq0 : Nat
  tenant : Nat
  die : Nat
  clusters : List Nat
  live : Nat
  st : BarnSt := .resident
  deriving DecidableEq, Repr

/-- A host queue: its registers (17 R393), the packet read and not dispatched, packets not complete, a wait in
progress, signals, copies and unloads not complete, batches, the job's sequence numbers, the time of its last dispatch and of
its last hang (17 R410), and its host interrupts. -/
structure HostQ where
  base : Word := 0
  tail : Word := 0
  head : Word := 0
  ctl : Word := 0
  tvec : Word := 0
  dump : Word := 0
  cur : Option Packet := none
  open_ : List Nat := []
  waiting : Option (Word × Word) := none
  sigs : List (Nat × Word × Word) := []
  copies : List (Nat × Word × Option Nat) := []
  unloads : List (Nat × Word) := []
  batches : List Batch := []
  seqNext : Nat := 0
  started : Nat := 0
  reported : Nat := 0
  waitAt : Option Nat := none
  evAt : Nat := 0
  hungAt : Option Nat := none
  irq : Nat := 0
  deriving DecidableEq, Repr

/-- A saved cluster of a preempted tenant (17 R407). -/
structure SavedCluster where
  cl : Nat
  cores : List CoreSt
  cluster : ClusterSt
  deriving DecidableEq, Repr

/-- The save of a tenant (17 R407, R408). -/
structure Save where
  tenant : Nat
  clusters : List SavedCluster
  deriving DecidableEq, Repr

/-- A containment domain (20 R453): the entry's fields, the task that opened it, the cause of a detected error, and the
tasks created in it that have not ended. -/
structure Dom where
  state : Nat
  retries : Nat
  depth : Nat
  id : Nat
  parent : Nat
  dies : Nat
  origin : Nat
  root : Word
  opener : Word
  err : Option Nat := none
  live : Nat := 0
  deriving DecidableEq, Repr

/-- A registered code module (18 R428). -/
structure ModEntry where
  hdr : Word
  q : Nat
  code : Word
  len : Nat
  deriving DecidableEq, Repr

/-- What a fabric transaction does at its target (19 R433); amo is an atomic, lr or sc with its operation code of 11 R255,
its operand, and the new value of a compare and swap; pull reads n bytes and stores them here, at a reference of a kind,
address and key slot (kind 6 is a scratchpad byte). -/
inductive TxnOp where
  | fetch
  | pull (n kind pa key home : Nat) (fill : Bool)
  | write (bytes : AList Nat) (bad : List Nat := [])
  | red (op : RedOp) (dbl : Bool) (v : Nat)
  | amo (op : Nat) (dbl : Bool) (v new : Nat)
  | msg (m : Msg)
  | notify (n : Notify)
  deriving DecidableEq, Repr

/-- A fabric transaction (19 R433 to R440): source and destination module, stream (the source engine), its number in
the stream, what it does, its flits not yet sent, its path and planes, the node or core that awaits it with that core's task,
whether it has been performed and acknowledged, when it began to be blocked, and the module that relays it. -/
structure Txn where
  id : Nat
  src : Nat
  dst : Nat
  stream : Nat
  num : Nat
  tenant : Nat
  key : Nat
  addr : Nat
  op : TxnOp
  left : Nat
  path : Nat
  planes : Nat
  ack : Bool
  node : Option (Nat × Nat)
  core : Option Nat
  gen : Nat
  nacks : Nat
  performed : Bool
  relay : Option Nat
  since : Nat
  task : Option Word := none
  deriving DecidableEq, Repr

/-- A rotor plane: ROTCFG, its calendar, the values written for the next rotation, the current slot, whether it is lost, its
lost fibres, the peer that it links this module to in the slot and the flits it may still send in it, and the peers that the
other modules' calendars name, by 256 * slot + module (19 R435, R436, R439). -/
structure Plane where
  cfg : Word := 0x3F4001FFFF
  cal : AList Word := []
  cfgNext : Option Word := none
  calNext : AList Word := []
  slot : Nat := 0
  started : Bool := false
  lost : Bool := false
  fibresLost : List Nat := []
  link : Option Nat := none
  room : Nat := 0
  others : AList Nat := []
  deriving DecidableEq, Repr

/-- The lifetime store (21 R472, 22 R484): corrected errors by row, shadow divergences by unit, retrainings, thermal
cycles and hours at voltage. -/
structure Lifetime where
  ce : AList Nat := []
  shadow : AList Nat := []
  retrain : AList Nat := []
  thermal : AList Nat := []
  hours : AList Nat := []
  escalations : Nat := 0
  deriving DecidableEq, Repr

/-- Which agent moves. -/
inductive Agent where
  | core (c : Nat)
  | engine (cl node : Nat)
  | event (e : Instr)
  deriving DecidableEq, Repr

/-- One entry of the schedule: TIME and core cycles that pass before the move, and who moves. -/
structure Move where
  ns : Nat
  cyc : Nat
  who : Agent
  deriving DecidableEq, Repr

end Sys2Proof.Machine

namespace Sys2Proof.Machine

/-- The module. -/
structure State where
  sched : List Move := []
  cur : Nat := 0
  curNode : Option (Nat × Nat) := none
  free : Nat := 0
  time : Nat := 0
  cores : AList CoreSt := []
  clusters : AList ClusterSt := []
  dies : AList DieSt := []
  mem : Memory := []
  lineKey : AList Nat := []
  poison : List LineRange := []
  hostMem : Memory := []
  hlc : List HostLine := []
  remMem : Memory := []
  remBad : List Nat := []
  ivset : Word := 0
  pvset : Word := 0
  ygset : Word := 0
  hdmcfg : Word := 0
  plive : Nat := 0xFF
  pl : Nat := 8
  hbmcfg : Word := 2048
  hbmNext : Word := 2048
  ceRing : List (Word × Word) := []
  platstat : Word := 0
  live : List Nat := [0, 1, 2, 3, 4, 5, 6, 7]
  votecfg : Word := 0x3F21
  ckptcfg : Word := 0
  relaycfg : Word := 0x8000001000000000
  wlthr : Word := 4096
  hangcfg : Word := 10000
  preempt : Word := 0
  bkphit : Word := 0
  keydata : AList Word := []
  keycmd : Word := 0
  keyOp : Nat := 0
  keys : AList Nat := [(0, 1)]
  keyGen : Nat := 0
  queues : AList HostQ := []
  paddocks : AList Word := []
  bkps : AList (Word × Word) := []
  barns : List Barn := []
  served : Nat := 63
  stopped : List Nat := []
  saves : List Save := []
  modtab : List ModEntry := []
  unloaded : List (Nat × Word) := []
  doms : AList Dom := []
  domNext : Nat := 1
  domTurn : Nat := 0
  killed : List Nat := []
  planes : AList Plane := []
  wlstat : AList Word := []
  txns : List Txn := []
  txnId : Nat := 0
  lastDie : AList Nat := []
  relayCredit : AList Nat := []
  relayBuf : List Txn := []
  portsDown : List Nat := []
  unreach : List Nat := []
  modIdx : Nat := 0
  failed : List Nat := []
  harvested : List Nat := []
  dead : AList Nat := []
  spFail : List Nat := []
  lifetime : Lifetime := {}
  overPower : Bool := false
  flowLow : Bool := false
  hostIrq : Nat := 0
  banks : AList DramBank := []
  refWin : Nat := 0
  ceDay : Nat := 0
  deriving DecidableEq, Repr

/-- The module right after cold reset: every register at the value its field table gives, memory with nothing listed, no task
placed. What the spec gives no value for is named in notes/assumptions (1, 2, 3, 5, 20). Log 1, DESIGN CHOICE, unsafe; log 19,
DEDUCED, unsafe; log 20, DESIGN CHOICE, unsafe. -/
def State.reset : State := {}

end Sys2Proof.Machine
end

