-- ==== Sys2Proof/Machine/Base.lean ====
section
/-!
DEFINITION. Reading and writing the parts of State, the core mesh (01 R9 to R13), free values, event counters
(22 R474 to R478), and what stops an instruction.
-/

namespace Sys2Proof.Machine

open Sys2Proof

/-- What ends an instruction other than by completing: a trap with its cause and TVAL, a stall with the wait table's
WHAT and OPERAND and the event that counts its cycles, or the end of the task's run on this core with the state that leaves (18 R414; 17 R409; 04 R77). -/
inductive Exc where
  | trap (cause : Nat) (tval : Word)
  | stall (what : Nat) (operand : Word) (lost : Nat := 0)
  | leave (s : State)

/-- The dword of a number. -/
def wd (n : Nat) : Word := BitVec.ofNat 64 n

/-- Core c. -/
def coreOf (s : State) (c : Nat) : CoreSt := s.cores.get {} c
/-- Replaces core c. -/
def setCore (c : Nat) (x : CoreSt) (s : State) : State := { s with cores := s.cores.put c x }
/-- Changes core c. -/
def modCore (c : Nat) (f : CoreSt → CoreSt) (s : State) : State := setCore c (f (coreOf s c)) s

/-- Cluster cl. -/
def clusterOf (s : State) (cl : Nat) : ClusterSt := s.clusters.get {} cl
/-- Replaces cluster cl. -/
def setCluster (cl : Nat) (x : ClusterSt) (s : State) : State := { s with clusters := s.clusters.put cl x }
/-- Changes cluster cl. -/
def modCluster (cl : Nat) (f : ClusterSt → ClusterSt) (s : State) : State := setCluster cl (f (clusterOf s cl)) s

/-- Logical die d. -/
def dieOf (s : State) (d : Nat) : DieSt := s.dies.get {} d
/-- Replaces die d. -/
def setDie (d : Nat) (x : DieSt) (s : State) : State := { s with dies := s.dies.put d x }
/-- Changes die d. -/
def modDie (d : Nat) (f : DieSt → DieSt) (s : State) : State := setDie d (f (dieOf s d)) s

/-- The cluster of a core. -/
def clOf (c : Nat) : Nat := c / 8
/-- The logical die of a core. -/
def dOf (c : Nat) : Nat := c / 128
/-- The logical die of a cluster. -/
def clDie (cl : Nat) : Nat := cl / 16
/-- Whether a logical die is live (01 R15). -/
def isLive (s : State) (d : Nat) : Bool := s.live.contains d

/-- Whether generation a is newer than b (19 R446). -/
def newer (a b : Nat) : Bool :=
  let d := (a % 65536 + 65536 - b % 65536) % 65536
  decide (1 ≤ d) && decide (d ≤ 32767)
/-- An entry of a router's die map (19 R445). The spec gives PDIE and LDIE of entries 8 to 15 no reset value: they start at 0
(log 20). Log 20, DESIGN CHOICE, unsafe. -/
def dieMapOf (k : ClusterSt) (e : Nat) : Word :=
  k.diemap.get (if e < 8 then BitVec.ofNat 64 (2 ^ 63 + 2 ^ 62 + e * 2 ^ 53 + e * 2 ^ 50) else BitVec.ofNat 64 (2 ^ 62)) e
/-- The router whose map stands for the module: one of those that committed last (19 R447; 01 R15, log 116). Log 116, DEDUCED,
unsafe. -/
def curRouter (s : State) : ClusterSt :=
  s.clusters.foldl (fun k e => if newer e.2.mapgen k.mapgen then e.2 else k) (clusterOf s 0)
/-- Entry e of the module's die map (01 R14). -/
def mapWord (s : State) (e : Nat) : Nat := (dieMapOf (curRouter s) e).toNat
/-- Whether a logical die's map entry is valid (01 R15). -/
def mapValid (s : State) (d : Nat) : Bool := bit (mapWord s d) 63
/-- Whether a logical die is served by a spare in a peer module (01 R13; 19 R445). -/
def peerServed (s : State) (d : Nat) : Bool := mapValid s d && !(bit (mapWord s d) 62)
/-- The physical die that serves a logical die, in the module that serves it (01 R14, R16); 8 is the spare. -/
def physDie (s : State) (d : Nat) : Nat := if d < 8 then bits (mapWord s d) 56 53 else d
/-- The logical die that a physical die of this module serves (01 R14). -/
def servedBy (s : State) (p : Nat) : Option Nat :=
  (List.range 8).find? (fun d => mapValid s d && bit (mapWord s d) 62 && physDie s d == p)
/-- Whether a physical die is failed: removed by a verdict, or harvested (01 R14). -/
def isFailed (s : State) (p : Nat) : Bool := s.failed.contains p || s.harvested.contains p
/-- Whether a physical die is a cold spare (01 R14): bound to no logical die of this module, nor to one of a peer's, which
entries 8 to 15 name. -/
def isSpare (s : State) (p : Nat) : Bool :=
  !(isFailed s p) && (servedBy s p).isNone && !((List.range 8).any (fun e => mapValid s (8 + e) && bits (mapWord s (8 + e)) 56 53 == p))
/-- The logical dies with a valid entry, in rising order (01 R15). -/
def mapDies (s : State) : List Nat := (List.range 8).filter (fun d => mapValid s d)
/-- The live list (01 R15; 02 R27): logical die 0 alone in reduced service and in recovery (21 R470). With logical die 0 bound
to no physical die the list is then empty: 01 R15 and 21 R470 disagree there, and the model keeps R15 (log 121). Log 121,
DESIGN CHOICE, unsafe. -/
def liveDies (s : State) : List Nat :=
  if bit s.platstat.toNat 0 then (mapDies s).filter (fun d => d == 0) else mapDies s

/-- The clock that a die returns to (21 R470; 01 R18). -/
def topClock (s : State) : Nat := if bits s.platstat.toNat 1 0 = 2 then 2100 else 1200

/-- Mesh row of a core (01 R12). -/
def meshRow (c : Nat) : Nat := 8 * (c / 128 / 4) + 2 * (c / 8 % 16 / 4) + c % 8 / 4
/-- Mesh column of a core (01 R12). -/
def meshCol (c : Nat) : Nat := 16 * (c / 128 % 4) + 4 * (c / 8 % 16 % 4) + c % 8 % 4
/-- The core at a mesh position (01 R12). -/
def coreAt (row col : Nat) : Nat :=
  let d := 4 * (row / 8) + col / 16
  let cl := 4 * (row % 8 / 2) + col % 16 / 4
  128 * d + 8 * cl + (4 * (row % 2) + col % 4)
/-- The neighbour of a core in direction 0 north, 1 east, 2 south, 3 west (01 R12; 09 R192). -/
def neighbour (c dir : Nat) : Option Nat :=
  let r := meshRow c
  let k := meshCol c
  if dir = 0 then (if r = 0 then none else some (coreAt (r - 1) k))
  else if dir = 1 then (if k = 63 then none else some (coreAt r (k + 1)))
  else if dir = 2 then (if r = 15 then none else some (coreAt (r + 1) k))
  else (if k = 0 then none else some (coreAt r (k - 1)))
/-- The member index of a core in its quad (01 R10). -/
def memberIdx (c : Nat) : Nat := c % 2 + 2 * (c % 8 / 4)
/-- The core of c's quad with a member index (01 R10). -/
def quadCore (c m : Nat) : Nat := 8 * (c / 8) + 4 * (m / 2) + 2 * (c % 4 / 2) + m % 2

/-- Whether a core is in supervisor mode (18 R413). -/
def isSup (x : CoreSt) : Bool := bit x.status.toNat 0
/-- The tenant of a core (02 R29). -/
def tenantOf (x : CoreSt) : Nat := bits x.vmroot.toNat 63 56
/-- DOMAIN of the resident task (08 R163). -/
def domainOf (x : CoreSt) : Nat := bits x.ctl.toNat 31 16
/-- Replaces bits hi to lo of a dword. -/
def setBits (w : Word) (hi lo v : Nat) : Word :=
  let n := w.toNat
  wd (n - bits n hi lo * 2 ^ lo + v % 2 ^ (hi + 1 - lo) * 2 ^ lo)

/-- Inserts a number in a rising list without repeats. -/
def insertNat (n : Nat) : List Nat → List Nat
  | [] => [n]
  | k :: l => if n < k then n :: k :: l else if n = k then k :: l else k :: insertNat n l
/-- Removes a number. -/
def removeNat (n : Nat) (l : List Nat) : List Nat := l.filter (fun k => k != n)
/-- Replaces the entry at a position. -/
def setAt {α : Type} (n : Nat) (x : α) : List α → List α
  | [] => []
  | y :: l => if n = 0 then x :: l else y :: setAt (n - 1) x l
/-- Removes the entry at a position. -/
def dropAt {α : Type} (n : Nat) : List α → List α
  | [] => []
  | y :: l => if n = 0 then l else y :: dropAt (n - 1) l

/-- An event of a job's traffic in a cluster (17 R410). Log 40, DEDUCED, unsafe. -/
def trafficAt (cl : Nat) (s : State) : State := modCluster cl (fun k => { k with evAt := s.time }) s

/-- Applies f to every pair of a number below n and the state, in rising order. -/
def forN (n : Nat) (f : Nat → State → State) (s : State) : State := (List.range n).foldl (fun t i => f i t) s

/-- A free value of Config, and the counter advanced (log 8). Log 8, DESIGN CHOICE, safe. -/
def drawFree (s : State) : Nat × State := (s.free, { s with free := s.free + 1 })

/-- One counter's increment by n for an event (22 R474 to R477); own is true for a core event. -/
def bumpCnt (code n : Nat) (own : Bool) (k : Nat) (x : CoreSt) : CoreSt :=
  let e := (x.evsel.get 0 k).toNat
  let pf := bits e 13 12
  let mode := !own || pf == 0 || (pf == 1 && !(isSup x)) || (pf == 2 && isSup x)
  if bit e 63 && bits e 11 0 == code && mode then
    let v := (x.cnt.get 0 k).toNat
    let sum := bits v 47 0 + n
    let ovf := bit v 63
    let now := decide (2 ^ 48 ≤ sum)
    { x with
      cnt := x.cnt.put k (wd (sum % 2 ^ 48 + b2n (ovf || now) * 2 ^ 63))
      ovfPend := if now && !ovf && bit e 62 then insertNat k x.ovfPend else x.ovfPend }
  else x

/-- The eight counters of a core meet an event. -/
def bump (code n : Nat) (own : Bool) (x : CoreSt) : CoreSt :=
  if x.evsel.isEmpty then x else (List.range 8).foldl (fun y k => bumpCnt code n own k y) x

/-- Counts a core event (22 R475). -/
def count (code n c : Nat) (s : State) : State :=
  if (coreOf s c).evsel.isEmpty then s else modCore c (bump code n true) s

/-- Counts an event on every core that a test names: events of cluster, die or module scope (22 R475). -/
def countWhere (code n : Nat) (p : Nat → Bool) (s : State) : State :=
  { s with cores := s.cores.map (fun e => if p e.1 then (e.1, bump code n false e.2) else e) }

/-- Counts an event of a cluster. -/
def countCluster (code n cl : Nat) (s : State) : State := countWhere code n (fun c => clOf c == cl) s
/-- Counts an event of a die. -/
def countDie (code n d : Nat) (s : State) : State := countWhere code n (fun c => dOf c == d) s
/-- Counts an event of the module. -/
def countAll (code n : Nat) (s : State) : State := countWhere code n (fun _ => true) s

/-- The account event of a core's cycles (22 R478). Log 14, DESIGN CHOICE, unsafe. -/
def acctCode (x : CoreSt) : Nat :=
  match x.run with
  | .halted => 0xE5
  | .stopped => 0xE5
  | .idle => if x.picking then 0xE1 else 0xE2
  | .reserved => if x.picking then 0xE1 else 0xE2
  | .running => if isSup x then 0xE3 else 0xE0

/-- The event of a core's own that counts the cycles of its stall, or 0 (09 R201; 13 R317). -/
def lostCode (x : CoreSt) : Nat := match x.stall with | some k => if k.lost = 0xB3 then 0 else k.lost | none => 0

/-- The cycles of cores whose push stalls count in their cluster (15 R370). -/
def nodeFull (cyc : Nat) (s : State) : State :=
  s.cores.foldl (fun t e => if e.2.stall.any (fun k => k.lost == 0xB3) then countCluster 0xB3 cyc (clOf e.1) t else t) s

/-- TIME and every live die's cycle count move on (10 R237; 22 R478), and the cycles of stalls are counted. Log 14, DESIGN CHOICE,
unsafe. -/
def advance (ns cyc : Nat) (s : State) : State :=
  let own (x : CoreSt) : CoreSt := if lostCode x = 0 then x else bump (lostCode x) cyc true x
  let t : State := nodeFull cyc { s with
    time := s.time + ns
    cores := s.cores.map (fun e => (e.1, own (bump (acctCode e.2) cyc true e.2))) }
  t.live.foldl (fun u d => modDie d (fun x => { x with cyc := x.cyc + cyc }) u) t

/-- The state of a core as the wait table shows it (17 R409). -/
def waitState (x : CoreSt) : Nat :=
  match x.run with
  | .running => if x.stall.isSome then 3 else 0
  | .idle => 1
  | .reserved => 2
  | .halted => 4
  | .stopped => 4

/-- A core x that becomes y: SINCE of the wait table changes with the entry's state (17 R409). -/
def withSince (now : Nat) (x y : CoreSt) : CoreSt := { y with since := if waitState x = waitState y then x.since else now }

/-- Enters a state of the wait table (17 R409). -/
def setRun (c : Nat) (r : Run) (s : State) : State := modCore c (fun x => withSince s.time x { x with run := r, stall := none }) s

/-- Enters a stall in the wait table (17 R409), whose lost cycles an event counts. -/
def setStallAs (c what : Nat) (operand : Word) (lost : Nat) (s : State) : State :=
  modCore c (fun x =>
    if x.stall = some ⟨what, operand, lost⟩ then x
    else { x with stall := some ⟨what, operand, lost⟩, since := s.time }) s

/-- Enters a stall in the wait table (17 R409). -/
def setStall (c what : Nat) (operand : Word) (s : State) : State := setStallAs c what operand 0 s

/-- Leaves a stall. -/
def clearStall (c : Nat) (s : State) : State :=
  if (coreOf s c).stall = none then s else modCore c (fun x => { x with stall := none, since := s.time }) s

/-- The global address of a scratchpad byte (02 R25). -/
def windowVa (home off : Nat) : Nat := 0x00E0000000000000 + home * 2 ^ 22 + off

/-- Whether the module is in reduced service (21 R470). -/
def reducedService (s : State) : Bool := bits s.platstat.toNat 1 0 == 1

end Sys2Proof.Machine
end

