-- ==== Sys2Proof/Machine/Phys.lean ====
section
/-!
DEFINITION. The module's physical memory: the physical map (02 R22, R27), protected placement and rebuilding (05 R97 to
R101), encryption by key generation (02 R42 to R44), poison (05 R96), corrected errors (05 R95, R107, R108) and row
activations (05 R105, R106). HBM bytes are held under their local physical address.
-/

namespace Sys2Proof.Machine

open Sys2Proof

/-- IPSIZE in GiB (02 R27, R46). -/
def ipsize (s : State) : Nat := bits s.ivset.toNat 6 0
/-- PPSIZE in GiB (05 R98). -/
def ppsize (s : State) : Nat := bits s.pvset.toNat 5 0
/-- YSIZE in GiB (05 R98). -/
def ysize (s : State) : Nat := bits s.pvset.toNat 23 16
/-- YPOS (05 R98). -/
def ypos (s : State) : Nat := bits s.pvset.toNat 10 8
/-- YSOFF in GiB (05 R98). -/
def ysoff (s : State) : Nat := bits s.ygset.toNat 63 56
/-- The module index at a position of the yard group (05 R98). -/
def yardMod (s : State) (m : Nat) : Nat := bits s.ygset.toNat (8 * m + 7) (8 * m)

/-- First byte of the interleaved window (02 R22). -/
def ilBase : Nat := 2 ^ 40
/-- First byte of the protected window (02 R22). -/
def prBase : Nat := 2 ^ 41
/-- First byte of the yard range (05 R102). -/
def yardBase : Nat := prBase + 2 ^ 39

/-- The memory kind of the window a physical address lies in; none for a reserved range (02 R22, R29). -/
def kindOfPa (pa : Nat) : Option Nat :=
  if pa < 2 ^ 40 then some 0
  else if pa < 2 ^ 41 then some 1
  else if pa < 3 * 2 ^ 40 then some 2
  else if 2 ^ 50 ≤ pa ∧ pa < 2 ^ 51 then some 4
  else if 2 ^ 51 ≤ pa ∧ pa < 3 * 2 ^ 50 then some 3
  else if 15 * 2 ^ 48 ≤ pa ∧ pa < 2 ^ 52 then some 5
  else none

/-- Whether an offset of a die's local range lies in its interleave or protected partition (02 R27; 05 R99). -/
def inPartition (s : State) (pa : Nat) : Bool :=
  decide ((128 - ipsize s - ppsize s) * 2 ^ 30 ≤ pa % 2 ^ 37) &&
    (s.plive.testBit (pa / 2 ^ 37) || decide ((128 - ipsize s) * 2 ^ 30 ≤ pa % 2 ^ 37))

/-- The populated part of each window (02 R22, R27; 05 R99, R102). -/
def populated (s : State) (kind pa : Nat) : Bool :=
  if kind = 0 then isLive s (pa / 2 ^ 37)
  else if kind = 1 then decide (pa - ilBase < s.live.length * ipsize s * 2 ^ 30)
  else if kind = 2 then
    if pa < yardBase then decide (3 ≤ s.pl) && decide (pa - prBase < s.pl * ppsize s * 2 ^ 30 * 2 / 3)
    else decide (pa - yardBase < ysize s * 2 ^ 30)
  else true

/-- Whether a protected-window address lies in the yard range (05 R102). -/
def inYard (pa : Nat) : Bool := decide (yardBase ≤ pa) && decide (pa < 3 * 2 ^ 40)

/-- The local address of an interleaved address (02 R27). -/
def ilPlace (s : State) (pa : Nat) : Nat :=
  let o := pa - ilBase
  let g := o / 2 ^ 16
  let n := s.live.length
  s.live.getD (g % n) 0 * 2 ^ 37 + (128 - ipsize s) * 2 ^ 30 + g / n * 2 ^ 16 + o % 2 ^ 16

/-- The protection die list (05 R98, R99). -/
def plist (s : State) : List Nat := (List.range 8).filter (fun d => s.plive.testBit d)

/-- The local address of shard k of protected chunk c (05 R99). -/
def shardPlace (s : State) (c k : Nat) : Nat :=
  let sh := k / 2
  let q := (3 * (c / s.pl) + sh) * 512 + k % 2 * 256
  (plist s).getD ((c % s.pl + sh) % s.pl) 0 * 2 ^ 37 + (128 - ipsize s - ppsize s) * 2 ^ 30 + q

/-- Whether a line of local memory is poisoned (05 R96). -/
def isPoison (s : State) (line : Nat) : Bool := s.poison.any (fun r => decide (r.lo ≤ line) && decide (line < r.hi))
/-- What a range keeps outside the lines from lo up to hi. -/
def cutRange (lo hi : Nat) (r : LineRange) : List LineRange :=
  (if r.lo < min r.hi lo then [⟨r.lo, min r.hi lo⟩] else []) ++ (if max r.lo hi < r.hi then [⟨max r.lo hi, r.hi⟩] else [])
/-- The lines from lo up to hi that are not poisoned. -/
def soundLines (s : State) (lo hi : Nat) : Nat := hi - lo - (s.poison.map (fun r => min hi r.hi - max lo r.lo)).sum
/-- Poisons lines from lo up to hi of one die (05 R96; 02 R28) and counts those that it poisons (05 R109). -/
def poisonRange (lo hi : Nat) (s : State) : State :=
  countDie 0x66 (soundLines s lo hi) (lo / 2 ^ 30) { s with poison := ⟨lo, hi⟩ :: s.poison.flatMap (cutRange lo hi) }
/-- Clears the poison of one line (05 R96). -/
def clearPoison (line : Nat) (s : State) : State :=
  if isPoison s line then { s with poison := s.poison.flatMap (cutRange line (line + 1)) } else s
/-- Poisons one line (05 R96, R109). -/
def poisonLine (line : Nat) (s : State) : State := if isPoison s line then s else poisonRange line (line + 1) s

/-- A product in GF(2^8) with polynomial 0x11D (05 R97). -/
def gfGo : Nat → Nat → Nat → Nat → Nat
  | 0, _, _, r => r
  | k + 1, a, b, r =>
    let a2 := if 128 ≤ a then (2 * a) ^^^ 0x11D else 2 * a
    gfGo k a2 (b / 2) (if b % 2 = 1 then r ^^^ a else r)
/-- gf_mul (05 R97). -/
def gfMul (a b : Nat) : Nat := gfGo 8 a b 0
/-- a to the power n. -/
def gfPow (a : Nat) : Nat → Nat
  | 0 => 1
  | n + 1 => gfMul a (gfPow a n)
/-- The inverse in GF(2^8). -/
def gfInv (a : Nat) : Nat := gfPow a 254

/-- The weight of data shard k in p1 (05 R97). -/
def shardWeight (k : Nat) : Nat := 2 ^ k

/-- The byte of shard k from the bytes of the shards that can be read (05 R97, R101). Log 46, DEDUCED, unsafe. -/
def solveShard (v : Nat → Option Nat) (k : Nat) : Option Nat :=
  let miss := (List.range 4).filter (fun i => (v i).isNone)
  let sum := (List.range 4).foldl (fun a i => a ^^^ (v i).getD 0) 0
  let wsum := (List.range 4).foldl (fun a i => a ^^^ gfMul (shardWeight i) ((v i).getD 0)) 0
  let data (i : Nat) : Option Nat :=
    match v i with
    | some b => some b
    | none =>
      match removeNat i miss with
      | [] =>
        match v 4, v 5 with
        | some p, _ => some (p ^^^ sum)
        | none, some p => some (gfMul (p ^^^ wsum) (gfInv (shardWeight i)))
        | none, none => none
      | [m] =>
        match v 4, v 5 with
        | some p, some r =>
          let x := p ^^^ sum
          let y := r ^^^ wsum
          some (gfMul (y ^^^ gfMul (shardWeight m) x) (gfInv (shardWeight i ^^^ shardWeight m)))
        | _, _ => none
      | _ => none
  if k < 4 then data k
  else
    match v k with
    | some b => some b
    | none =>
      match data 0, data 1, data 2, data 3 with
      | some a, some b, some c, some d =>
        if k = 4 then some (a ^^^ b ^^^ c ^^^ d)
        else some (a ^^^ gfMul 2 b ^^^ gfMul 4 c ^^^ gfMul 8 d)
      | _, _, _, _ => none

/-- Whether line h of shard k of chunk c can be read in place: its die is live and it holds no poison (05 R96, R101). Log 75,
DEDUCED, unsafe. -/
def shardOk (s : State) (c k h : Nat) : Bool :=
  let a := shardPlace s c k
  isLive s (a / 2 ^ 37) && !(isPoison s (a / 128 + h))

/-- The byte j of shard k of chunk c, read in place or rebuilt (05 R101). -/
def shardByte (s : State) (c k j : Nat) : Option Nat :=
  solveShard (fun i => if shardOk s c i (j / 128) then some (s.mem.read (shardPlace s c i + j)).toNat else none) k

/-- Whether a line of a shard that cannot be read in place can be rebuilt from others (05 R101). -/
def shardGone (s : State) (c k h : Nat) : Bool := !(shardOk s c k h) && (shardByte s c k (128 * h)).isSome

/-- Whether a line of a shard that cannot be read in place can be rebuilt where it lies (05 R101). -/
def shardLost (s : State) (c k h : Nat) : Bool := shardGone s c k h && isLive s (shardPlace s c k / 2 ^ 37)

/-- Writes back line h of shard k of chunk c from four other shards, and clears its poison (05 R101). -/
def restoreLine (c k h : Nat) (s : State) : State :=
  let a := shardPlace s c k + 128 * h
  let m := (List.range 128).foldl (fun m j => Memory.write (a + j) (BitVec.ofNat 8 ((shardByte s c k (128 * h + j)).getD 0)) m) s.mem
  clearPoison (a / 128) { s with mem := m }

/-- The lines of a shard that can be rebuilt are. Log 46, DEDUCED, unsafe. -/
def restoreShard (c k : Nat) (s : State) : State :=
  forN 2 (fun h t => if shardLost t c k h then restoreLine c k h t else t) s

/-- Parity that reads as poisoned is formed anew where the chunk's four data shards can be read (05 R97, R100, R101; log 30).
Log 30, DEDUCED, unsafe. -/
def remakeParity (c : Nat) (s : State) : State :=
  forN 2 (fun h t =>
    if (List.range 4).all (fun k => shardOk t c k h) then
      let u := if shardLost t c 4 h then restoreLine c 4 h t else t
      if shardLost u c 5 h then restoreLine c 5 h u else u
    else t) s

/-- The chunk, shard and byte of a protected address (05 R97). -/
def chunkOf (pa : Nat) : Nat × Nat × Nat := ((pa - prBase) / 1024, (pa - prBase) / 256 % 4, (pa - prBase) % 256)

/-- The local address at which an address of kind 0 to 2 is held (02 R22, R27; 05 R99). -/
def place (s : State) (kind pa : Nat) : Nat :=
  if kind = 1 then ilPlace s pa
  else if kind = 2 then let (c, k, j) := chunkOf pa; shardPlace s c k + j
  else pa

/-- The logical die that owns an address of kind 0 to 2 (02 R34). -/
def ownerDie (s : State) (kind pa : Nat) : Nat := place s kind pa / 2 ^ 37

/-- Whether the line of an address of kind 0 to 2 reads as poisoned (05 R96, R101). Log 75, DEDUCED, unsafe; log 105, DEDUCED,
unsafe. -/
def lineBad (s : State) (kind pa : Nat) : Bool :=
  if kind = 2 then let (c, k, j) := chunkOf pa; (shardByte s c k j).isNone
  else isPoison s (place s kind pa / 128)

/-- The stored byte at an address of kind 0 to 2, before decryption. -/
def rawRead (s : State) (kind pa : Nat) : Nat :=
  if kind = 2 then
    let (c, k, j) := chunkOf pa
    (shardByte s c k j).getD (s.mem.read (shardPlace s c k + j)).toNat
  else (s.mem.read (place s kind pa)).toNat

/-- Stores a byte in HBM; a protected byte with the parity bytes of its chunk (05 R100), in the same step, so that a die's loss
leaves every byte at its latest value (log 112). Log 112, DESIGN CHOICE, unsafe. -/
def rawWrite (kind pa v : Nat) (s : State) : State :=
  if kind = 2 then
    let (c, k, j) := chunkOf pa
    let delta := rawRead s kind pa ^^^ (v % 256)
    let put (i w : Nat) (m : Memory) : Memory :=
      let a := shardPlace s c i
      if isLive s (a / 2 ^ 37) then
        Memory.write (a + j) (BitVec.ofNat 8 ((Memory.read m (a + j)).toNat ^^^ gfMul w delta)) m
      else m
    let a := shardPlace s c k
    let m := if isLive s (a / 2 ^ 37) then Memory.write (a + j) (BitVec.ofNat 8 v) s.mem else s.mem
    { s with mem := put 5 (shardWeight k) (put 4 1 m) }
  else { s with mem := Memory.write (place s kind pa) (BitVec.ofNat 8 v) s.mem }

/-- The tag of a line's bytes: the key pair and the tweak that encrypt them (02 R42): PA[51:7] of the address that the access
names. -/
def lineTag (key pa : Nat) : Nat := key * 2 ^ 45 + pa / 128

/-- The key pair that a slot holds; none when it is empty (02 R42, R44). A pair that KEYDATA gave is twice its number, a random
one of the hub die's generator an odd number of its own (log 12). Log 12, DESIGN CHOICE, safe. -/
def keyGenOf (s : State) (slot : Nat) : Option Nat := s.keys.find? slot

/-- The byte at an address of kind 0 to 2 under a key pair: one that another pair wrote, or this pair at another window address,
reads as a free value (02 R42, R44). Log 12, DESIGN CHOICE, safe. -/
def byteAt (s : State) (kind pa key : Nat) : Nat :=
  let a := place s kind pa
  let t := lineTag key pa
  let g := s.lineKey.get t (a / 128)
  let b := rawRead s kind pa
  if g = t then b else (Config.wrongKey g t a b).toNat

/-- n bytes at an address of kind 0 to 2, little-endian. -/
def bytesAt (s : State) (kind key : Nat) : Nat → Nat → Nat
  | _, 0 => 0
  | pa, n + 1 => byteAt s kind pa key + 256 * bytesAt s kind key (pa + 1) n

/-- Makes a line belong to a key pair and to the address that names it, its bytes being what they read as there (02 R42 to R44).
Log 12, DESIGN CHOICE, safe. -/
def rekey (kind pa key : Nat) (s : State) : State :=
  let line := place s kind pa / 128
  let t := lineTag key pa
  if s.lineKey.get t line = t then { s with lineKey := s.lineKey.put line t }
  else
    let base := pa / 128 * 128
    let u := (List.range 128).foldl (fun u i => rawWrite kind (base + i) (byteAt s kind (base + i) key) u) s
    { u with lineKey := u.lineKey.put line t }

/-- The coordinates of a local address in its die's stacks (05 R94): stack, pseudo-channel, bank, row, column. -/
def dramPlace (lpa : Nat) : Nat × Nat × Nat × Nat × Nat :=
  let o := lpa % 2 ^ 37
  (bits o 8 8, bits o 14 9, bits o 20 17, bits o 36 21, bits o 16 15 * 2 + bits o 7 7)

/-- One activation meets a bank's table (05 R105): the table, and whether the count reaches the threshold. -/
def activate (thresh row : Nat) (acts : List (Nat × Nat)) : List (Nat × Nat) × Bool :=
  match acts.find? (fun e => e.1 == row) with
  | some e =>
    (acts.map (fun f => if f.1 = row then (row, f.2 + 1) else f), e.2 + 1 == thresh)
  | none =>
    if acts.length < 64 then (acts ++ [(row, 1)], thresh == 1)
    else
      let least := acts.foldl (fun (m : Nat × Nat) e => if e.2 < m.2 ∨ (e.2 = m.2 ∧ e.1 < m.1) then e else m) (acts.headD (0, 0))
      (acts.map (fun f => if f = least then (row, least.2 + 1) else f), least.2 + 1 == thresh)

/-- The victims of an alert on a row (05 R106). -/
def victimsOf (row : Nat) : List Nat :=
  (if 2 ≤ row then [row - 2] else []) ++ (if 1 ≤ row then [row - 1] else []) ++
    (if row + 1 < 65536 then [row + 1] else []) ++ (if row + 2 < 65536 then [row + 2] else [])

/-- A bank meets an access to a row that reaches DRAM (05 R105, R106). -/
def bankAccess (thresh row : Nat) (b : DramBank) : DramBank :=
  let b := if b.victims.isEmpty then b else { b with queued := true }
  if b.row = some row then b
  else
    let r := activate thresh row b.acts
    if r.2 then
      { b with row := some row, acts := r.1.map (fun e => if e.1 = row then (row, 0) else e), victims := b.victims ++ victimsOf row }
    else { b with row := some row, acts := r.1 }

/-- The key of a bank among the module's banks. -/
def bankKey (lpa : Nat) : Nat :=
  let (st, ch, bk, _, _) := dramPlace lpa
  lpa / 2 ^ 37 * 2048 + (st * 64 + ch) * 16 + bk

/-- The stacks of die d read or write a line, where on says so (05 R105): an absent die's make no activation, the cold spare's (die 8) do. An alert
is counted (05 R109). -/
def dramAccess (on : Bool) (d lpa : Nat) (s : State) : State :=
  if isLive s d || decide (d = 8) then
    let k := bankKey lpa
    let (_, _, _, row, _) := dramPlace lpa
    let b := s.banks.get {} k
    let b2 := bankAccess (bits s.hbmcfg.toNat 15 0) row b
    countDie 0x60 (if on ∧ b.victims.length < b2.victims.length then 1 else 0) d
      { s with banks := if on then s.banks.put k b2 else s.banks }
  else s

/-- A corrected error at a local address is logged (05 R107, R108; 21 R472), in the module whose stacks hold it (01 R16). -/
def logCorrected (lpa : Nat) (s : State) : State :=
  let d := lpa / 2 ^ 37
  let (st, ch, bk, row, col) := dramPlace lpa
  let key := bk * 2 ^ 16 + row
  let h (m : Nat) : Nat := key * m % 2 ^ 32 / 2 ^ 20
  let die := dieOf s d
  let n := st * 64 + ch
  let f := die.cefilter.get 0 n
  let hs := [h 0x9E3779B1, h 0x85EBCA77, h 0xC2B2AE3D]
  if hs.all (fun i => f.testBit i) then
    let k := n * 16 + bk
    countDie 0x64 1 d (setDie d { die with cehist := die.cehist.put k (min (die.cehist.get 0 k + 1) 65535) } s)
  else
    let f2 := hs.foldl (fun a i => a ||| 2 ^ i) f
    let t := countDie 0x63 1 d (setDie d { die with cefilter := die.cefilter.put n f2 } s)
    let rec1 := physDie s d * 2 ^ 60 + st * 2 ^ 59 + ch * 2 ^ 53 + bk * 2 ^ 49 + row * 2 ^ 33 + col * 2 ^ 30 +
      bits lpa 6 6 * 2 ^ 29 + Config.syndrome s.free % 2 ^ 16
    if peerServed s d then { t with free := t.free + 1 }
    else if t.ceRing.length < 4096 then
      { t with ceRing := t.ceRing ++ [(wd s.time, wd rec1)], free := t.free + 1 }
    else countDie 0x65 1 d { t with free := t.free + 1 }

/-- A read finds the corrected errors of its line (05 R95): they are corrected, written back and logged. -/
def correctLine (lpa : Nat) (s : State) : State :=
  let d := lpa / 2 ^ 37
  let hits := (dieOf s d).ceInj.filter (fun a => a / 128 == lpa / 128)
  if hits.isEmpty then s
  else
    hits.foldl (fun t a => logCorrected a t)
      (modDie d (fun x => { x with ceInj := x.ceInj.filter (fun a => a / 128 != lpa / 128) }) s)

/-- A read finds an uncorrectable error in its line (05 R95): the line is poisoned. Log 113, DESIGN CHOICE,
unsafe. -/
def spoilLine (lpa : Nat) (s : State) : State :=
  let d := lpa / 2 ^ 37
  if (dieOf s d).ueInj.any (fun a => a / 128 == lpa / 128) then
    poisonLine (lpa / 128) (modDie d (fun x => { x with ueInj := x.ueInj.filter (fun a => a / 128 != lpa / 128) }) s)
  else s

/-- Sets of a die's data L2: 16 ways of 128-byte lines in what the two partitions leave of 192 MiB (04 R83, R84). -/
def l2Sets (x : DieSt) : Nat := (192 - bits x.l2cfg.toNat 5 0 - bits x.l2cfg.toNat 13 8) * 512
/-- The set of a line. Log 18, DESIGN CHOICE, safe. -/
def l2SetOf (x : DieSt) (line : Nat) : Nat := Config.l2Set (l2Sets x) line % l2Sets x

/-- The line that a full set of the data L2 gives up for another: a free value. Log 18, DESIGN CHOICE, safe. -/
def l2Leaves (x : DieSt) (line k : Nat) : Option L2Line :=
  if x.l2.length < 16 then none
  else
    let mates := x.l2.filter (fun l => l.line != line && l2SetOf x l.line == l2SetOf x line)
    if mates.length < 16 then none else mates[Config.l2Victim k % mates.length]?

/-- An access of the data L2 that holds a local address (04 R83; 05 R95, R105): a miss reads the line from its stack, which
finds the errors there, and a dirty line that leaves is written. Log 113, DESIGN CHOICE, unsafe. -/
def l2Access (wr : Bool) (lpa : Nat) (s : State) : State :=
  let d := lpa / 2 ^ 37
  let line := lpa / 128
  if isLive s d then
    match (dieOf s d).l2.find? (fun l => l.line == line) with
    | some l => modDie d (fun x => { x with l2 := { l with dirty := l.dirty || wr } :: x.l2.filter (fun k => k.line != line) }) s
    | none =>
      let v := l2Leaves (dieOf s d) line s.free
      let t := dramAccess true d lpa (spoilLine lpa (correctLine lpa s))
      let u := dramAccess (v.any (fun l => l.dirty)) d ((v.map (fun l => l.line)).getD 0 * 128) t
      modDie d (fun x => { x with l2 := { line := line, dirty := wr } :: x.l2.filter (fun k => some k.line != v.map (fun l => l.line)) })
        { u with free := u.free + 1 }
  else s

/-- A line of a shard is read or written where it lies (05 R105): a data shard's through its die's L2 (04 R83), a parity shard's
in the stack. -/
def shardAccess (c i h : Nat) (wr : Bool) (s : State) : State :=
  let a := shardPlace s c i + 128 * h
  if i < 4 then l2Access wr a s else dramAccess true (a / 2 ^ 37) a s

/-- The shards that a rebuild of shard k reads: the first four of the others that can be read (05 R101). Log 105, DEDUCED,
unsafe. -/
def rebuildFrom (s : State) (c k h : Nat) : List Nat := (((List.range 6).filter (fun i => i != k && shardOk s c i h)).take 4)

/-- A shard that a read needs and that cannot be read in place is rebuilt, and written back where its die is present (05 R101,
R105, R109). The rebuild is counted at the die that holds the shard, or for an absent one at that of the first shard read. Log
105, DEDUCED, unsafe. -/
def rebuildShard (c k : Nat) (s : State) : State :=
  let h := if shardGone s c k 0 then 0 else 1
  if shardGone s c k h then
    let src := rebuildFrom s c k h
    let own := shardPlace s c k / 2 ^ 37
    let at_ := if isLive s own then own else shardPlace s c (src.headD k) / 2 ^ 37
    let t := src.foldl (fun u i => shardAccess c i h false u) s
    countDie 0x67 1 at_ (restoreShard c k t)
  else s

/-- What an access to a line of kind 0 to 2 does beside moving bytes: it goes to the owning die's L2 (04 R83), and a shard that
cannot be read is rebuilt (05 R101). -/
def touchAs (wr : Bool) (kind pa : Nat) (s : State) : State :=
  let t := l2Access wr (place s kind pa) s
  if kind = 2 then let (c, k, _) := chunkOf pa; rebuildShard c k t else t

/-- A line of kind 0 to 2 is read. -/
def touchLine (kind pa : Nat) (s : State) : State := touchAs false kind pa s

/-- A write to a line of the local protected range reaches both parity shards (05 R100, R105). -/
def touchParity (kind pa : Nat) (s : State) : State :=
  if kind = 2 then
    let (c, _, j) := chunkOf pa
    shardAccess c 5 (j / 128) true (shardAccess c 4 (j / 128) true s)
  else s

/-- Bytes of one line of kind 0 to 2, given by offset in the line, are written under a key pair (05 R100). -/
def patchLine (kind line key : Nat) (bs : AList Nat) (s : State) : State :=
  bs.foldl (fun v e => rawWrite kind (line * 128 + e.1) e.2 v) (rekey kind (line * 128) key s)

/-- Bytes of one line are written; covering the whole line clears its poison (05 R96). Log 30, DEDUCED, unsafe. -/
def putLine (kind line key : Nat) (bs : AList Nat) (s : State) : State :=
  let u := patchLine kind line key bs s
  if bs.length = 128 then
    let z := clearPoison (place u kind (line * 128) / 128) u
    if kind = 2 then remakeParity (chunkOf (line * 128)).1 z else z
  else u

/-- An access that writes bytes of one line of kind 0 to 2 at its die's L2 (05 R96, R100, R105). Log 30, DEDUCED, unsafe. -/
def writeLine (kind line key : Nat) (bs : AList Nat) (s : State) : State :=
  putLine kind line key bs (touchParity kind (line * 128) (touchAs true kind (line * 128) s))

/-- n bytes of a number as offsets and bytes from an offset. -/
def bytesOf (off v : Nat) : Nat → AList Nat
  | 0 => []
  | n + 1 => (off, v % 256) :: bytesOf (off + 1) (v / 256) n

/-- This module's index in the rotor domain as a remote address names it (02 R22). -/
def remKey (pa : Nat) : Nat := bits pa 49 42 * 2 ^ 42 + pa % 2 ^ 42

end Sys2Proof.Machine
end

