-- ==== Sys2Proof/Machine/Xlate.lean ====
section
/-!
DEFINITION. Translation: page walks (02 R30 to R33), the three TLB levels (02 R35), invalidation logs (02 R36 to R39),
paddock membership (17 R404, R405), homes (02 R34), and the checks 2 to 5 of 11 R244 on one address.
-/

namespace Sys2Proof.Machine

open Sys2Proof

/-- A cause: class and detail (18 R420). -/
def causeOf (cls detail : Nat) : Nat := cls * 256 + detail
/-- A translation fault: reason and walk level, 0xF when no walk took place (18 R420). Log 100, DEDUCED, unsafe. -/
def xlCause (reason level : Nat) : Nat := 0x300 + reason * 16 + level

/-- Whether a virtual address is canonical (02 R20). -/
def canonical (va : Nat) : Bool := bits va 63 57 == (if bit va 56 then 127 else 0)
/-- Whether an address lies in the region of the scratchpad windows (02 R25). -/
def inWindows (va : Nat) : Bool := bits va 56 52 == 14 && bits va 63 57 == 0

/-- Row and column of a cluster in the package mesh of clusters (17 R404). -/
def clRow (cl : Nat) : Nat := 4 * (cl / 64) + cl % 16 / 4
/-- Column of a cluster (17 R404). -/
def clCol (cl : Nat) : Nat := 4 * (cl / 16 % 4) + cl % 4

/-- Whether a cluster lies in a tenant's valid paddock: its membership bit (17 R404, R405). -/
def inPaddock (s : State) (tenant cl : Nat) : Bool :=
  let p := (s.paddocks.get 0 tenant).toNat
  let r0 := bits p 15 13
  let c0 := bits p 9 6
  bit p 63 && decide (r0 ≤ clRow cl) && decide (clRow cl ≤ r0 + bits p 12 10) &&
    decide (c0 ≤ clCol cl) && decide (clCol cl ≤ c0 + bits p 5 2)

/-- Whether a table's address lies in the local window, outside the interleave partition (02 R30, R32). -/
def tableOk (s : State) (pa : Nat) : Bool :=
  decide (pa < 2 ^ 40) && decide (pa % 2 ^ 37 < (128 - ipsize s) * 2 ^ 30)

/-- Whether a leaf breaks 02 R23 (02 R24). -/
def leafBreaks (s : State) (leaf : Nat) : Bool :=
  let kind := bits leaf 46 44
  let pa := bits leaf 43 8 * 2 ^ 16
  let key := bits leaf 54 47
  let home := bits leaf 62 55
  decide (5 < kind) || kindOfPa pa != some kind || (kind == 0 && inPartition s pa) ||
    (decide (3 ≤ kind) && (bit leaf 3 || home != 0xFF)) || ((kind == 3 || kind == 5) && key != 0)

/-- The first defect of a page-table entry at a level, as a reason of 18 R420; none when the walk may use it (02 R31, R32,
R24). Log 47, DEDUCED, unsafe. -/
def entryFault (s : State) (level e : Nat) : Option Nat :=
  if !(bit e 0) then some 1
  else if bits e 3 1 = 0 then
    if level = 0 then some 3
    else if bits e 63 52 != 0 || bits e 7 4 != 0 || (level != 1 && bits e 11 8 != 0) then some 2
    else if !(tableOk s (bits e 51 8 * 256)) then some 4
    else if !(isLive s (bits e 51 8 * 256 / 2 ^ 37)) then some 6
    else none
  else
    let kind := bits e 46 44
    let home := bits e 62 55
    if decide (kind ≤ 2) && decide (0x82 ≤ home) && decide (home ≤ 0xFE) then some 2
    else if (bit e 2 && !(bit e 1)) || decide (3 ≤ level) then some 3
    else if (level == 1 && bits e 12 8 != 0) || (level == 2 && bits e 21 8 != 0) then some 3
    else if leafBreaks s e then some 5
    else if !(populated s kind (bits e 43 8 * 2 ^ 16)) then some 6
    else none

/-- Index of a virtual address at a level (02 R30). -/
def walkIndex (va level : Nat) : Nat :=
  if level = 4 then bits va 56 48 else if level = 3 then bits va 47 39 else if level = 2 then bits va 38 30
  else if level = 1 then bits va 29 21 else bits va 20 16

/-- The generation of key slot 0, under which the walker and the logs are read (log 21). Log 21, DESIGN CHOICE, unsafe. -/
def gen0 (s : State) : Nat := (keyGenOf s 0).getD 0

/-- Who makes an access: its tenant, translation root, mode, whether a task in a containment domain makes it, and
whether translation is enabled (02 R29; 08 R181; 15 R357). -/
structure Who where
  tenant : Nat
  root : Nat
  sup : Bool
  dom : Bool
  en : Bool
  cl : Nat
  core : Option Nat
  deriving DecidableEq, Repr

/-- The accesses of the code that runs on a core. -/
def whoCore (s : State) (c : Nat) : Who :=
  let x := coreOf s c
  { tenant := tenantOf x, root := bits x.vmroot.toNat 51 12 * 2 ^ 12, sup := isSup x
    dom := !(isSup x) && domainOf x != 0, en := bit x.vmroot.toNat 0, cl := clOf c, core := some c }

/-- The same accesses made in supervisor mode: by hardware and by handlers (08 R170, R173; 22 R480). -/
def whoSup (s : State) (c : Nat) : Who := { whoCore s c with sup := true, dom := false }

/-- Whether a leaf permits an access (02 R21, R32; 08 R181). -/
def permits (w : Who) (acc : Acc) (va leaf : Nat) : Bool :=
  let u := bit leaf 4
  (w.sup || (u && !(bit va 56))) &&
    (match acc with
      | .load => bit leaf 1
      | .store => bit leaf 2 && !(w.dom && bit leaf 63)
      | .exec => bit leaf 3 && !(w.sup && u))

/-- A walk from a table at a level (02 R30 to R33): the leaf, its level and its entry's address, or the cause. Log 21, DESIGN
CHOICE, unsafe; log 100, DEDUCED, unsafe. -/
def walkFrom (s : State) (va : Nat) : Nat → Nat → Nat → Except Nat (Nat × Nat × Nat)
  | 0, _, _ => .error (xlCause 3 0)
  | fuel + 1, level, table =>
    let ea := table + 8 * walkIndex va level
    if isPoison s (ea / 128) then .error 0x601
    else
      let e := bytesAt s 0 (gen0 s) ea 8
      match entryFault s level e with
      | some r => .error (xlCause r level)
      | none =>
        if bits e 3 1 = 0 then walkFrom s va fuel (level - 1) (bits e 51 8 * 256)
        else .ok (e, level, ea)

/-- Pages of 64 KiB that a leaf at a level maps (02 R30). -/
def pagesAt (level : Nat) : Nat := if level = 0 then 1 else if level = 1 then 32 else 16384

/-- Looks up a TLB level (02 R35). -/
def tlbFind (l : List TlbEntry) (tenant va : Nat) : Option TlbEntry :=
  let p := bits va 56 16
  l.find? (fun e => (e.tenant == tenant || bit e.leaf.toNat 5) && decide (e.vpn ≤ p) && decide (p < e.vpn + pagesAt e.size))

/-- Whether two entries translate the same page of the same tenant. -/
def samePage (f e : TlbEntry) : Bool := f.tenant == e.tenant && f.vpn == e.vpn && f.size == e.size

/-- The set of an entry among some (02 R35; log 7): its page's number, in pages of its size. Log 7, DESIGN CHOICE, unsafe. -/
def tlbSet (sets : Nat) (e : TlbEntry) : Nat := e.vpn / pagesAt e.size % sets

/-- Puts an entry in a TLB level of some sets and ways as its most recently used, in place of an older one of the same page; the
least recently used of a full set leaves (02 R35). Log 7, DESIGN CHOICE, unsafe. -/
def tlbPut (sets ways : Nat) (e : TlbEntry) (l : List TlbEntry) : List TlbEntry × Option TlbEntry :=
  let rest := l.filter (fun f => !(samePage f e))
  let mates := rest.filter (fun f => tlbSet sets f == tlbSet sets e)
  if mates.length < ways then (e :: rest, none)
  else
    match mates.getLast? with
    | none => (e :: rest, none)
    | some v => (e :: rest.filter (fun f => !(samePage f v)), some v)

/-- A level loses the entry that left an outer one: the levels are inclusive (02 R35). -/
def tlbDrop (gone : Option TlbEntry) (l : List TlbEntry) : List TlbEntry :=
  match gone with
  | none => l
  | some v => l.filter (fun f => !(samePage f v))

/-- Fills the levels on the path of a miss or a hit (02 R35); what leaves an outer level leaves the inner ones. -/
def tlbFill (w : Who) (e : TlbEntry) (s : State) : State :=
  let d := clDie w.cl
  let r := tlbPut 2048 16 e (dieOf s d).dtlb
  let s1 := modDie d (fun x => { x with dtlb := r.1 }) s
  let s2 : State := if r.2 = none then s1 else { s1 with
    cores := s1.cores.map (fun k => if dOf k.1 = d then (k.1, { k.2 with l0 := tlbDrop r.2 k.2.l0 }) else k)
    clusters := s1.clusters.map (fun k => if clDie k.1 = d then (k.1, { k.2 with ctlb := tlbDrop r.2 k.2.ctlb }) else k) }
  let q := tlbPut 128 8 e (clusterOf s2 w.cl).ctlb
  let s3 := modCluster w.cl (fun k => { k with ctlb := q.1 }) s2
  let s4 : State := if q.2 = none then s3 else { s3 with
    cores := s3.cores.map (fun k => if clOf k.1 = w.cl then (k.1, { k.2 with l0 := tlbDrop q.2 k.2.l0 }) else k) }
  match w.core with
  | some c => modCore c (fun x => { x with l0 := (tlbPut 1 32 e x.l0).1 }) s4
  | none => s4

/-- The walk of an address from a root (02 R30 to R33): the leaf, its level and its entry's address, or the cause. -/
def walkRoot (w : Who) (va : Nat) (s : State) : Except Nat (Nat × Nat × Nat) :=
  if !(tableOk s w.root) then .error (xlCause 4 4)
  else if !(isLive s (w.root / 2 ^ 37)) then .error (xlCause 6 4)
  else walkFrom s va 5 4 w.root

/-- The addresses of the entries that a walk may read, from a table at a level (02 R30). -/
def walkReads (s : State) (va : Nat) : Nat → Nat → Nat → List Nat
  | 0, _, _ => []
  | fuel + 1, level, table =>
    let ea := table + 8 * walkIndex va level
    let e := bytesAt s 0 (gen0 s) ea 8
    ea :: (if bits e 3 1 = 0 ∧ entryFault s level e = none then walkReads s va fuel (level - 1) (bits e 51 8 * 256) else [])

/-- The lines of the entries that a walk reads are read at their dies' L2 (02 R30; 04 R83). -/
def walkTouch (w : Who) (va : Nat) (s : State) : State :=
  if tableOk s w.root then (walkReads s va 5 4 w.root).foldl (fun t ea => touchLine 0 ea t) s else s

/-- Breaks every other agent's reservation of a line (06 R134). -/
def breakResv (who : Option Nat) (line : Nat) (s : State) : State :=
  if s.cores.any (fun e => who != some e.1 && (e.2.resv.any (fun r => r.line == line))) then
    { s with cores := s.cores.map (fun e =>
        if who != some e.1 && (e.2.resv.any (fun r => r.line == line)) then (e.1, { e.2 with resv := none }) else e) }
  else s

/-- A page walk for an access (02 R30 to R33): the leaf after its A and D are set, and what the TLBs take of it. The store of A
and D is the walker's, another agent than any core (06 R110, R134). Log 42, DESIGN CHOICE, unsafe. -/
def pageWalk (w : Who) (acc : Acc) (va : Nat) (s : State) : Except Nat (Nat × TlbEntry × State) :=
    let s := walkTouch w va s
    match walkRoot w va s with
    | .error c => .error c
    | .ok (e, level, ea) =>
      if !(permits w acc va e) then .error 0x202
      else
        let d := match acc with | .store => true | _ => false
        let e2 := e ||| 0x40 ||| (if d then 0x80 else 0)
        let t := if e2 = e then s else breakResv none (ea / 128) (writeLine 0 (ea / 128) (gen0 s) (bytesOf (ea % 128) e2 8) s)
        let entry : TlbEntry :=
          { tenant := w.tenant, vpn := bits va 56 16 / pagesAt level * pagesAt level, size := level, leaf := wd e2 }
        .ok (e2, entry, t)

/-- The entry that a TLB on the path of an access holds for an address (02 R35). -/
def tlbHit (w : Who) (va : Nat) (s : State) : Option TlbEntry :=
  let l0 := match w.core with | some c => (coreOf s c).l0 | none => []
  ((tlbFind l0 w.tenant va).or (tlbFind (clusterOf s w.cl).ctlb w.tenant va)).or (tlbFind (dieOf s (clDie w.cl)).dtlb w.tenant va)

/-- Whether the supervisor has changed the entry that a cached translation came from (02 R40): A and D aside. -/
def leafChanged (w : Who) (va : Nat) (e : TlbEntry) (s : State) : Bool :=
  match walkRoot w va s with
  | .error _ => true
  | .ok (v, level, _) => decide (v / 256 * 64 + v % 64 ≠ e.leaf.toNat / 256 * 64 + e.leaf.toNat % 64) || decide (level ≠ e.size)

/-- A walk that fills the TLBs: the leaf and the level of its page. -/
def walkFill (w : Who) (acc : Acc) (va : Nat) (s : State) : Except Nat (Nat × Nat × State) :=
  match pageWalk w acc va s with
  | .error c => .error c
  | .ok (leaf, e, t) => .ok (leaf, e.size, tlbFill w e t)

/-- The translation of an address: the leaf and its page's level (02 R35, R40). A write through an entry whose D is 0 walks
again, as R33 sets D. Where the entry in memory has changed since, each access takes the old translation or the new one, which
is a free value (log 8), and the old one stays in the TLBs until the die applies a record. Log 42, DESIGN CHOICE, unsafe; log
94, DEDUCED, unsafe. -/
def translate (w : Who) (acc : Acc) (va : Nat) (s : State) : Except Nat (Nat × Nat × State) :=
  match tlbHit w va s with
  | some e =>
    let leaf := e.leaf.toNat
    let changed := leafChanged w va e s
    let s1 : State := if changed then { s with free := s.free + 1 } else s
    if changed && Config.coin s.free then
      match pageWalk w acc va s1 with
      | .error c => .error c
      | .ok (new, d, t) => .ok (new, d.size, t)
    else if !(permits w acc va leaf) then .error 0x202
    else
      match acc with
      | .store => if bit leaf 7 then .ok (leaf, e.size, tlbFill w e s1) else walkFill w acc va s1
      | _ => .ok (leaf, e.size, tlbFill w e s1)
  | none => walkFill w acc va s

/-- Where an access goes: kind 0 to 5 with the physical address, key slot and HOME, or kind 6, a scratchpad byte, with
the address home * 2^22 + offset in pa. -/
structure Ref where
  kind : Nat
  pa : Nat
  key : Nat
  home : Nat
  deriving DecidableEq, Repr

/-- Size of a core's scratchpad in bytes (02 R26; 03 R50). -/
def spSize (x : CoreSt) : Nat := (16 - bits x.spcfg.toNat 3 0) * 272 * 1024
/-- The tile an offset lies in (03 R51). -/
def tileOf (off : Nat) : Nat := off / 16 / 17 / 64
/-- The number of tiles (03 R50). -/
def tileCount (x : CoreSt) : Nat := (16 - bits x.spcfg.toNat 3 0) * 16

/-- The checks of a window access (02 R26): the home core and offset, or the cause. -/
def windowRef (w : Who) (va : Nat) (s : State) : Except Nat Ref :=
  let glob := decide (0x00E0000000000000 ≤ va) && decide (va < 0x00E0000100000000)
  let loc := decide (0x00E8000000000000 ≤ va) && decide (va < 0x00E8000000400000)
  if !glob && !loc then .error (xlCause 7 0xF)
  else
    let home := if glob then bits va 31 22 else w.core.getD 0
    let off := va % 2 ^ 22
    let x := coreOf s home
    if !(isLive s (dOf home)) then .error (xlCause 7 0xF)
    else if !w.sup && !(inPaddock s w.tenant (clOf home)) then .error 0x206
    else if spSize x ≤ off then .error 0x205
    else if x.owner.contains (tileOf off) then .error 0x203
    else .ok { kind := 6, pa := home * 2 ^ 22 + off, key := 0, home := home }

/-- The form of an access, for the kind restrictions of 02 R24: a plain scalar access of some bytes, a byte of a misaligned one of
some bytes, a tile access, an atomic, lr, sc or reduction; of an engine's command, a copy (05 R102), a remote copy (15 R361), one of a base die (05
R104), or one of the matrix array, which reaches no other module (19). -/
inductive Form where
  | scalar (n : Nat) | part (n : Nat) | tile | atomic | copy | remote | local_ | matrix
  deriving DecidableEq, Repr

/-- Check 5 of 11 R244 on an address: kind restrictions, MMIO privilege, the yard range, the route, the key slot. Log 55,
DEDUCED, unsafe; log 71, DEDUCED, unsafe. -/
def kindCheck (w : Who) (f : Form) (kind pa key : Nat) (s : State) : Option Nat :=
  if kind = 5 then
    match f with
    | .scalar n =>
      if n < 4 then some 0x207 else if pa % n != 0 then some 0x201 else if !w.sup then some 0x20C else none
    | .part n => if n < 4 then some 0x207 else some 0x201
    | _ => some 0x207
  else if (f == .remote && kind != 4) || (f == .local_ && decide (3 ≤ kind)) || (f == .matrix && kind == 4) then some 0x207
  else if kind = 4 then
    if s.unreach.contains (bits pa 49 42) || reducedService s then some 0x701 else none
  else if kind = 2 && inYard pa && f != .copy then some 0x209
  else if kind ≤ 2 && (keyGenOf s key).isNone then some 0x208
  else none

/-- Checks 2 to 6 of 11 R244 on one address (the checks of 02 R26 for a window address). Log 44, DEDUCED, unsafe; log 94,
DEDUCED, unsafe. -/
def resolve (w : Who) (acc : Acc) (f : Form) (va : Nat) (s : State) : Except Nat (Ref × State) :=
  if !(canonical va) then .error (xlCause 0 0xF)
  else if inWindows va then
    match windowRef w va s with
    | .error c => .error c
    | .ok r => .ok (r, s)
  else if !w.en then
    if !w.sup then .error (xlCause 8 0xF)
    else
      let pa := va % 2 ^ 52
      match kindOfPa pa with
      | none => .error (xlCause 6 0xF)
      | some kind =>
        if !(populated s kind pa) then .error (xlCause 6 0xF)
        else if kind == 0 && inPartition s pa then .error (xlCause 5 0xF)
        else
          match acc with
          | .exec =>
            if kind ≤ 2 then
              match kindCheck w f kind pa 0 s with
              | some c => .error c
              | none => .ok ({ kind := kind, pa := pa, key := 0, home := 0xFF }, s)
            else .error 0x202
          | _ =>
            match kindCheck w f kind pa 0 s with
            | some c => .error c
            | none => .ok ({ kind := kind, pa := pa, key := 0, home := 0xFF }, s)
  else
    match translate w acc va s with
    | .error c => .error c
    | .ok (leaf, level, t) =>
      let kind := bits leaf 46 44
      let size := pagesAt level * 2 ^ 16
      let pa := bits leaf 43 8 * 2 ^ 16 / size * size + va % size
      if !(populated t kind pa) then .error (xlCause 6 0xF)
      else
        match kindCheck w f kind pa (bits leaf 54 47) t with
        | some c => .error c
        | none => .ok ({ kind := kind, pa := pa, key := bits leaf 54 47, home := bits leaf 62 55 }, t)

/-- The cores of a tenant's paddock on a die, in ascending order (02 R34). -/
def paddockCores (s : State) (tenant d : Nat) : List Nat :=
  (List.range 16).flatMap (fun k =>
    if inPaddock s tenant (16 * d + k) then (List.range 8).map (fun i => 8 * (16 * d + k) + i) else [])

/-- The core whose L1 holds a line as its home, if one does. -/
def l1Holder (s : State) (line : Nat) : Option Nat :=
  (List.find? (fun (e : Nat × CoreSt) => e.2.l1.any (fun l => l.line == line && l.uo.isNone)) s.cores).map (fun e => e.1)

/-- The home core of the line of an address of kind 0 to 2; none when L2 serves it (02 R34). The access is made from
cluster cl. -/
def homeOf (s : State) (tenant cl : Nat) (r : Ref) : Option Nat :=
  if 2 < r.kind then none
  else
    let d := ownerDie s r.kind r.pa
    if r.home < 0x80 then some (d * 128 + r.home)
    else if r.home = 0x80 then
      let l := paddockCores s tenant d
      if l.isEmpty then none else l[(r.pa / 128) % l.length]?
    else if r.home = 0x81 then
      match l1Holder s (r.pa / 128) with
      | some h => some h
      | none => if clDie cl = d then some (cl * 8 + r.pa / 128 % 8) else none
    else none

/-- A record of an invalidation log (02 R37) names a page number. -/
def recNames (d0 d1 tenant vpn pages : Nat) (glob : Bool) : Bool :=
  let op := bits d0 55 54
  let size := bits d0 53 52
  let base := bits d0 40 0
  let cnt := bits d1 31 0
  let mine := tenant == bits d0 63 56 || glob
  if op = 3 then true
  else if op = 1 && cnt == 0 then false
  else if op = 2 then tenant == bits d0 63 56 && !glob
  else
    let n := if op = 1 then cnt else if size = 0 then 1 else if size = 1 then 32 else if size = 2 then 16384 else 1
    let lo := if op = 0 && decide (size < 3) then base / n * n else base
    mine && decide (lo < vpn + pages) && decide (vpn < lo + n)

/-- The ring of a die's invalidation log: its base and capacity in records (02 R36). -/
def ilRing (d : DieSt) : Nat × Nat := (bits d.ilbase.toNat 51 12 * 2 ^ 12, 2 ^ (bits d.ilbase.toNat 3 0 + 8))

/-- Record seq of a die's log. -/
def ilRecord (s : State) (d seq : Nat) : Nat × Nat :=
  let (base, cap) := ilRing (dieOf s d)
  let a := base + 16 * (seq % cap)
  (bytesAt s 0 (gen0 s) a 8, bytesAt s 0 (gen0 s) (a + 8) 8)

/-- The records of a die's log that are not applied. -/
def ilPending (s : State) (d : Nat) : List (Nat × Nat) :=
  let x := dieOf s d
  (List.range (x.ilhead.toNat - x.ildone.toNat)).map (fun i => ilRecord s d (x.ildone.toNat + i))

/-- Removes the entries a list of records names from a TLB level (02 R37, R39). -/
def tlbPurge (rs : List (Nat × Nat)) (l : List TlbEntry) : List TlbEntry :=
  l.filter (fun e => !(rs.any (fun r => recNames r.1 r.2 e.tenant e.vpn (pagesAt e.size) (bit e.leaf.toNat 5))))

/-- Die d applies its log (02 R38, R39): every level of the die loses the entries; ILDONE advances once no launched
command of the die had translated a page that a record names. -/
def ilApply (d : Nat) (s : State) : State :=
  let rs := ilPending s d
  if rs.isEmpty then s
  else
    let s1 : State := { s with
      cores := s.cores.map (fun e => if dOf e.1 = d then (e.1, { e.2 with l0 := tlbPurge rs e.2.l0 }) else e)
      clusters := s.clusters.map (fun e => if clDie e.1 = d then (e.1, { e.2 with ctlb := tlbPurge rs e.2.ctlb }) else e) }
    let busy := s.clusters.any (fun e => clDie e.1 == d && e.2.nodes.any (fun n =>
      n.2.st == .launched && n.2.vpns.any (fun v => rs.any (fun r => recNames r.1 r.2 n.2.tenant (v % 2 ^ 41) 1 (decide (2 ^ 41 ≤ v))))))
    modDie d (fun x => { x with
      dtlb := tlbPurge rs x.dtlb
      ildone := if busy then x.ildone else x.ilhead }) s1

/-- Whether every record of a die's log has been applied. -/
def ilClean (s : State) (d : Nat) : Bool := (dieOf s d).ildone == (dieOf s d).ilhead

/-- The first translated access of core c after a context switch applies its die's log (02 R38): the state, and whether it is
done. -/
def logGate (c : Nat) (s : State) : State × Bool :=
  let x := coreOf s c
  if x.ilWait && bit x.vmroot.toNat 0 then
    let t := ilApply (dOf c) s
    if ilClean t (dOf c) then (modCore c (fun y => { y with ilWait := false }) t, true) else (t, false)
  else (s, true)

end Sys2Proof.Machine
end

