-- ==== Sys2Proof/Machine/Ops.lean ====
section
/-!
DEFINITION. The named operations over memory and registers: completing an instruction and its lookahead windows (09 R198),
scratchpad words, tags and waiters (03 R64 to R70), L1 lines, update-only copies and reservations (04 R72 to R81; 06 R134),
the remote partition (04 R86), the combining buffer (04 R85), loads and stores of one line, and taking a trap (18 R414 to
R422).
-/

namespace Sys2Proof.Machine

open Sys2Proof

/-- The running core. -/
def me (s : State) : CoreSt := coreOf s s.cur

/-- Writes a scalar register: x0 discards the write (09 R191). A write replaces a word whose error is uncorrectable
(20 R452). Ports are written by writeX. -/
def setX (r : Nat) (v : Word) (x : CoreSt) : CoreSt :=
  if r = 0 ∨ 28 ≤ r then x else { x with regs := x.regs.put r v, badX := removeNat r x.badX }
/-- Reads a scalar register: x0 reads 0 (09 R191). Log 2, DESIGN CHOICE, unsafe. -/
def getX (r : Nat) (x : CoreSt) : Word := if r = 0 ∨ 28 ≤ r then 0 else x.regs.get 0 r
/-- Writes a tile register and sets TILEUSE (08 R168; 13 R289). -/
def setV (r : Nat) (t : Tile) (x : CoreSt) : CoreSt :=
  { x with tiles := x.tiles.put r t, tileuse := true, badT := removeNat r x.badT }
/-- Reads a tile register. Log 2, DESIGN CHOICE, unsafe. -/
def getV (r : Nat) (x : CoreSt) : Tile := x.tiles.get Tile.zero r

/-- Accrues floating-point flags in FCSR (10 R228). -/
def accrue (fl : Nat) (x : CoreSt) : CoreSt := { x with fcsr := x.fcsr ||| wd (fl % 32) }

/-! Lookahead windows. -/

/-- A window's result is written to its destinations (09 R198). -/
def deliverWin (w : Window) (x : CoreSt) : CoreSt :=
  let x1 := w.xval.foldl (fun y e => setX e.1 e.2 y) x
  let x2 := w.tval.foldl (fun y e => setV e.1 e.2 y) x1
  accrue w.flags x2

/-- A window whose result has been written. -/
def arrivedWin (w : Window) : Window := { w with st := .arrived, xval := [], tval := [], flags := 0 }

/-- Drops the windows that are closed: counted and arrived (09 R198). -/
def closeWins (x : CoreSt) : CoreSt :=
  { x with windows := x.windows.filter (fun w => !(w.remain == 0 && w.st == .arrived)) }

/-- Delivers window k if its result is on its way (18 R422). -/
def deliverAt (k : Nat) (x : CoreSt) : CoreSt :=
  match x.windows[k]? with
  | some w =>
    if w.st = .flying then closeWins { deliverWin w x with windows := setAt k (arrivedWin w) x.windows } else x
  | none => x

/-- Delivers every result that is on its way (09 R199; 18 R422). -/
def deliverAll (x : CoreSt) : CoreSt :=
  let y := x.windows.foldl (fun y w => if w.st = .flying then deliverWin w y else y) x
  closeWins { y with windows := x.windows.map (fun w => if w.st = .flying then arrivedWin w else w) }

/-- Opens a window over la further instructions (09 R198); retire counts the opening instruction off again. -/
def openWin (pcw la : Nat) (dx dv : List Nat) (st : WinSt) (xval : List (Nat × Word)) (tval : List (Nat × Tile))
    (flags : Nat) (txns : List (Nat × Nat)) (x : CoreSt) : CoreSt :=
  { x with windows := x.windows ++
      [{ pcw := pcw, remain := la + 1, dx := dx, dv := dv, st := st, xval := xval, tval := tval, flags := flags, txns := txns }] }

/-- What completing an instruction of n bytes does to its core: the pc moves on, each open window counts it, and a task's
instruction under DBGCTL.STEP leaves a debug step pending (09 R198; 18 R413). -/
def retireCore (task : Bool) (n : Nat) (x : CoreSt) : CoreSt :=
  closeWins { x with
    pc := x.pc + wd n
    windows := x.windows.map (fun w => { w with remain := w.remain - 1 })
    stepPend := x.stepPend || (task && bit x.dbgctl.toNat 0)
    rpWait := false }

/-- Completes an instruction of core c that ran in state s and left t. Log 43, DEDUCED, unsafe. -/
def retire (c n : Nat) (s t : State) : State :=
  modCore c (retireCore (!(isSup (coreOf s c))) n) (clearStall c t)

/-! Scratchpads. -/

/-- The line of a scratchpad byte among the lines of reservations. -/
def spLine (home off : Nat) : Nat := 2 ^ 45 + (home * 2 ^ 22 + off) / 128

/-- Whether a list of bank words holds one that n bytes of a scratchpad touch. -/
def wordsHit (l : List Nat) (off n : Nat) : Bool := l.any (fun w => decide (off / 16 ≤ w) && decide (w ≤ (off + n - 1) / 16))
/-- The fault of an access to n bytes of a scratchpad with a poisoned bank word among them: detail 0x05 where the word itself has
an uncorrectable error (20 R452), 0x01 where an engine wrote poison there (05 R96). Log 102, DEDUCED, unsafe. -/
def spFault (x : CoreSt) (off n : Nat) : Option Nat :=
  if wordsHit x.spBad off n then some 0x605 else if wordsHit x.spPois off n then some 0x601 else none
/-- Whether any of n bytes of a scratchpad lies in a poisoned bank word (05 R96; 20 R452). Log 102, DEDUCED, unsafe. -/
def spBadAt (x : CoreSt) (off n : Nat) : Bool := (spFault x off n).isSome

/-- Writes bytes of a scratchpad, given by offset (03 R65, R68): a bank word written whole loses its poison. -/
def spWrite (who : Option Nat) (home : Nat) (bs : AList Nat) (s : State) : State :=
  let part (w : Nat) : Bool := (bs.filter (fun e => e.1 / 16 == w)).length != 16
  let t := modCore home (fun x =>
    { x with sp := bs.foldl (fun m e => Memory.write e.1 (BitVec.ofNat 8 e.2) m) x.sp, spBad := x.spBad.filter part, spPois := x.spPois.filter part }) s
  (bs.map (fun e => spLine home e.1)).eraseDups.foldl (fun u l => breakResv who l u) t

/-- The word of n bytes at a scratchpad offset. -/
def spRead (s : State) (home off n : Nat) : Nat := Memory.readN (coreOf s home).sp off n

/-- Whether the tag of the 8-byte word at an offset is full (03 R64). -/
def tagFull (s : State) (home off : Nat) : Bool := (coreOf s home).full.contains (off / 8)
/-- Sets a tag (03 R65). -/
def tagPut (home off : Nat) (f : Bool) (s : State) : State :=
  modCore home (fun x => { x with full := if f then insertNat (off / 8) x.full else removeNat (off / 8) x.full }) s

/-- Counts bank-word accesses and conflict cycles of one request group (03 R52, R55). -/
def spCount (home : Nat) (offs : List Nat) (s : State) : State :=
  if (coreOf s home).evsel.isEmpty then s
  else
    let ws := (offs.map (fun o => o / 16)).eraseDups
    let worst := (List.range 17).foldl (fun m b => max m (ws.filter (fun w => w % 17 == b)).length) 0
    count 0x41 (worst - (ws.length + 16) / 17) home (count 0x40 ws.length home s)

/-- The result of an ldf that proceeds reaches its window (03 R67). -/
def ldfArrive (w : Waiter) (home v : Nat) (bad : Option Nat) (s : State) : State :=
  let t := clearStall w.who s
  modCore w.who (fun x =>
    match x.windows.findIdx? (fun k => k.st == .waitTag home w.off w.va && k.pcw == w.pcw) with
    | some i =>
      match x.windows[i]? with
      | some k =>
        match bad with
        | some f => { x with windows := setAt i { k with st := .faulty f (wd w.va) } x.windows }
        | none =>
          let k2 := { k with xval := k.dx.map (fun r => (r, wd v)) }
          closeWins { deliverWin k2 x with windows := setAt i (arrivedWin k2) x.windows }
      | none => x
    | none => x) t

/-- One waiter proceeds on its word (03 R55, R65, R67). -/
def waiterGo (w : Waiter) (home : Nat) (s0 : State) : State :=
  let s := spCount home [w.off] s0
  match w.op with
  | .ste =>
    let t := tagPut home w.off true (spWrite (some w.who) home (bytesOf w.off w.val.toNat 8) s)
    let pop (x : CoreSt) (p : Nat) : CoreSt :=
      let q := x.ports.get {} p
      { x with ports := x.ports.put p { q with ret := q.ret.drop 1 } }
    retire w.who 4 t (modCore w.who (fun x => w.pops.foldl pop x) t)
  | .ldfE =>
    match spFault (coreOf s home) w.off 8 with
    | some f => ldfArrive w home 0 (some f) s
    | none => ldfArrive w home (spRead s home w.off 8) none (tagPut home w.off false (breakResv (some w.who) (spLine home w.off) s))
  | .ldfF => ldfArrive w home (spRead s home w.off 8) (spFault (coreOf s home) w.off 8) s

/-- Whether a full/empty operation can proceed on its tag (03 R65). -/
def feReady (op : FeOp) (full : Bool) : Bool :=
  match op with
  | .ldfE => full | .ldfF => full | .ste => !full

/-- The waiters of a word are examined in order until one cannot proceed (03 R67). -/
def examine : Nat → Nat → Nat → State → State
  | 0, _, _, s => s
  | k + 1, home, off, s =>
    match (coreOf s home).waiters.find? (fun w => w.off / 8 == off / 8) with
    | none => s
    | some w =>
      if feReady w.op (tagFull s home off) then
        let t := modCore home (fun x => { x with waiters := x.waiters.erase w }) s
        examine k home off (waiterGo w home t)
      else s

/-- A tag takes a value and its waiters are examined (03 R67). -/
def tagChange (home off : Nat) (f : Bool) (s : State) : State :=
  examine ((coreOf s home).waiters.length + 1) home off (tagPut home off f s)

/-- Waiting operations fail with a cause: a ste on itself, an ldf through its window (03 R49, R61; 18 R422). -/
def failWaiters (home cause : Nat) (p : Waiter → Bool) (s : State) : State :=
  let x := coreOf s home
  let ws := (x.waiters ++ x.nacked).filter p
  let s1 := setCore home { x with waiters := x.waiters.filter (fun w => !(p w)), nacked := x.nacked.filter (fun w => !(p w)) } s
  ws.foldl (fun t w =>
    modCore w.who (fun y =>
      match w.op with
      | .ste => { y with steFault := some (cause, wd w.va) }
      | _ => { y with windows := y.windows.map (fun k =>
          if k.st == .waitTag home w.off w.va && k.pcw == w.pcw then { k with st := .faulty cause (wd w.va) } else k) })
      (clearStall w.who t)) s1

/-- Removes the waiting operations of a core from every scratchpad: they leave no effect (18 R422; 17 R407). -/
def withdraw (c : Nat) (s : State) : State :=
  if s.cores.any (fun e => e.2.waiters.any (fun w => w.who == c) || e.2.nacked.any (fun w => w.who == c)) then
    { s with cores := s.cores.map (fun e => (e.1, { e.2 with
        waiters := e.2.waiters.filter (fun w => w.who != c)
        nacked := e.2.nacked.filter (fun w => w.who != c) })) }
  else s

/-! L1 lines and update-only copies. -/

/-- Whether a core's split is changing (03 R49). -/
def spBusy (s : State) (c : Nat) : Bool := bit (coreOf s c).spcfg.toNat 63 || (AList.find? s.dead (c / 128)).isSome

/-- Whether an access to a line by core c, or by an engine, waits at its home (04 R73, R74): the home's split changes, or earlier
stores to the line wait there. -/
def homeWaits (s : State) (c : Option Nat) (h line : Nat) : Bool := c != some h && (spBusy s h || (coreOf s h).remq.any (fun e => e.line == line))

/-- Whether a store of core c waits at a home (04 R73) or at the remote partition of its die (04 R84). -/
def parked (s : State) (c : Nat) : Bool :=
  s.cores.any (fun e => e.2.remq.any (fun r => r.who == c)) || (dieOf s (dOf c)).rpStores.any (fun r => r.who == c)

/-- The update-only copy that core c holds of a line (04 R79). -/
def copyOf (s : State) (c line : Nat) : Option UoCopy := (coreOf s c).copies.find? (fun k => k.line == line)

/-- The kind of a line of this module's memory (02 R22). -/
def lineKind (line : Nat) : Nat := (kindOfPa (line * 128)).getD 0

/-- Combines the touched elements of a copy into its line (04 R80, R81); the line's poison stays (05 R96). -/
def combineCopy (k : UoCopy) (s : State) : State :=
  let n := if k.dbl then 8 else 4
  let kind := lineKind k.line
  let t := rekey kind (k.line * 128) k.key s
  patchLine kind k.line k.key (k.data.flatMap (fun e =>
    bytesOf (e.1 * n) (combine k.op (8 * n) (bytesAt t kind k.key (k.line * 128 + e.1 * n) n) e.2) n)) t

/-- Core c gives up its copy, whose results go to the home (04 R80), which breaks every reservation of the line (06 R134). Log
107, DEDUCED, unsafe. -/
def takeCopy (c : Nat) (k : UoCopy) (s : State) : State :=
  let t := breakResv none k.line (combineCopy k s)
  let u := modCore c (fun x => { x with copies := x.copies.filter (fun j => j.line != k.line), l1 := x.l1.filter (fun l => l.line != k.line) }) t
  modCore k.home (fun x =>
    let l := x.sharers.map (fun h => if h.line = k.line then { h with cores := removeNat c h.cores } else h)
    { x with sharers := l.filter (fun h => !(h.cores.isEmpty)) }) u

/-- The home of a line with registered copies, and their cores (04 R79). -/
def sharersOf (s : State) (line : Nat) : Option (Nat × List Nat) :=
  s.cores.findSome? (fun e => (e.2.sharers.find? (fun h => h.line == line)).map (fun h => (e.1, h.cores)))

/-- A line puts itself in L1 as its most recently used (04 R71). -/
def l1Put (h : Nat) (e : L1Line) (s : State) : State := modCore h (fun x => { x with l1 := x.l1.filter (fun l => l.line != e.line) ++ [e] }) s

/-- The least recently used line of a full set, which another line makes leave (04 R71). -/
def l1Leaves (x : CoreSt) (line : Nat) : Option L1Line :=
  let sets := 256 * bits x.spcfg.toNat 3 0
  let mates := x.l1.filter (fun l => l.line != line && l.line % sets == line % sets)
  if mates.length < 8 then none else mates.head?

/-- A home line leaves L1: its copies are recalled first (04 R81), and a dirty line is written back (04 R72; 05 R100). -/
def l1Evict (h : Nat) (l : L1Line) (s : State) : State :=
  let pa := l.line * 128
  let kind := lineKind l.line
  let (t, wr) := match sharersOf s l.line with
    | some (home, cs) =>
      (count 0x53 cs.length home (cs.foldl (fun u c => match copyOf u c l.line with | some k => takeCopy c k u | none => u) s), true)
    | none => (s, l.dirty)
  let u := modCore h (fun x => { x with l1 := x.l1.filter (fun k => k.line != l.line) }) t
  if wr then touchParity kind pa (l2Access true (place u kind pa) u) else u

/-- A line enters L1 of core h (04 R71). What leaves its set is a home line, or an update-only copy that returns to its home
(04 R80), where the line enters L1 in turn. -/
def l1Enter : Nat → Nat → L1Line → State → State
  | 0, h, e, s => l1Put h e s
  | n + 1, h, e, s =>
    match l1Leaves (coreOf s h) e.line with
    | none => l1Put h e s
    | some v =>
      match copyOf s h v.line with
      | some k => l1Enter n k.home { line := v.line, dirty := true } (l1Put h e (takeCopy h k (touchLine (lineKind v.line) (v.line * 128) s)))
      | none => l1Put h e (l1Evict h v s)

/-- As many lines as may have to enter L1 in turn: every copy returns at most once. -/
def l1Fuel (s : State) : Nat := (s.cores.map (fun e => e.2.copies.length)).sum + 1

/-- An access to a line in its home's L1 (04 R71, R72): a miss fills the line from the owning die's L2. Log 7, DESIGN CHOICE,
unsafe. -/
def l1Touch (h line : Nat) (dirty : Bool) (s : State) : State :=
  match (coreOf s h).l1.find? (fun l => l.line == line && l.uo.isNone) with
  | some l => l1Put h { line := line, dirty := l.dirty || dirty } s
  | none => let t := touchLine (lineKind line) (line * 128) s; l1Enter (l1Fuel t) h { line := line, dirty := dirty } t

/-- Core c's copy of a line is returned to the home (04 R80). Log 107, DEDUCED, unsafe. -/
def returnCopy (c line : Nat) (s : State) : State :=
  match copyOf s c line with
  | none => s
  | some k =>
    let t := l1Touch k.home line true s
    match copyOf t c line with
    | none => t
    | some j => takeCopy c j t

/-- Every registered copy of a line is recalled, in ascending order of core (04 R81). Log 107, DEDUCED, unsafe. -/
def recallLine (line : Nat) (s : State) : State :=
  match sharersOf s line with
  | none => s
  | some (home, cs) => count 0x53 cs.length home (cs.foldl (fun t c => returnCopy c line t) s)

/-- A 64-byte line is used in the host-line cache (04 R87), exclusive for a write, an atomic or a reduction: the least recently
used line of a full set of 16 leaves; its set is the line's number modulo 65,536. Log 106, DESIGN CHOICE, unsafe. -/
def hlcTouch (line : Nat) (excl dirty : Bool) (s : State) : State :=
  let old := (s.hlc.find? (fun l => l.line == line)).getD { line := line, dirty := false, excl := false }
  let rest := s.hlc.filter (fun l => l.line != line)
  let mates := rest.filter (fun l => l.line % 65536 == line % 65536)
  let kept := if mates.length < 16 then rest else rest.filter (fun l => some l.line != mates.head?.map (fun m => m.line))
  { s with hlc := kept ++ [{ line := line, dirty := old.dirty || dirty, excl := old.excl || excl }] }

/-- Every 64-byte line of n bytes at a host address is used in the host-line cache. -/
def hlcRange (pa n : Nat) (excl dirty : Bool) (s : State) : State :=
  if n = 0 then s else forN ((pa + n - 1) / 64 + 1 - pa / 64) (fun i t => hlcTouch (pa / 64 + i) excl dirty t) s

/-! Fabric transactions and the remote partition. -/

/-- The module of a remote address (02 R22). -/
def modOf (pa : Nat) : Nat := bits pa 49 42
/-- Whether a module is in this module's yard (19 R431). -/
def sameYard (s : State) (m : Nat) : Bool := m / 32 == s.modIdx / 32

/-- A fabric transaction enters its stream (19 R433, R434): electrical ones are sent at once (R432). -/
def newTxn (stream dst tenant key addr : Nat) (op : TxnOp) (bytes path planes : Nat) (ack : Bool)
    (node : Option (Nat × Nat)) (core : Option Nat) (s : State) : State :=
  let t : Txn :=
    { id := s.txnId, src := s.modIdx, dst := dst, stream := stream, num := s.txnId, tenant := tenant, key := key
      addr := addr, op := op, left := if sameYard s dst then 0 else 1 + (bytes + 255) / 256, path := path
      planes := planes, ack := ack, node := node, core := core, gen := (clusterOf s (stream % 128)).mapgen
      nacks := 0, performed := false, relay := none, since := s.time, task := core.map (fun c => (coreOf s c).gtid) }
  { s with txns := s.txns ++ [t], txnId := s.txnId + 1 }

/-- Whether an address of this module reached through the loopback can be accessed under a key slot, or the cause
(02 R22, R43; 04 R86). -/
def loopFault (s : State) (pa key : Nat) : Option Nat :=
  let a := pa % 2 ^ 42
  match kindOfPa a with
  | none => some (xlCause 6 0xF)
  | some kind =>
    if !(populated s kind a) then some (xlCause 6 0xF)
    else if kind = 2 && inYard a then some 0x209
    else if (keyGenOf s key).isNone then some 0x208
    else if lineBad s kind a then some 0x601
    else none

/-- The byte of remote memory at an address (02 R22): this module's own through the loopback. -/
def remByte (s : State) (pa key : Nat) : Nat :=
  if modOf pa = s.modIdx then
    let a := pa % 2 ^ 42
    byteAt s ((kindOfPa a).getD 0) a ((keyGenOf s key).getD 0)
  else (s.remMem.read (remKey pa)).toNat

/-- Stores bytes of one line at its target module (19 R434); through the loopback in this module's own memory. -/
def remWrite (line key : Nat) (bs : AList Nat) (s : State) : State :=
  let pa := line * 128
  if modOf pa = s.modIdx then
    let a := pa % 2 ^ 42
    match loopFault s pa key with
    | some 0x601 => breakResv none (a / 128) (writeLine ((kindOfPa a).getD 0) (a / 128) ((keyGenOf s key).getD 0) bs (recallLine (a / 128) s))
    | some _ => countAll 0xC9 1 s
    | none => breakResv none (a / 128) (writeLine ((kindOfPa a).getD 0) (a / 128) ((keyGenOf s key).getD 0) bs (recallLine (a / 128) s))
  else
    { s with
      remMem := bs.foldl (fun m e => Memory.write (remKey (pa + e.1)) (BitVec.ofNat 8 e.2) m) s.remMem
      remBad := if bs.length = 128 then removeNat (remKey pa / 128) s.remBad else s.remBad }

/-- A write of a line's bytes leaves for its target: at once through the loopback, else as a transaction (02 R22; 04
R86). -/
def postWrite (c line key : Nat) (bs : AList Nat) (s : State) : State :=
  if modOf (line * 128) = s.modIdx then remWrite line key bs s
  else newTxn (clOf c) (modOf (line * 128)) (tenantOf (coreOf s c)) key (line * 128) (.write bs []) bs.length 0 0 true none (some c) s

/-- Whether a transaction of a core for a remote line is in flight (04 R86), or waits for one that is: FABRIC_TXN_ARRIVE
performs a second transaction of a line after the first's acknowledgement. -/
def rpPending (s : State) (d line : Nat) : Bool :=
  s.txns.any (fun t => t.src == s.modIdx && t.addr / 128 == line && t.core.any (fun c => dOf c == d))

/-- The dirty bytes of a line of the remote partition are written back (04 R86). -/
def rpWriteback (c : Nat) (l : RpLine) (s : State) : State :=
  if l.dirty.isEmpty then s else postWrite c l.line l.key (l.bytes.filter (fun e => l.dirty.contains e.1)) s

/-- A write-back that core c's acquire, release or eviction causes, which it counts (04 R92). -/
def rpCountback (c : Nat) (l : RpLine) (s : State) : State := if l.dirty.isEmpty then s else count 0x55 1 c (rpWriteback c l s)

/-- Capacity of a die's remote partition in lines (04 R84, R86). -/
def rpCap (d : DieSt) : Nat := bits d.l2cfg.toNat 5 0 * 8192

/-- Puts a line in the remote partition as its most recently used; the least recently used of a full set of 16 leaves (04 R86).
Log 7, DESIGN CHOICE, unsafe. -/
def rpPut (c : Nat) (l : RpLine) (s : State) : State :=
  let d := dOf c
  let x := dieOf s d
  let sets := rpCap x / 16
  let rest := x.rp.filter (fun k => k.line != l.line)
  let mates := rest.filter (fun k => k.line % sets == l.line % sets)
  if rpCap x = 0 then s
  else if mates.length < 16 then setDie d { x with rp := rest ++ [l] } s
  else
    match mates with
    | [] => s
    | v :: _ => rpCountback c v (setDie d { x with rp := rest.filter (fun k => k.line != v.line) ++ [l] } s)

/-- The line of the remote partition, if it holds it. -/
def rpFind (s : State) (d line : Nat) : Option RpLine := (dieOf s d).rp.find? (fun l => l.line == line)

/-- Bytes from an offset of a list of bytes. -/
def pickBytes (bs : AList Nat) (off : Nat) : Nat → Nat
  | 0 => 0
  | n + 1 => bs.get 0 off + 256 * pickBytes bs (off + 1) n

/-- What an operation code of 11 R255 stores, from the old value and its operands. -/
def amoNew (op w v new old : Nat) : Option Nat :=
  if op = 0 then some (v % 2 ^ w)
  else if op = 10 then (if old = v % 2 ^ w then some (new % 2 ^ w) else none)
  else if op = 11 then none
  else if op = 12 then some (v % 2 ^ w)
  else
    match RedOp.ofCode op with
    | some r => some (combine r w old v)
    | none => none

/-- What a transaction leaves of a line's bytes at its target (19 R434). -/
def txnBytes (line addr : Nat) (op : TxnOp) (bs : AList Nat) : AList Nat :=
  let put (v n : Nat) : AList Nat :=
    if addr / 128 = line then (bytesOf (addr % 128) v n).foldl (fun m e => AList.put e.1 e.2 m) bs else bs
  match op with
  | .write ws _ => ws.foldl (fun m e => if (addr + e.1) / 128 = line then AList.put ((addr + e.1) % 128) e.2 m else m) bs
  | .red op dbl v =>
    let n := if dbl then 8 else 4
    put (combine op (8 * n) (pickBytes bs (addr % 128) n) v) n
  | .amo op dbl v new =>
    let n := if dbl then 8 else 4
    match amoNew op (8 * n) v new (pickBytes bs (addr % 128) n) with
    | some w => put w n
    | none => bs
  | _ => bs

/-- The bytes of another module's line as a fetch on a stream finds them: after the stream's earlier transactions (19 R434).
Log 74, DEDUCED, unsafe. -/
def lineSeen (s : State) (stream line key : Nat) : AList Nat :=
  (s.txns.filter (fun t => t.src == s.modIdx && t.stream == stream && !t.performed)).foldl
    (fun bs t => txnBytes line t.addr t.op bs) ((List.range 128).map (fun i => (i, remByte s (line * 128 + i) key)))

/-- A line of this module that the loopback reads gathers its copies first (04 R81; 02 R22), and is read like any other (05
R95, R101, R105). -/
def loopRead (line : Nat) (s : State) : State :=
  let a := line * 128 % 2 ^ 42
  if modOf (line * 128) = s.modIdx then
    match kindOfPa a with
    | some kind => if populated s kind a && !(kind == 2 && inYard a) then touchLine kind a (recallLine (a / 128) s) else s
    | none => s
  else s

/-- Whether a die's partitions are being resized (04 R84). -/
def l2Busy (s : State) (d : Nat) : Bool := bit (dieOf s d).l2cfg.toNat 63

/-- Core c's die fetches a remote line (04 R86): what the partition holds of it stays over what comes. -/
def rpFetch (c line key : Nat) (old : RpLine) (s : State) : AList Nat × Option Nat × Option Nat × State :=
  let own := decide (modOf (line * 128) = s.modIdx)
  let t := count 0x54 1 c (loopRead line s)
  let bad := if own then loopFault t (line * 128) key else if t.remBad.contains (remKey (line * 128) / 128) then some 0x601 else none
  match bad with
  | some f => ([], none, some f, t)
  | none =>
    let bs := old.bytes.foldl (fun m e => AList.put e.1 e.2 m) (lineSeen t (clOf c) line key)
    let u := if own then t
      else newTxn (clOf c) (modOf (line * 128)) (tenantOf (coreOf s c)) key (line * 128) .fetch 0 0 0 true none (some c) t
    (bs, if own then none else some t.txnId, none, rpPut c { old with bytes := bs } u)

/-- The 128 bytes of a remote line as core c's die sees them after a load hit or a fetch (04 R86): the bytes, the fetch
transaction, and a fault of its target. Log 74, DEDUCED, unsafe. -/
def rpLoad (c line key : Nat) (s : State) : Except Exc (AList Nat × Option Nat × Option Nat × State) :=
  let d := dOf c
  let l := (rpFind s d line).getD { line := line, key := key, bytes := [], dirty := [], cyc := 0 }
  if l2Busy s d then .error (.stall 12 0)
  else if l.bytes.length = 128 then .ok (l.bytes, none, none, rpPut c l s)
  else if rpPending s d line then .error (.stall 12 0)
  else .ok (rpFetch c line key l s)

/-- A store of bytes of one remote line through the partition (04 R86): a store miss allocates. While the partition is resized
the store waits (04 R84). -/
def rpStore (c line key : Nat) (bs : AList Nat) (s : State) : State :=
  let d := dOf c
  let x := dieOf s d
  if l2Busy s d then
    setDie d { x with rpStores := x.rpStores ++ [{ line := line, kind := 4, key := key, bytes := bs, who := c }] } s
  else if rpCap x = 0 then postWrite c line key bs s
  else
    let add (l : RpLine) : RpLine :=
      { l with
        bytes := bs.foldl (fun m e => AList.put e.1 e.2 m) l.bytes
        dirty := bs.foldl (fun m e => insertNat e.1 m) l.dirty
        cyc := if l.dirty.isEmpty then x.cyc else l.cyc }
    match rpFind s d line with
    | some l => rpPut c (add l) s
    | none =>
      let l : RpLine := { line := line, key := key, bytes := [], dirty := [], cyc := x.cyc }
      if rpPending s d line then rpPut c (add l) s
      else
        match rpFetch c line key l s with
        | (b, _, none, t) => rpPut c (add { l with bytes := b }) t
        | (_, _, some _, t) => rpPut c (add l) t

/-- The lines of a die's remote partition become clean. -/
def rpClean (d : Nat) (s : State) : State := modDie d (fun x => { x with rp := x.rp.map (fun l => { l with dirty := [] }) }) s

/-- Every dirty byte of a die's remote partition is written back for an acquire or release of core c, which counts it; the lines
stay, clean (04 R86, R92). -/
def rpFlush (c : Nat) (s : State) : State := rpClean (dOf c) ((dieOf s (dOf c)).rp.foldl (fun u l => rpCountback c l u) s)

/-- Every dirty byte of a die's remote partition is written back for no core's acquire or release (04 R84, R86; 07 R148, R157). -/
def rpSend (c : Nat) (s : State) : State := rpClean (dOf c) ((dieOf s (dOf c)).rp.foldl (fun u l => rpWriteback c l u) s)

/-- Whether a write-back of a die awaits its acknowledgement (04 R86). -/
def rpBusy (s : State) (d : Nat) : Bool :=
  s.txns.any (fun t => t.src == s.modIdx && t.core.any (fun c => dOf c == d) &&
    (match t.op with | .write _ _ => true | _ => false))

/-- Every line of a die's remote partition is invalidated (04 R86). -/
def rpInvalidate (d : Nat) (s : State) : State := modDie d (fun x => { x with rp := [] }) s

/-! Stores and the combining buffer. -/

/-- Whether a transaction is a core's atomic or reduction at another module (04 R82; 11 R255, R258). -/
def isUpdate (s : State) (t : Txn) : Bool :=
  t.src == s.modIdx && t.core.isSome && (match t.op with | .amo _ _ _ _ => true | .red _ _ _ => true | _ => false)

/-- Atomics and reductions that a task has sent to other modules and that are not performed there (07 R148). -/
def gtidOut (s : State) (g : Word) : Bool := s.txns.any (fun t => isUpdate s t && t.task == some g)

/-- Atomics and reductions that core c or its task has sent to other modules and that are not performed there (06 R131; 07 R157). -/
def taskOut (s : State) (c : Nat) : Bool := s.txns.any (fun t => isUpdate s t && t.core == some c) || gtidOut s (coreOf s c).gtid

/-- The home of a buffered store when it is performed (02 R34). -/
def entryHome (s : State) (c : Nat) (e : ScbEntry) : Option Nat :=
  homeOf s e.tenant (clOf c) { kind := e.kind, pa := e.line * 128, key := 0, home := e.home }

/-- Bytes of one line of kind 0 to 2 are written where the line is served: at its home, after its copies have come back (04 R72,
R81), else at the owning die's L2. -/
def homeWrite (home : Option Nat) (kind line key : Nat) (bs : AList Nat) (s : State) : State :=
  let t := recallLine line s
  match home with
  | some h => putLine kind line key bs (l1Touch h line true t)
  | none => writeLine kind line key bs t

/-- A store to bytes of one line is performed (04 R72 to R74, R81, R86, R87): at the home, at L2, at the host-line cache
or in the remote partition. A store to a home whose split is changing waits there, and later ones to its line behind it (R73,
R74). -/
def performStore (c : Nat) (e : ScbEntry) (s : State) : State :=
  if e.kind = 3 then
    let t := e.bytes.foldl (fun u b =>
      let v : State := { u with hostMem := Memory.write ((e.line * 128 + b.1) % 2 ^ 50) (BitVec.ofNat 8 b.2) u.hostMem }
      hlcTouch ((e.line * 128 + b.1) / 64) true true v) s
    breakResv (some c) e.line t
  else if e.kind = 4 then breakResv (some c) e.line (rpStore c e.line e.key e.bytes s)
  else
    match entryHome s c e with
    | some h =>
      if homeWaits s (some c) h e.line then
        modCore h (fun x => { x with remq := x.remq ++ [{ line := e.line, kind := e.kind, key := e.key, bytes := e.bytes, who := c }] }) s
      else breakResv (some c) e.line (homeWrite (some h) e.kind e.line e.key e.bytes s)
    | none => breakResv (some c) e.line (homeWrite none e.kind e.line e.key e.bytes s)

/-- The oldest entry of a core's combining buffer drains (04 R85). -/
def drainOne (c : Nat) (s : State) : State :=
  match (coreOf s c).scb with
  | [] => s
  | e :: rest => performStore c e (modCore c (fun x => { x with scb := rest }) s)

/-- n entries of the combining buffer drain, in allocation order. -/
def drainN (c : Nat) : Nat → State → State
  | 0, s => s
  | n + 1, s => drainN c n (drainOne c s)

/-- The combining buffer drains (04 R85). -/
def drainAll (c : Nat) (s : State) : State := drainN c (coreOf s c).scb.length s

/-- The entries up to the one for a line drain, if the buffer holds one (04 R85). -/
def drainLine (c line : Nat) (s : State) : State :=
  match (coreOf s c).scb.findIdx? (fun e => e.line == line) with
  | some i => drainN c (i + 1) s
  | none => s

/-- A store enters the combining buffer: it joins its line's entry, or takes a new one after the oldest of a full buffer
has drained (04 R85). -/
def bufferStore (c : Nat) (e : ScbEntry) (s : State) : State :=
  let x := coreOf s c
  if x.scb.any (fun k => k.line == e.line && k.key == e.key) then
    setCore c { x with scb := x.scb.map (fun k =>
      if k.line == e.line && k.key == e.key then { k with bytes := e.bytes.foldl (fun m b => AList.put b.1 b.2 m) k.bytes } else k) } s
  else
    let t := if x.scb.length < 8 then s else drainOne c s
    modCore c (fun y => { y with scb := y.scb ++ [{ e with cyc := (dieOf s (dOf c)).cyc }] }) t

/-- A store of bytes of one line by a core (04 R72, R85; 03 R68): directly where the core is the home, in the scratchpad, else
through the combining buffer. Log 6, DEDUCED, unsafe. -/
def storeRef (c : Nat) (w : Who) (r : Ref) (bs : AList Nat) (s : State) : State :=
  if r.kind = 6 then
    spWrite (some c) (r.pa / 2 ^ 22) (bs.map (fun b => (r.pa % 2 ^ 22 / 128 * 128 + b.1, b.2))) s
  else
    let key := if r.kind ≤ 2 then (keyGenOf s r.key).getD 0 else r.key
    let e : ScbEntry := { line := r.pa / 128, kind := r.kind, key := key, home := r.home, tenant := w.tenant, bytes := bs, cyc := 0 }
    if homeOf s w.tenant w.cl r = some c then performStore c e s
    else bufferStore c e s

/-- The bytes of a load after the core's own combining buffer is seen (07 R154). -/
def overlay (x : CoreSt) (line off v : Nat) : Nat → Nat
  | 0 => 0
  | n + 1 =>
    let b := x.scb.foldl (fun a e => if e.line = line then (e.bytes.find? off).getD a else a) (v % 256)
    b + 256 * overlay x line (off + 1) (v / 256) n

/-- Whether the core's own combining buffer holds every byte of a line, which hides the line's poison from its loads (05 R96;
07 R154; DEDUCED, log 28). Log 28, DEDUCED, unsafe. -/
def ownWhole (x : CoreSt) (line : Nat) : Bool := x.scb.any (fun e => e.line == line && e.bytes.length == 128)

/-- Whether an access to a line waits at its home, if it has one (04 R73, R74). -/
def readWaits (s : State) (c : Option Nat) (home : Option Nat) (line : Nat) : Bool := home.any (fun h => homeWaits s c h line)

/-- A line of kind 0 to 2 is read where it is served, after its copies have come back (04 R72, R81): in its home's L1, else in the
owning die's L2 (04 R83). -/
def homeRead (home : Option Nat) (r : Ref) (s : State) : State :=
  let t := recallLine (r.pa / 128) s
  match home with
  | some h => l1Touch h (r.pa / 128) false t
  | none => touchLine r.kind r.pa t

/-- What a load of n bytes of one line returns (04 R72 to R74, R81, R86, R87; 05 R96; 20 R452): the value, a fault that
arrives with it, the transaction that fetches it, and the state; or a stall at a home whose split is changing. Log 6, DEDUCED,
unsafe; log 28, DEDUCED, unsafe. -/
def loadRef (c : Nat) (w : Who) (r : Ref) (n : Nat) (s : State) : Except Exc (Nat × Option Nat × Option Nat × State) :=
  if r.kind = 6 then
    let home := r.pa / 2 ^ 22
    let off := r.pa % 2 ^ 22
    if home ≠ c ∧ spBusy s home = true then .error (.stall 12 0)
    else .ok (spRead s home off n, spFault (coreOf s home) off n, none, s)
  else if r.kind = 3 then
    let v := Memory.readN s.hostMem (r.pa % 2 ^ 50) n
    .ok (overlay (coreOf s c) (r.pa / 128) (r.pa % 128) v n, none, none, hlcRange r.pa n false false s)
  else if r.kind = 4 then
    match rpLoad c (r.pa / 128) r.key s with
    | .error e => .error e
    | .ok (bs, txn, bad, t) =>
      .ok (overlay (coreOf s c) (r.pa / 128) (r.pa % 128) (pickBytes bs (r.pa % 128) n) n,
        if ownWhole (coreOf s c) (r.pa / 128) then none else bad, txn, t)
  else
    let home := homeOf s w.tenant w.cl r
    let gen := (keyGenOf s r.key).getD 0
    let line := r.pa / 128
    let go (u : State) : Except Exc (Nat × Option Nat × Option Nat × State) :=
      .ok (overlay (coreOf s c) line (r.pa % 128) (bytesAt u r.kind gen r.pa n) n,
        if lineBad u r.kind r.pa && !(ownWhole (coreOf s c) line) then some 0x601 else none, none, u)
    if readWaits s (some c) home line then .error (.stall 12 0) else go (homeRead home r s)

/-- Whether an access is a remote one: another core's scratchpad, a line homed at another core, or a host line (04 R74,
R87), with the line or scratchpad word that one remote access carries. -/
def remoteUnit (s : State) (c : Nat) (w : Who) (tile : Bool) (r : Ref) : Option Nat :=
  if r.kind = 6 then
    (if r.pa / 2 ^ 22 = c then none else some (2 ^ 50 + (if tile then r.pa / 8 else r.pa)))
  else if r.kind = 3 then some (if tile then r.pa / 128 else r.pa)
  else
    match homeOf s w.tenant w.cl r with
    | some h => if h = c then none else some (if tile then r.pa / 128 else r.pa)
    | none => none

/-- The core that serves an access: a scratchpad's, or a line's home (02 R26, R34). -/
def servedAt (s : State) (w : Who) (r : Ref) : Option Nat := if r.kind = 6 then some (r.pa / 2 ^ 22) else homeOf s w.tenant w.cl r

/-- Counts the remote accesses of one instruction (04 R92); in other clusters they are events of the job (17 R410). -/
def countRemote (c : Nat) (w : Who) (tile : Bool) (refs : List Ref) (s : State) : State :=
  let units := (refs.filterMap (remoteUnit s c w tile)).eraseDups
  let t := if units.isEmpty then s else count 0x50 units.length c s
  (((refs.filterMap (servedAt s w)).map clOf).eraseDups.filter (fun k => k != clOf c)).foldl (fun u k => trafficAt k u) t

/-- Counts the scratchpad bank-word accesses of one instruction, scratchpad by scratchpad (03 R55). -/
def countPads (refs : List Ref) (s : State) : State :=
  ((refs.filter (fun r => r.kind == 6)).map (fun r => r.pa / 2 ^ 22)).eraseDups.foldl (fun u h =>
    spCount h ((refs.filter (fun r => r.kind == 6 && r.pa / 2 ^ 22 == h)).map (fun r => r.pa % 2 ^ 22)) u) s

/-- Counts the remote accesses and the scratchpad bank-word accesses of one instruction (04 R92; 03 R55). -/
def countAccess (c : Nat) (w : Who) (tile : Bool) (refs : List Ref) (s : State) : State := countPads refs (countRemote c w tile refs s)

/-! Ordering operations. -/

/-- What a release does before it is performed, or a fence with such a predecessor (04 R85, R86; 07 R151): the combining
buffer drains, and at scope .s the remote partition is written back and acknowledged, and the atomics and reductions sent to
other modules are performed there (06 R131). An acquire applies the log of the die (02 R38) and at scope .s empties the remote
partition. The answer says whether all of it is done. -/
def orderTry (c : Nat) (acq rel fence drain : Bool) (sc : Scope) (s : State) : State × Bool :=
  let d := dOf c
  let s1 := if drain then drainAll c s else s
  let wide := decide (4 ≤ sc.code)
  let s2 := if wide && (acq || fence) then ilApply d s1 else s1
  let s3 := if sc = .s && (acq || rel) then rpFlush c s2 else s2
  let waits := (drain && parked s3 c) || (sc = .s && (((acq || rel) && rpBusy s3 d) || ((rel || fence) && taskOut s3 c))) ||
    (wide && (acq || fence) && !(ilClean s3 d))
  (if !waits && sc = .s && acq then rpInvalidate d s3 else s3, !waits)

/-- An ordering of the running instruction of core c: the core stalls until it is done. -/
def orderOp (c : Nat) (acq rel fence drain : Bool) (sc : Scope) (s : State) : Except Exc State :=
  match orderTry c acq rel fence drain sc s with
  | (t, true) => .ok t
  | (t, false) => .error (.leave (modCore c (fun x => { x with rpWait := decide (sc = .s) }) (setStall c 12 0 t)))

/-- What a task's last stores and its core's log need before it leaves the core (06 R116; 04 R77, R85): none while it must
wait. -/
def leaveReady (c : Nat) (s : State) : State × Bool :=
  let t := ilApply (dOf c) (drainAll c s)
  (t, !(parked t c) && ilClean t (dOf c))

/-! Taking a trap. -/

/-- The record of an open window in LAW (18 R421, R422). -/
def lawWord (w : Window) : Word :=
  let replay := match w.st with | .arrived => false | _ => true
  wd (2 ^ 63 + b2n replay * 2 ^ 62 + w.remain % 16 * 2 ^ 58 + w.pcw / 4 % 2 ^ 55)

/-- Writes LAW0 to LAW3 from a list of records. -/
def putLaws (l : List Word) (x : CoreSt) : CoreSt :=
  { x with law0 := l.getD 0 0, law1 := l.getD 1 0, law2 := l.getD 2 0, law3 := l.getD 3 0 }

/-- The fault that a window carries, the oldest first (18 R422). -/
def windowFault (x : CoreSt) : Option (Nat × Word) :=
  x.windows.findSome? (fun w => match w.st with | .faulty c v => some (c, v) | _ => none)

/-- Resolves the open windows (18 R422): results are delivered, waiting ldf are withdrawn, what stays open is recorded in
LAW, followed by the records that an eret has not yet reopened (R423). -/
def resolveWins (c : Nat) (s : State) : State :=
  modCore c (fun x =>
    let y := deliverAll x
    { putLaws (y.windows.map lawWord ++ x.redo) y with windows := [], redo := [], ereting := false }) (withdraw c s)

/-- The address a trap of a class enters (18 R415). -/
def handlerPc (x : CoreSt) (cause : Nat) : Word := wd (x.tvec.toNat / 256 * 256 + 16 * (cause / 256 % 16))

/-- STATUS after trap entry (18 R415): PPRIV takes PRIV, PIE takes IE, PRIV and INH are set and IE is cleared. -/
def trapStatus (st : Word) : Word :=
  let v := st.toNat
  wd (v / 32 * 32 + 16 + b2n (bit v 2) * 8 + b2n (bit v 0) * 2 + 1)

/-- The host queues with a resident barn that holds a cluster (18 R419). -/
def queuesOf (s : State) (cl : Nat) : List Nat :=
  ((s.barns.filter (fun b => b.st == .resident && b.clusters.contains cl)).map (fun b => b.q)).eraseDups

/-- Raises a queue's host interrupt. -/
def raiseIrq (q : Nat) (s : State) : State := { s with queues := s.queues.put q { s.queues.get {} q with irq := (s.queues.get {} q).irq + 1 } }

/-- Whether a trap still waits for the results of open windows (18 R422): those of the fabric, and as a double trap, which
stops the core as halt does, those of a waiting ldf too (18 R419; 10 R242). -/
def trapWaits (x : CoreSt) : Bool :=
  x.windows.any (fun w => match w.st with | .waitTxn _ => true | .waitTag .. => bit x.status.toNat 4 | _ => false)

/-- A double trap (18 R419): CAUSE, EPC and TVAL are written, DBL is set, and the core stops at the handler's address in
supervisor mode. Its windows have their results and end, and its reservation is gone (06 R134). Log 61, DEDUCED, unsafe. -/
def doubleTrap (c cause : Nat) (tval epc : Word) (s : State) : State :=
  let t := modCore c (fun x =>
    { deliverAll x with
      cause := wd (cause % 2 ^ 12)
      tval := tval
      epc := wd (epc.toNat / 4 * 4)
      status := x.status ||| 0x21
      pc := handlerPc x cause
      windows := []
      redo := []
      ereting := false
      resv := none }) (drainAll c s)
  (queuesOf s (clOf c)).foldl (fun u q => raiseIrq q u) (setRun c .stopped t)

/-- A detected error in the innermost domain of core c's task (20 R451, R454): it awaits its rollback. -/
def domError (c cause : Nat) (s : State) : State :=
  let id := domainOf (coreOf s c)
  { s with doms := s.doms.map (fun e =>
      if e.2.id = id ∧ e.2.err = none then (e.1, { e.2 with err := some cause }) else e) }

/-- Whether a domain is open under an id. -/
def domOpen (s : State) (id : Nat) : Bool := s.doms.any (fun e => e.2.id == id)

/-- Trap entry (18 R414, R415). The cause word holds ASYNC and ENGINE in bits 63 and 62. -/
def enterTrap (c : Nat) (causeW : Nat) (tval epc : Word) (s : State) : State :=
  let s1 := drainAll c (resolveWins c s)
  setRun c .running (modCore c (fun x =>
    { x with
      cause := wd (bits causeW 63 62 * 2 ^ 62 + causeW % 2 ^ 12)
      epc := wd (epc.toNat / 4 * 4)
      tval := tval
      status := trapStatus x.status
      pc := handlerPc x causeW
      resv := none
      steFault := none
      rpWait := false
      barArrived := false
      sendReq := .none
      leaseReq := .none
      gangWait := 0
      logSeq := none }) s1)

/-- A shadow divergence is counted (20 R451, R465; 21 R472): the unit is 2 * core, and one more for the tile unit. -/
def noteDivergence (c cause : Nat) (s : State) : State :=
  if cause = 0x610 ∨ cause = 0x611 then
    let u := 2 * c + cause % 16
    let t := countDie 0xD0 1 (dOf c) (modCore c (fun x => { x with fpDiv := false }) s)
    { t with lifetime := { t.lifetime with shadow := t.lifetime.shadow.put u (t.lifetime.shadow.get 0 u + 1) } }
  else s

/-- A synchronous fault on core c (18 R414, R419, R422; 20 R451): a fault that a window carries is taken in its place, a class
6 fault of a task in a domain is the domain's error, and a fault while INH is set stops the core. Log 43, DEDUCED, unsafe. -/
def takeTrap (c cause : Nat) (tval epc : Word) (s : State) : State :=
  let x := coreOf s c
  if trapWaits x then setStall c 12 0 s
  else
    let (ca, tv, ep) := match windowFault x with
      | some (k, v) => (k, v, x.pc)
      | none => (cause, tval, epc)
    let t := noteDivergence c ca s
    if ca / 256 = 6 ∧ !(isSup x) ∧ domainOf x ≠ 0 ∧ domOpen s (domainOf x) then setStall c 12 0 (domError c ca t)
    else if bit x.status.toNat 4 then doubleTrap c ca tv ep t
    else enterTrap c ca tv ep t

/-- What an instruction of n bytes leaves: completed, trapped with no other effect, stalled, or the task gone from its
core (18 R414). -/
def finish (n : Nat) (s : State) (r : Except Exc State) : Host.Outcome State Fault Refusal :=
  match r with
  | .ok t => .next (retire s.cur n s t)
  | .error (.trap cause tval) => .next (takeTrap s.cur cause tval (me s).pc s)
  | .error (.stall what operand lost) => .next (setStallAs s.cur what operand lost s)
  | .error (.leave t) => .next t

/-- An instruction's length: a prefix makes a pair of 8 bytes (09 R195). -/
def lenOf (p : Option Pfx) : Nat := if p.isSome then 8 else 4

/-- Turns a cause into a trap on an address. -/
def orTrap {α : Type} (va : Nat) (r : Except Nat α) : Except Exc α :=
  match r with
  | .ok a => .ok a
  | .error c => .error (.trap c (wd va))

end Sys2Proof.Machine
end

