-- ==== Sys2Proof/Machine/Ports.lean ====
section
/-!
DEFINITION. The queue ports (15 R343 to R348): the fields of command words (09 R202 to R204; 14 R327 to R340; 15 R356 to
R364), acceptance, nodes, and reads.
-/

noncomputable section

namespace Sys2Proof.Machine

open Sys2Proof

/-- The header of a command, if its fields are valid (09 R202, R203; 03 R63; 15 R346, R348). -/
def hdrOf (w : Nat) : Option Hdr :=
  match Scope.ofCode (bits w 34 32) with
  | none => none
  | some sc =>
    let succ := bits w 19 0
    let cidx := bits w 31 20
    let succOk :=
      if bit w 19 then decide (bits w 18 12 = 0) && decide (1 ≤ bits w 11 0) && decide (bits w 11 0 ≤ 2175)
      else if bit w 18 then decide (bits w 17 10 = 0)
      else decide (bits w 17 0 = 0)
    if decide (cidx ≤ 2175) && succOk then
      some { pred := bits w 53 48, rtag := bits w 47 40, giveback := bit w 39, fill := bit w 38, rack := bit w 37
             cdscoped := bit w 36, traperr := bit w 35, cscope := sc, cidx := cidx, succ := succ }
    else none

/-- Sign extension of VA[56:0] (15 R356). -/
def va57 (v : Nat) : Nat := if bit v 56 then v % 2 ^ 57 + 127 * 2 ^ 57 else v % 2 ^ 57

/-- A scratchpad span (15 R356). -/
def spxOf (w : Nat) : Option Spx :=
  if bits w 16 0 = 0 then some { core := bits w 63 61, off := bits w 60 39, len := bits w 38 17 } else none

/-- A location (15 R356). -/
def locOf (w : Nat) : Option Loc :=
  if bit w 63 then (if bits w 37 0 = 0 then some (.spad (bits w 62 60) (bits w 59 38)) else none)
  else if bits w 62 57 = 0 then some (.glob (va57 (bits w 56 0)))
  else none

/-- The formats a latch line may hold (14 R325, R340). -/
def latchFmt (n : Nat) : Option Fmt :=
  match Fmt.ofCode n with
  | some f => if f = .f32 ∨ f = .i32 ∨ f = .i16 ∨ f = .ui32 ∨ f = .ui16 then none else some f
  | none => none

/-- The operands that mx.densa, mx.ldb and mx.gatha share (14 R327). -/
def mxLoadOf (a b : Nat) : Option MxLoad :=
  match latchFmt (bits b 14 11) with
  | none => none
  | some f =>
    if decide (bits a 8 0 = 0) && decide (bits b 63 39 = 0) && decide (bits b 9 0 = 0) &&
        decide (bits b 28 22 + (bits b 21 15 + 1) ≤ 128) then
      some { core := bits a 63 61, off := bits a 60 39, stride := bits a 38 19, kcnt := bits a 18 9 + 1
             koff := bits b 38 29, row0 := bits b 28 22, cnt := bits b 21 15 + 1, fmt := f, bank := bit b 10 }
    else none

/-- A matrix command (14 R327 to R340). -/
def mxCommand (h : Hdr) (eop len : Nat) (d : Nat → Nat) : Option Instr :=
  if eop = 0x10 ∧ len = 1 then
    (if bits (d 1) 63 2 = 0 then some (.mxZero h (bit (d 1) 1) (bit (d 1) 0)) else none)
  else if eop = 0x11 ∧ len = 2 then (mxLoadOf (d 1) (d 2)).map (fun l => .mxLdb h l)
  else if eop = 0x13 ∧ len = 2 then (mxLoadOf (d 1) (d 2)).map (fun l => .mxDensa h l)
  else if eop = 0x12 ∧ len = 3 then
    (if bits (d 3) 38 0 = 0 then (mxLoadOf (d 1) (d 2)).map (fun l => .mxGatha h l (bits (d 3) 63 61) (bits (d 3) 60 39))
     else none)
  else if eop = 0x14 ∧ len = 3 then
    (match latchFmt (bits (d 3) 10 7) with
      | some f =>
        if !(bit (d 1) 10) && decide (bits (d 3) 6 0 = 0) then
          some (.mxCsrb h (va57 (bits (d 1) 63 11 * 16)) (va57 (bits (d 2) 63 11 * 16)) (va57 (bits (d 3) 63 11 * 16))
            (bits (d 1) 9 0 + 1) (bits (d 2) 9 0) (bit (d 2) 10) f)
        else none
      | none => none)
  else if eop = 0x15 ∧ len = 1 then
    (if bits (d 1) 63 46 = 0 ∧ bits (d 1) 9 0 = 0 then
      some (.mxRun h (bits (d 1) 45 36 + 1) (bits (d 1) 35 26) (bit (d 1) 25) (bit (d 1) 24) (bits (d 1) 23 17 + 1)
        (bits (d 1) 16 10 + 1))
     else none)
  else if eop = 0x16 ∧ len = 2 then
    (let dst := bit (d 1) 63
     if bits (d 1) 62 44 = 0 ∧ bits (d 1) 3 0 = 0 ∧ bits (d 1) 9 7 ≠ 6 ∧ (dst = true ∨ bits (d 2) 63 25 = 0) then
      some (.mxDrain h { dst := dst, stride := bits (d 1) 43 24, m := bits (d 1) 23 17 + 1, n := bits (d 1) 16 10 + 1
                         rm := Fin.ofNat 8 (bits (d 1) 9 7), sat := bit (d 1) 6, int32 := bit (d 1) 5
                         clr := bit (d 1) 4, addr := d 2 })
     else none)
  else if eop = 0x17 ∧ len = 1 then
    (if bits (d 1) 62 25 = 0 then some (.mxStat h (bit (d 1) 63) (bits (d 1) 24 22) (bits (d 1) 21 0)) else none)
  else none

/-- PATH and PLANES of a remote copy command (15 R360). -/
def pathOf (w : Nat) : Option (Fin 3) := if bits w 47 46 < 3 then some (Fin.ofNat 3 (bits w 47 46)) else none

/-- A copy command (15 R360). -/
def cpCommand (h : Hdr) (eop len : Nat) (d : Nat → Nat) : Option Instr :=
  let va (i : Nat) : Nat := va57 (bits (d i) 63 7)
  if (eop = 0x20 ∨ eop = 0x21) ∧ len = 2 then
    (if bits (d 1) 6 0 = 0 then
      (spxOf (d 2)).map (fun x => if eop = 0x20 then .cpG2s h (va 1) x else .cpS2g h (va 1) x)
     else none)
  else if eop = 0x22 ∧ len = 2 then
    (if bits (d 2) 31 0 = 0 then
      (spxOf (d 1)).map (fun x => .cpS2s h x (bits (d 2) 63 61) (bits (d 2) 60 57) (bits (d 2) 56 54) (bits (d 2) 53 32))
     else none)
  else if eop = 0x23 ∧ len = 3 then
    (if bits (d 1) 5 0 = 0 then
      (spxOf (d 2)).map (fun x => .cp2d h (va 1) (bit (d 1) 6) x (sx 32 (bits (d 3) 63 32)) (bits (d 3) 31 10) (bits (d 3) 9 0 + 1))
     else none)
  else if eop = 0x24 ∧ len = 3 then
    (if bits (d 1) 6 0 = 0 ∧ bits (d 3) 22 0 = 0 then
      (spxOf (d 2)).map (fun x => .cpGath h (va 1) x (bits (d 3) 63 61) (bits (d 3) 60 39) (bits (d 3) 38 23 + 1))
     else none)
  else if (eop = 0x25 ∨ eop = 0x26) ∧ len = 3 then
    (match spxOf (d 2), pathOf (d 3) with
      | some x, some p =>
        if bits (d 1) 6 0 = 0 ∧ bits (d 3) 45 0 = 0 then
          some (if eop = 0x25 then .cpRget h (va 1) x (bits (d 3) 63 48) p else .cpRput h (va 1) x (bits (d 3) 63 48) p)
        else none
      | _, _ => none)
  else if eop = 0x27 ∧ len = 3 then
    (match spxOf (d 2), pathOf (d 3), RedOp.ofCode (bits (d 3) 45 42) with
      | some x, some p, some op =>
        if bits (d 1) 6 0 = 0 ∧ bits (d 3) 40 0 = 0 ∧ (op = .fadd → bit (d 3) 41 = false) then
          some (.cpRred h (va 1) x (bits (d 3) 63 48) p op (bit (d 3) 41))
        else none
      | _, _, _ => none)
  else if eop = 0x28 ∧ len = 3 then
    (if bits (d 1) 6 0 = 0 ∧ bits (d 2) 6 0 = 0 ∧ bits (d 3) 29 0 = 0 then
      some (.cpCk h (va 1) (va 2) (bits (d 3) 63 30))
     else none)
  else if eop = 0x29 ∧ len = 0 then some (.cpNop h)
  else none

/-- A histogram command (15 R362). -/
def hgCommand (h : Hdr) (eop len : Nat) (d : Nat → Nat) : Option Instr :=
  if eop = 0x40 ∧ len = 1 then
    (if bits (d 1) 16 0 = 0 then some (.hgCount h (bits (d 1) 63 61) (bits (d 1) 60 39) (bits (d 1) 38 17)) else none)
  else if eop = 0x41 ∧ len = 2 then
    (let n := bits (d 1) 53 44 + 1
     if bits (d 1) 41 32 = 0 ∧ bits (d 2) 38 0 = 0 ∧ bits (d 1) 63 54 + n ≤ 1024 ∧ (bit (d 1) 42 = true ∨ d 2 = 0) then
      some (.hgLatch h (bits (d 1) 63 54) n (bit (d 1) 43) (bit (d 1) 42) (bits (d 1) 31 0) (bits (d 2) 63 61) (bits (d 2) 60 39))
     else none)
  else if eop = 0x42 ∧ len = 0 then some (.hgClear h)
  else none

/-- A base-die command (15 R364). -/
def bdCommand (h : Hdr) (eop len : Nat) (d : Nat → Nat) : Option Instr :=
  if len ≠ 3 then none
  else
    let w := d 3
    if eop = 0x53 then
      (match locOf (d 1), locOf (d 2) with
        | some a, some b => if bits w 28 0 = 0 then some (.bdCopy h a b (bits w 63 30) (bit w 29)) else none
        | _, _ => none)
    else if eop = 0x50 then
      (match locOf (d 1), locOf (d 2) with
        | some a, some b =>
          if bits w 6 0 = 0 ∧ 1 ≤ bits w 22 8 then
            some (.bdGath h a b (bits w 63 61) (bits w 60 39) (bits w 38 23 + 1) (bits w 22 8) (bit w 7))
          else none
        | _, _ => none)
    else if eop = 0x51 then
      (match locOf (d 1), locOf (d 2), Fmt.ofCode (bits w 11 8) with
        | some a, some b, some f =>
          if bits w 2 0 = 0 ∧ bits w 7 5 ≠ 6 ∧ (f = .f32 ∨ f = .bf16 ∨ f = .f16 ∨ f = .i32 ∨ f = .ui32) then
            some (.bdRed h a b (bits w 63 56 + 1) (bits w 55 32) (bits w 31 12 + 1) f (Fin.ofNat 8 (bits w 7 5)) (bit w 4) (bit w 3))
          else none
        | _, _, _ => none)
    else if eop = 0x52 then
      (match locOf (d 1), locOf (d 2), Fmt.ofCode (bits w 63 60), Fmt.ofCode (bits w 59 56) with
        | some a, some b, some f, some g =>
          if bits w 26 0 = 0 ∧ bits w 55 53 ≠ 6 then
            some (.bdCvt h a b f g (Fin.ofNat 8 (bits w 55 53)) (bit w 52) (bits w 51 28 + 1) (bit w 27))
          else none
        | _, _, _, _ => none)
    else none

/-- The command a port reads from its dwords; none where it refuses them with the invalid-field status (15 R346). Ports
are 0 cq, 1 mq, 2 hq and 3 bq (18 R425). -/
def commandOf (port : Nat) (ws : List Word) : Option Instr :=
  let d (i : Nat) : Nat := (ws.getD i 0).toNat
  match hdrOf (d 0) with
  | none => none
  | some h =>
    let eop := bits (d 0) 63 56
    let len := bits (d 0) 55 54
    if port = 0 then cpCommand h eop len d
    else if port = 1 then mxCommand h eop len d
    else if port = 2 then hgCommand h eop len d
    else bdCommand h eop len d

/-- The header of a command. -/
def cmdHdr : Instr → Hdr
  | .mxZero h _ _ => h | .mxLdb h _ => h | .mxGatha h _ _ _ => h | .mxDensa h _ => h
  | .mxCsrb h _ _ _ _ _ _ _ => h | .mxRun h _ _ _ _ _ _ => h | .mxDrain h _ => h | .mxStat h _ _ _ => h
  | .cpG2s h _ _ => h | .cpS2g h _ _ => h | .cpS2s h _ _ _ _ _ => h | .cp2d h _ _ _ _ _ _ => h
  | .cpGath h _ _ _ _ _ => h | .cpRget h _ _ _ _ => h | .cpRput h _ _ _ _ => h | .cpRred h _ _ _ _ _ _ => h
  | .cpCk h _ _ _ => h | .cpNop h => h
  | .hgCount h _ _ _ => h | .hgLatch h _ _ _ _ _ _ _ => h | .hgClear h => h
  | .bdGath h _ _ _ _ _ _ _ => h | .bdRed h _ _ _ _ _ _ _ _ _ => h | .bdCvt h _ _ _ _ _ _ _ _ => h
  | .bdCopy h _ _ _ _ => h
  | _ => { pred := 0, rtag := 0, giveback := false, fill := false, rack := false, cdscoped := false, traperr := false
           cscope := .c, cidx := 0, succ := 0 }

/-- The successors a SUCC field names, the list dword being read from the pushing core's sync tile (15 R348); none where
the list dword's reserved field is not 0. -/
def succsOf (x : CoreSt) (succ : Nat) : Option (List Nat) :=
  if bit succ 19 then
    let w := Memory.readN x.sp (8 * bits succ 11 0) 8
    if bits w 63 44 ≠ 0 then none
    else some ((List.range 4).filterMap (fun k => if bit w (40 + k) then some (bits w (10 * k + 9) (10 * k)) else none))
  else if bit succ 18 then some [bits succ 9 0]
  else some []

/-- The lease of a core, if its task holds one (14 R319). -/
def leaseOf (s : State) (c : Nat) : Option Lease :=
  (clusterOf s (clOf c)).leases.find? (fun l => l.core == c && l.gtid == (coreOf s c).gtid)

/-- The free node ids of a cluster's graph (15 R347). -/
def freeNodes (k : ClusterSt) : List Nat := (List.range 1024).filter (fun i => (k.nodes.find? i).isNone)

/-- Appends a return word (15 R343). -/
def putReturn (c port status node : Nat) (s : State) : State :=
  modCore c (fun x =>
    let p := x.ports.get {} port
    { x with ports := x.ports.put port { part := [], ret := p.ret ++ [wd (status * 2 ^ 56 + node)] } }) s

/-- Whether a port refuses every header, as in reduced service (21 R470). -/
def portReduced (s : State) (port : Nat) : Bool := reducedService s && (port == 1 || port == 3)

/-- The last dword of a command arrives: the checks of 15 R343 and R346, and the node of an accepted command. -/
def acceptCommand (c port : Nat) (ws : List Word) (s : State) : State :=
  let x := coreOf s c
  let cl := clOf c
  match (if portReduced s port then none else commandOf port ws) with
  | none => putReturn c port 1 0 s
  | some i =>
    let h := cmdHdr i
    match succsOf x h.succ with
    | none => putReturn c port 1 0 s
    | some succs =>
      if port = 1 ∧ (leaseOf s c).isNone then putReturn c port 2 0 s
      else
        let k := clusterOf s cl
        let free := freeNodes k
        let id := free.getD (Config.nodeChoice s.free % free.length) 0
        let n : Node :=
          { cmd := i, port := port, core := c, gtid := x.gtid, dom := domainOf x, tenant := tenantOf x, sup := isSup x
            frm := bits x.fcsr.toNat 7 5, st := if h.pred = 0 then .ready else .waiting, count := h.pred
            pushedAt := k.stamp, pushCyc := (dieOf s (dOf c)).cyc, readyCyc := (dieOf s (dOf c)).cyc, succs := succs, cancel := none
            done := false, err := none, tiles := [], dsts := [], order := 0, vpns := [] }
        putReturn c port 0 id
          { setCluster cl { k with nodes := k.nodes.put id n, stamp := k.stamp + 1 } s with free := s.free + 1 }

/-- The flits of a stream that wait to be sent, up to and with a transaction (19 R434). -/
def streamQueue (s : State) (t : Txn) : Nat :=
  ((s.txns.filter (fun u => u.src == t.src && u.dst == t.dst && u.stream == t.stream && decide (u.num ≤ t.num))).map (fun u => u.left)).sum

/-- Whether a node's remote traffic is not yet done for its completion (07 R149; 19 R434): what must be acknowledged is not,
or a posted flit is not in the send queue, which takes 2,048 flits of a stream. -/
def nodeBusy (s : State) (cl id : Nat) : Bool :=
  s.txns.any (fun t => t.node == some (cl, id) && (t.ack || decide (2048 < streamQueue s t)))

/-- The poison that the port meets when it reads the SUCC list of a command (05 R96; 15 R348; 20 R452): a command that it refuses for
its own fields, or whose list index lies outside the sync tile, has no list that is read (15 R346). -/
def succPoison (c : Nat) (ws : List Word) (port : Nat) (s : State) : Option (Nat × Nat) :=
  let succ := bits (ws.headD 0).toNat 19 0
  if bit succ 19 = false ∨ portReduced s port = true ∨ (commandOf port ws).isNone = true then none
  else (spFault (coreOf s c) (8 * bits succ 11 0) 8).map (fun k => (k, windowVa c (8 * bits succ 11 0)))

/-- A dword is pushed to a port (15 R343, R344): a last dword stalls while 16 return words are unread or no node is
free. -/
def pushPort (c port : Nat) (v : Word) (s : State) : Except Exc State :=
  let x := coreOf s c
  let p := x.ports.get {} port
  let ws := p.part ++ [v]
  if ws.length < bits (ws.headD 0).toNat 55 54 + 1 then
    .ok (setCore c { x with ports := x.ports.put port { p with part := ws } } s)
  else if 16 ≤ p.ret.length ∨ 1024 ≤ (clusterOf s (clOf c)).nodes.length then .error (.stall 2 (wd port) 0xB3)
  else
    match succPoison c ws port s with
    | some (k, va) => .error (.trap k (wd va))
    | none => .ok (acceptCommand c port ws s)

/-- A dword is read from a port (15 R344). -/
def popPort (c port : Nat) (s : State) : Except Exc (Word × State) :=
  let x := coreOf s c
  let p := x.ports.get {} port
  if p.part ≠ [] then .error (.trap 0x401 0)
  else
    match p.ret with
    | [] => .error (.stall 2 (wd port))
    | w :: rest => .ok (w, setCore c { x with ports := x.ports.put port { p with ret := rest } } s)

/-- Commands a core pushed to a port that are not complete (15 R345). Log 33, DEDUCED, unsafe. -/
def outCount (s : State) (c port : Nat) : Nat :=
  ((clusterOf s (clOf c)).nodes.filter (fun n => n.2.core == c && n.2.port == port)).length

end Sys2Proof.Machine

end
end

