-- ==== Sys2Proof/Machine/Operands.lean ====
section
/-!
DEFINITION. Scalar operands (10 R210; 09 R191): a source that names a queue port pops one word, in the order of the fields,
and a destination that names one pushes the result after the pops.
-/

noncomputable section

namespace Sys2Proof.Machine

open Sys2Proof

/-- Reads a scalar source of the running core: x0 reads 0, x28 to x31 pop a port, and a register with an uncorrectable error
faults (09 R191; 10 R210; 20 R452). Log 17, DESIGN CHOICE, unsafe. -/
def readX (r : Reg) (s : State) : Except Exc (Word × State) :=
  if 28 ≤ r.val then popPort s.cur (r.val - 28) s
  else if (me s).badX.contains r.val then .error (.trap 0x605 0)
  else .ok (getX r.val (me s), s)

/-- Reads a scalar source that names no port. -/
def readPlain (r : Reg) (s : State) : Except Exc Word :=
  if (me s).badX.contains r.val then .error (.trap 0x605 0) else .ok (getX r.val (me s))

/-- Writes a scalar destination of the running core: x0 discards, x28 to x31 push (09 R191; 10 R210). -/
def writeX (r : Reg) (v : Word) (s : State) : Except Exc State :=
  if 28 ≤ r.val then pushPort s.cur (r.val - 28) v s
  else .ok (modCore s.cur (setX r.val v) s)

/-- One source and a destination. -/
def unary (f : Word → Word) (rd rs1 : Reg) (s : State) : Except Exc State := do
  let (a, s1) ← readX rs1 s
  writeX rd (f a) s1

/-- Two sources and a destination. -/
def binary (f : Word → Word → Word) (rd rs1 rs2 : Reg) (s : State) : Except Exc State := do
  let (a, s1) ← readX rs1 s
  let (b, s2) ← readX rs2 s1
  writeX rd (f a b) s2

/-- The address of the running core's instruction, or of its prefix. -/
def pcOf (s : State) : Word := (me s).pc

/-- Sets the running core's pc. -/
def setPc (v : Word) (s : State) : State := modCore s.cur (fun x => { x with pc := v }) s

/-- A lookahead form issues: its window opens and its result is on its way to scalar register rd (09 R197, R198). -/
def issueX (la : La) (rd : Reg) (v : Word) (flags : Nat) (s : State) : State :=
  modCore s.cur (openWin (pcOf s).toNat la.val (if rd.val = 0 then [] else [rd.val]) [] .flying [(rd.val, v)] [] flags []) s

/-- Two sources of a lookahead form (10 R217). -/
def longBinary (f : Word → Word → Word) (rd rs1 rs2 : Reg) (la : La) (s : State) : Except Exc State := do
  let (a, s1) ← readX rs1 s
  let (b, s2) ← readX rs2 s1
  pure (issueX la rd (f a b) 0 s2)

/-- Sign extension of the low 32 bits (10 R213). -/
def sext32 (n : Nat) : Word := BitVec.ofInt 64 (sx 32 n)
/-- A Bool as a dword. -/
def boolW (b : Bool) : Word := wd (b2n b)
/-- An immediate as a dword. -/
def immW (i : Int) : Word := BitVec.ofInt 64 i

end Sys2Proof.Machine

end
end

