-- ==== Sys2Proof/Machine/Flags.lean ====
section
/-!
DEFINITION. Rounding modes and floating-point flags of the running core (10 R228, R229; 12 R270, R271), its random stream
(13 R306), and the results of scalar FP32 instructions (10 R227, R230 to R235).
-/

noncomputable section

namespace Sys2Proof.Machine

open Sys2Proof

/-- The mode of a rounding-mode field: DYN takes FCSR.FRM (09 R194; 10 R228). -/
def modeOf (x : CoreSt) (rm : Nat) : Nat := if rm = 7 then bits x.fcsr.toNat 7 5 else rm

/-- The 32 bits that draw number cnt of a stream returns (13 R306). -/
def rngBits (key gtid cnt : Nat) : Nat :=
  let m := 2 ^ 64
  let z0 := key ^^^ gtid ^^^ (cnt * 0x9E3779B97F4A7C15 % m)
  let z1 := (z0 ^^^ (z0 / 2 ^ 30)) * 0xBF58476D1CE4E5B9 % m
  let z2 := (z1 ^^^ (z1 / 2 ^ 27)) * 0x94D049BB133111EB % m
  (z2 ^^^ (z2 / 2 ^ 31)) % 2 ^ 32

/-- rng_draw (13 R306). -/
def rngDraw (x : CoreSt) : Nat × CoreSt :=
  (rngBits x.rngkey.toNat x.gtid.toNat x.rngcnt.toNat, { x with rngcnt := x.rngcnt + 1 })

/-- The draw that a call of round_f takes in mode SR, and none in another mode (12 R270, R271). -/
def drawFor (mode : Nat) (x : CoreSt) : Nat × CoreSt := if mode = 6 then rngDraw x else (0, x)

/-- The same on the running core. -/
def drawMe (mode : Nat) (s : State) : Nat × State :=
  let r := drawFor mode (me s)
  (r.1, setCore s.cur r.2 s)

/-- The FP32 number of a register (10 R227). -/
def fpOf (w : Word) : Exact := decodeF .f32 (w.toNat % 2 ^ 32)

/-- An FP32 result is written zero-extended and its flags accrue (10 R227, R228); a divergence of the shadow unit faults
instead (20 R451). -/
def fpWrite (rd : Reg) (v fl : Nat) (s : State) : Except Exc State :=
  if (me s).fpDiv then .error (.trap 0x610 0)
  else do
    let t ← writeX rd (wd v) s
    pure (modCore s.cur (accrue fl) t)

/-- An integer result of a scalar FP instruction, with its flags (10 R227, R228). -/
def fpInt (rd : Reg) (v : Word) (fl : Nat) (s : State) : Except Exc State := do
  let t ← writeX rd v s
  pure (modCore s.cur (accrue fl) t)

/-- A rounding FP32 operation on two sources (10 R230). -/
def fpBinary (f : Exact → Exact → Nat → Exact) (rd rs1 rs2 : Reg) (rm : Rm) (s : State) : Except Exc State := do
  let (a, s1) ← readX rs1 s
  let (b, s2) ← readX rs2 s1
  let mode := modeOf (me s) rm.val
  let (u, s3) := drawMe mode s2
  let r := roundF (f (fpOf a) (fpOf b) mode) .f32 mode false u
  fpWrite rd r.1 r.2 s3

/-- A fused multiply-add (10 R234): the product and the addend with the signs given. -/
def fpFused (np nc : Bool) (rd rs1 rs2 rs3 : Reg) (rm : Rm) (s : State) : Except Exc State := do
  let (a, s1) ← readX rs1 s
  let (b, s2) ← readX rs2 s1
  let (c, s3) ← readX rs3 s2
  let mode := modeOf (me s) rm.val
  let (u, s4) := drawMe mode s3
  let x := if np then negNum (fpOf a) else fpOf a
  let z := if nc then negNum (fpOf c) else fpOf c
  let r := roundF (fmaNum x (fpOf b) z mode) .f32 mode false u
  fpWrite rd r.1 r.2 s4

/-- fmin.s and fmax.s (10 R231). -/
def fpMinMax (max : Bool) (rd rs1 rs2 : Reg) (s : State) : Except Exc State := do
  let (a, s1) ← readX rs1 s
  let (b, s2) ← readX rs2 s1
  let r := fminmax .f32 max (a.toNat % 2 ^ 32) (b.toNat % 2 ^ 32)
  fpWrite rd r.1 r.2 s2

/-- Sign injection (10 R230): no flags, NaNs unchanged. -/
def fpSign (f : Bool → Bool → Bool) (rd rs1 rs2 : Reg) (s : State) : Except Exc State := do
  let (a, s1) ← readX rs1 s
  let (b, s2) ← readX rs2 s1
  let s31 := f (bit a.toNat 31) (bit b.toNat 31)
  fpWrite rd (a.toNat % 2 ^ 31 + b2n s31 * 2 ^ 31) 0 s2

/-- Comparisons (10 R232): 0 with a NaN; quiet ones are invalid only for feq.s when none signals. -/
def fpCompare (quiet : Bool) (p : Int → Bool) (rd rs1 rs2 : Reg) (s : State) : Except Exc State := do
  let (a, s1) ← readX rs1 s
  let (b, s2) ← readX rs2 s1
  let x := fpOf a
  let y := fpOf b
  let snan := isSnan .f32 a.toNat || isSnan .f32 b.toNat
  let nan := isNan x || isNan y
  let fl := if snan || (nan && !quiet) then flagNV else 0
  fpInt rd (boolW (!nan && p (cmpNum x y))) fl s2

/-- The class bit of an FP32 encoding (10 R232). -/
def classBit (v : Nat) : Nat :=
  let neg := bit v 31
  let e := bits v 30 23
  let f := v % 2 ^ 23
  if e = 255 ∧ f ≠ 0 then (if bit v 22 then 9 else 8)
  else if e = 255 then (if neg then 0 else 7)
  else if e = 0 ∧ f = 0 then (if neg then 3 else 4)
  else if e = 0 then (if neg then 2 else 5)
  else if neg then 1 else 6

/-- A conversion to an n-bit integer (10 R233): NaN and large values give the largest, small ones the smallest, invalid. -/
def fpToInt (n : Nat) (signed : Bool) (x : Exact) (mode u : Nat) : Word × Nat :=
  let rg := intRange n signed
  let out (i : Int) : Word := BitVec.ofInt 64 i
  match x with
  | .nan _ => (out rg.2, flagNV)
  | .inf sg => (out (if sg then rg.1 else rg.2), flagNV)
  | .fin sg m e st =>
    let r := roundInt sg m e st mode u
    if r.1 < rg.1 then (out rg.1, flagNV)
    else if rg.2 < r.1 then (out rg.2, flagNV)
    else (out r.1, if r.2 then flagNX else 0)

/-- fcvt from FP32 to an integer (10 R233). -/
def fpCvtInt (n : Nat) (signed : Bool) (rd rs1 : Reg) (rm : Rm) (s : State) : Except Exc State := do
  let (a, s1) ← readX rs1 s
  let mode := modeOf (me s) rm.val
  let (u, s2) := drawMe mode s1
  let r := fpToInt n signed (fpOf a) mode u
  fpInt rd r.1 r.2 s2

/-- fcvt from an integer to FP32 (10 R233). -/
def fpFromInt (n : Nat) (signed : Bool) (rd rs1 : Reg) (rm : Rm) (s : State) : Except Exc State := do
  let (a, s1) ← readX rs1 s
  let mode := modeOf (me s) rm.val
  let (u, s2) := drawMe mode s1
  let i : Int := if signed then sx n a.toNat else ((a.toNat % 2 ^ n : Nat) : Int)
  let r := roundF (ofInt i) .f32 mode false u
  fpWrite rd r.1 r.2 s2

/-- A lookahead form with an FP32 result (10 R235): value and flags are on their way; a divergence arrives as a fault
(20 R451). -/
def fpIssue (la : La) (rd : Reg) (v fl : Nat) (s : State) : State :=
  if (me s).fpDiv then
    modCore s.cur (fun x => openWin (pcOf s).toNat la.val (if rd.val = 0 then [] else [rd.val]) [] (.faulty 0x610 0) [] [] 0 []
      { x with fpDiv := false }) s
  else issueX la rd (wd v) fl s

/-- fdiv.s (10 R235). -/
def fpDivide (rd rs1 rs2 : Reg) (rm : Rm) (la : La) (s : State) : Except Exc State := do
  let (a, s1) ← readX rs1 s
  let (b, s2) ← readX rs2 s1
  let mode := modeOf (me s) rm.val
  let (u, s3) := drawMe mode s2
  let q := divNum (fpOf a) (fpOf b)
  let r := roundF q.1 .f32 mode false u
  pure (fpIssue la rd r.1 (r.2 + (if q.2 then flagDZ else 0)) s3)

/-- fsqrt.s (10 R235). -/
def fpSqrt (rd rs1 : Reg) (rm : Rm) (la : La) (s : State) : Except Exc State := do
  let (a, s1) ← readX rs1 s
  let mode := modeOf (me s) rm.val
  let (u, s2) := drawMe mode s1
  let r := roundF (sqrtNum (fpOf a)) .f32 mode false u
  pure (fpIssue la rd r.1 r.2 s2)

end Sys2Proof.Machine

end
end

