-- ==== Sys2Proof/Machine/Csr.lean ====
section
/-!
DEFINITION. The CSRs (10 R236 to R238): which numbers are implemented, what a read returns, and what a write does to each
field by its access code (00 R4), each register by the rule that gives its field table.
-/

noncomputable section

namespace Sys2Proof.Machine

open Sys2Proof

/-- An illegal-instruction fault with the offending word in TVAL (09 R190). -/
def illegal {α : Type} (detail : Nat) (i : Instr) : Except Exc α := .error (.trap detail (wd (encWord i)))

/-- Whether a link between two logical dies is cut off, because one of them is served by a spare in a peer module (01 R13; 13
R313); two that peers serve are taken for dies of different modules. Log 117, DESIGN CHOICE, unsafe. -/
def peerEdge (s : State) (d e : Nat) : Bool := d != e && (peerServed s d || peerServed s e)

/-- Whether a core's link in a direction is connected for its task (13 R313; 01 R12, R13). A link toward a logical die that is
absent is unconnected too: the spec lists no such case (log 117). Log 117, DESIGN CHOICE, unsafe. -/
def linkConnected (s : State) (c dir : Nat) : Bool :=
  match neighbour c dir with
  | none => false
  | some n => isLive s (dOf n) && !(peerEdge s (dOf c) (dOf n)) && inPaddock s (tenantOf (coreOf s c)) (clOf n)

/-- TSTAT (13 R289). -/
def tstat (s : State) (c : Nat) : Word :=
  let x := coreOf s c
  wd ((List.range 4).foldl (fun a d =>
    a + (x.links.get [] d).length * 2 ^ (4 * d) + b2n (linkConnected s c d) * 2 ^ (16 + d)) (b2n x.tileuse * 2 ^ 20))

/-- QSTAT of a port (15 R345). -/
def qstatOf (s : State) (c p : Nat) : Word :=
  let q := (coreOf s c).ports.get {} p
  wd ((1024 - (clusterOf s (clOf c)).nodes.length) * 2 ^ 23 + outCount s c p * 2 ^ 12 + q.ret.length * 2 ^ 7 +
    q.part.length * 2 ^ 5)

/-- TOWN0 to TOWN2 (03 R59). -/
def townOf (x : CoreSt) (k : Nat) : Word :=
  wd ((List.range 64).foldl (fun a i =>
    if x.owner.contains (64 * k + i) && decide (64 * k + i < tileCount x) && decide (0 < 64 * k + i) then a + 2 ^ i else a) 0)

/-- IVCFG (02 R27). -/
def ivcfgOf (s : State) : Word :=
  wd (s.live.foldl (fun a d => a + 2 ^ (56 + d)) 0 + s.live.length * 2 ^ 52 + ipsize s)

/-- PVCFG (05 R98). -/
def pvcfgOf (s : State) : Word :=
  wd (s.plive * 2 ^ 56 + s.pl * 2 ^ 52 + ysize s * 2 ^ 16 + ypos s * 2 ^ 8 + ppsize s)

/-- What a read of a CSR by core c returns; none for a number that is not implemented (10 R237). -/
def csrRead (n c : Nat) (s : State) : Option Word :=
  let x := coreOf s c
  let d := dieOf s (dOf c)
  if n = 0x001 then some x.fcsr
  else if n = 0x010 then some x.trec
  else if n = 0x020 then some (wd s.time)
  else if n = 0x021 then some (wd d.cyc)
  else if 0x030 ≤ n ∧ n ≤ 0x032 then some (townOf x (n - 0x030))
  else if n = 0x040 then some x.tshape
  else if n = 0x041 then some (tstat s c)
  else if n = 0x042 then some x.rngkey
  else if n = 0x043 then some x.rngcnt
  else if 0x080 ≤ n ∧ n ≤ 0x083 then some (qstatOf s c (n - 0x080))
  else if 0x100 ≤ n ∧ n ≤ 0x107 then some (x.cnt.get 0 (n - 0x100))
  else if n = 0x800 then some x.status
  else if n = 0x801 then some x.cause
  else if n = 0x802 then some x.epc
  else if n = 0x803 then some x.tval
  else if n = 0x804 then some x.tvec
  else if n = 0x810 then some x.vmroot
  else if n = 0x811 then some (ivcfgOf s)
  else if n = 0x812 then some d.ilbase
  else if n = 0x813 then some d.ilhead
  else if n = 0x814 then some d.ildone
  else if n = 0x820 then some x.spcfg
  else if n = 0x821 then some x.migcfg
  else if n = 0x822 then some d.l2cfg
  else if n = 0x823 then some x.rqspill
  else if n = 0x830 then some (pvcfgOf s)
  else if n = 0x831 then some s.ygset
  else if n = 0x840 then some x.sscratch
  else if n = 0x850 then some x.law0
  else if n = 0x851 then some x.law1
  else if n = 0x852 then some x.law2
  else if n = 0x853 then some x.law3
  else if n = 0x860 then some x.dbgctl
  else if 0x900 ≤ n ∧ n ≤ 0x907 then some (x.evsel.get 0 (n - 0x900))
  else if 0x910 ≤ n ∧ n ≤ 0x917 then some (x.cnt.get 0 (n - 0x910))
  else if n = 0x920 then some x.trcbase
  else if n = 0x921 then some x.trcctl
  else if n = 0x922 then some x.trchead
  else if n = 0x923 then some x.trcread
  else none

/-- The detail of a CSR access that is refused: a supervisor number in task mode, then a number not implemented (10
R237; 09 R190). -/
def csrDetail (n c : Nat) (s : State) : Option Nat :=
  if 0x800 ≤ n ∧ isSup (coreOf s c) = false then some 0x07
  else if (csrRead n c s).isNone then some 0x08
  else none

/-- The new value of a register: the writable bits take v, the write-1-to-clear bits that w names become 0, the rest stay (00
R4). Log 103, DEDUCED, unsafe. -/
def fieldWrite (rw w1c : Nat) (old : Word) (v w : Nat) : Word :=
  (old &&& ~~~(wd rw) &&& ~~~(wd w1c &&& wd w)) ||| (wd v &&& wd rw)

/-- Whether a run queue's ring holds entries, on a core (08 R170). -/
def ringsUsed (x : CoreSt) : Bool :=
  !(x.fifo0.ring.isEmpty && x.fifo1.ring.isEmpty && x.fifo2.ring.isEmpty && x.deque.ring.isEmpty)

/-- The rows of a split that changes from l1 to l1n sixteenths: whether a tile that leaves the scratchpad is
engine-owned (03 R49). -/
def splitRefused (x : CoreSt) (l1n : Nat) : Bool :=
  bit x.spcfg.toNat 63 || x.owner.any (fun t => decide ((16 - l1n) * 16 ≤ t) && decide (t < tileCount x))

/-- A write of SPCFG (03 R48, R49): a new split starts, or the write is refused and sets ERR. -/
def putSpcfg (c v w : Nat) (s : State) : State :=
  modCore c (fun x =>
    let n := v % 16
    let x1 := { x with spcfg := fieldWrite 0 (2 ^ 62) x.spcfg 0 w }
    let old := x.spcfg.toNat % 16
    if n < 4 ∨ 8 < n then { x1 with spcfg := x1.spcfg ||| wd (2 ^ 62) }
    else if n = old ∧ bit x.spcfg.toNat 63 = false then x1
    else if splitRefused x n then { x1 with spcfg := x1.spcfg ||| wd (2 ^ 62) }
    else { x1 with spcfg := x1.spcfg ||| wd (2 ^ 63), spNew := n }) s

/-- A write of VMROOT (02 R29, R38). -/
def putVmroot (c v : Nat) (s : State) : State :=
  modCore c (fun x => { x with vmroot := fieldWrite 0xFF0FFFFFFFFFF001 0 x.vmroot v 0, ilWait := true }) s

/-- A write of MIGCFG (04 R78): FLUSH empties the predictor. -/
def putMigcfg (c v : Nat) (s : State) : State :=
  modCore c (fun x => { x with migcfg := wd (v % 2), pred := if bit v 1 then [] else x.pred }) s

/-- A write of L2CFG by a core (04 R84). -/
def putL2cfg (c v : Nat) (s : State) : State :=
  let d := dOf c
  let old := (dieOf s d).l2cfg
  if bit old.toNat 63 then s
  else
    let i2 := if bits v 13 8 ≤ 32 then bits v 13 8 else bits old.toNat 13 8
    let rp := if bits v 5 0 ≤ 32 then bits v 5 0 else bits old.toNat 5 0
    if i2 = bits old.toNat 13 8 ∧ rp = bits old.toNat 5 0 then s
    else
      modDie d (fun x => { x with rp := [], i2 := [], l2cfg := wd (2 ^ 63 + i2 * 256 + rp) }) (rpSend c s)

/-- A write of an EVSEL (22 R474). -/
def putEvsel (x : CoreSt) (k v : Nat) : CoreSt :=
  let old := x.evsel.get 0 k
  let keep := decide (bits v 13 12 = 3)
  { x with evsel := x.evsel.put k (fieldWrite (if keep then 0xC000000000000FFF else 0xC000000000003FFF) 0 old v 0) }

/-- A write of TRCCTL (22 R480): HEAD starts again when EN rises. -/
def putTrcctl (x : CoreSt) (v w : Nat) : CoreSt :=
  let rises := bit v 63 && !(bit x.trcctl.toNat 63)
  { x with trcctl := fieldWrite 0xC000000FFFFF01FF 0x2000000000000000 x.trcctl v w
           trchead := if rises then 0 else x.trchead }

/-- A CSR write on one core's own registers: v is the value, w the bits that clear W1C fields (10 R236). -/
def csrOwn (n v w : Nat) (x : CoreSt) : CoreSt :=
  if n = 0x001 then { x with fcsr := wd ((if bits v 7 5 = 7 then bits x.fcsr.toNat 7 5 else bits v 7 5) * 32 + v % 32) }
  else if n = 0x010 then { x with trec := wd (v / 64 * 64) }
  else if n = 0x040 then { x with tshape := wd (v % 64) }
  else if n = 0x042 then { x with rngkey := wd v }
  else if n = 0x043 then { x with rngcnt := wd v }
  else if n = 0x800 then { x with status := fieldWrite 0xDE 0x120 x.status v w }
  else if n = 0x801 then { x with cause := fieldWrite 0xC000000000000FFF 0 x.cause v w }
  else if n = 0x802 then { x with epc := wd (v / 4 * 4) }
  else if n = 0x803 then { x with tval := wd v }
  else if n = 0x804 then { x with tvec := wd (v / 256 * 256) }
  else if n = 0x823 then (if ringsUsed x then x else { x with rqspill := wd (v / 2 ^ 16 * 2 ^ 16), spillArea := wd (v / 2 ^ 16 * 2 ^ 16) })
  else if n = 0x840 then { x with sscratch := wd v }
  else if n = 0x850 then { x with law0 := fieldWrite 0xFC7FFFFFFFFFFFFF 0 x.law0 v w }
  else if n = 0x851 then { x with law1 := fieldWrite 0xFC7FFFFFFFFFFFFF 0 x.law1 v w }
  else if n = 0x852 then { x with law2 := fieldWrite 0xFC7FFFFFFFFFFFFF 0 x.law2 v w }
  else if n = 0x853 then { x with law3 := fieldWrite 0xFC7FFFFFFFFFFFFF 0 x.law3 v w }
  else if n = 0x860 then { x with dbgctl := wd (v % 2) }
  else if 0x900 ≤ n ∧ n ≤ 0x907 then putEvsel x (n - 0x900) v
  else if 0x910 ≤ n ∧ n ≤ 0x917 then
    { x with cnt := x.cnt.put (n - 0x910) (fieldWrite 0xFFFFFFFFFFFF 0x8000000000000000 (x.cnt.get 0 (n - 0x910)) v w) }
  else if n = 0x920 then (if bit x.trcctl.toNat 63 then x else { x with trcbase := fieldWrite 0xFFFFFFFFFFFFF00F 0 x.trcbase v w })
  else if n = 0x921 then putTrcctl x v w
  else if n = 0x923 then { x with trcread := wd v }
  else x

/-- A CSR write by core c (10 R236). -/
def csrWrite (n c v w : Nat) (s : State) : State :=
  if n = 0x810 then putVmroot c v s
  else if n = 0x820 then putSpcfg c v w s
  else if n = 0x821 then putMigcfg c v s
  else if n = 0x822 then putL2cfg c v s
  else if n = 0x812 then
    modDie (dOf c) (fun d => if d.ilhead = d.ildone then { d with ilbase := wd (bits v 51 12 * 2 ^ 12 + v % 16) } else d) s
  else modCore c (csrOwn n v w) s

/-- How a CSR instruction makes the new value and the clearing bits from the old value and its operand: 0 writes, 1 sets
bits, 2 clears bits (10 R236). -/
def csrValue (how : Nat) (old a : Word) : Nat × Nat :=
  if how = 0 then (a.toNat, a.toNat)
  else if how = 1 then ((old ||| a).toNat, a.toNat)
  else ((old &&& ~~~a).toNat, 0)

/-- A CSR instruction on an operand; wr is whether it writes (10 R236, R238). One that names FCSR waits until earlier
flags are delivered (R228). -/
def csrAccess (i : Instr) (how : Nat) (wr : Bool) (rd : Reg) (csr : Csr) (a : Word) (s : State) : Except Exc State :=
  let c := s.cur
  let n := csr.val
  match csrDetail n c s with
  | some d => illegal d i
  | none =>
    let s0 := if n = 1 then modCore c deliverAll s else s
    match csrRead n c s0 with
    | none => illegal 0x08 i
    | some old =>
      let (v, w) := csrValue how old a
      let t := if wr then csrWrite n c v w s0 else s0
      writeX rd old t

/-- A CSR instruction with a register operand. -/
def csrReg (i : Instr) (how : Nat) (rd rs1 : Reg) (csr : Csr) (s : State) : Except Exc State :=
  match csrDetail csr.val s.cur s with
  | some d => illegal d i
  | none => do
    let (a, s1) ← readX rs1 s
    csrAccess i how (how == 0 || rs1.val != 0) rd csr a s1

/-- csrrw (10 R236). -/
def execCsrrw (rd rs1 : Reg) (csr : Csr) (s : State) : Host.Outcome State Fault Refusal :=
  finish 4 s (csrReg (.csrrw rd rs1 csr) 0 rd rs1 csr s)

/-- csrrs (10 R236). -/
def execCsrrs (rd rs1 : Reg) (csr : Csr) (s : State) : Host.Outcome State Fault Refusal :=
  finish 4 s (csrReg (.csrrs rd rs1 csr) 1 rd rs1 csr s)

/-- csrrc (10 R236). -/
def execCsrrc (rd rs1 : Reg) (csr : Csr) (s : State) : Host.Outcome State Fault Refusal :=
  finish 4 s (csrReg (.csrrc rd rs1 csr) 2 rd rs1 csr s)

/-- csrrwi (10 R236). -/
def execCsrrwi (rd : Reg) (u : Fin 32) (csr : Csr) (s : State) : Host.Outcome State Fault Refusal :=
  finish 4 s (csrAccess (.csrrwi rd u csr) 0 true rd csr (wd u.val) s)

/-- csrrsi (10 R236). -/
def execCsrrsi (rd : Reg) (u : Fin 32) (csr : Csr) (s : State) : Host.Outcome State Fault Refusal :=
  finish 4 s (csrAccess (.csrrsi rd u csr) 1 (u.val != 0) rd csr (wd u.val) s)

/-- csrrci (10 R236). -/
def execCsrrci (rd : Reg) (u : Fin 32) (csr : Csr) (s : State) : Host.Outcome State Fault Refusal :=
  finish 4 s (csrAccess (.csrrci rd u csr) 2 (u.val != 0) rd csr (wd u.val) s)

end Sys2Proof.Machine

end
end

