-- ==== Sys2Proof/Machine/Queues.lean ====
section
/-!
DEFINITION. Continuation records (08 R163 to R166), run queues and their spill rings (08 R169 to R174), trace records (22
R479, R480), leaving a core and picking the next task (08 R161, R164, R171).
-/

noncomputable section

namespace Sys2Proof.Machine

open Sys2Proof

/-- Reads n dwords at an address inside one line, by core c for an accessor (11 R244). -/
def readWords (w : Who) (c va n : Nat) (s : State) : Except Exc (Nat × State) :=
  match resolve w .load (.scalar 8) va s with
  | .error k => .error (.trap k (wd va))
  | .ok (r, t) =>
    if r.kind = 5 then .error (.trap 0x207 (wd va))
    else
      match loadRef c w r (8 * n) t with
      | .error e => .error e
      | .ok (_, some k, _, _) => .error (.trap k (wd va))
      | .ok (v, none, _, u) => .ok (v, u)

/-- Writes n dwords at an address inside one line. -/
def writeWords (w : Who) (c va v n : Nat) (s : State) : Except Exc State :=
  match resolve w .store (.scalar 8) va s with
  | .error k => .error (.trap k (wd va))
  | .ok (r, t) =>
    if r.kind = 5 then .error (.trap 0x207 (wd va))
    else .ok (storeRef c w r (bytesOf (r.pa % 128) v (8 * n)) t)

/-- Dword k of a record. -/
def dwordOf (v k : Nat) : Nat := v / 2 ^ (64 * k) % 2 ^ 64

/-- A control dword (08 R163). -/
def mkCtl (prio scope qmember otag dom : Nat) (handler root : Bool) : Nat :=
  prio % 4 + scope % 8 * 4 + qmember % 8 * 32 + otag % 256 * 256 + dom % 65536 * 65536 + b2n handler * 2 ^ 50 + b2n root * 2 ^ 51

/-- A record from its parts (08 R163). -/
def mkRecord (pc gtid ctl joinw a0 a1 a2 a3 : Nat) : Nat :=
  [pc, gtid, ctl, joinw, a0, a1, a2, a3].foldr (fun v a => v % 2 ^ 64 + 2 ^ 64 * a) 0

/-- The record of the task on a core (08 R163, R166). -/
def recordOf (x : CoreSt) (pc : Word) (jidx : Nat) : Nat :=
  mkRecord pc.toNat x.gtid.toNat (setBits x.ctl 47 32 jidx).toNat x.joinw.toNat (getX 10 x).toNat (getX 11 x).toNat
    (getX 12 x).toNat (getX 13 x).toNat

/-- A new global task id made by a core, and its counter advanced (08 R162). -/
def newGtid (c : Nat) (x : CoreSt) : Word × CoreSt :=
  (wd (tenantOf x * 2 ^ 56 + dOf c * 2 ^ 48 + clOf c % 16 * 2 ^ 40 + c % 8 * 2 ^ 37 + x.seq % 2 ^ 37),
    { x with seq := (x.seq + 1) % 2 ^ 37 })

/-- The yard-wide index of a core (15 R367). -/
def yidx (s : State) (c : Nat) : Nat := 1024 * (s.modIdx % 32) + c

/-! Trace. -/

/-- A core writes a trace record (22 R479, R480): a full ring under STOP drops it, a fault sets ERR and clears EN. -/
def traceRec (c kind : Nat) (gtid : Word) (q arg : Nat) (pc : Word) (s : State) : State :=
  let x := coreOf s c
  let ctl := x.trcctl.toNat
  if !(bit ctl 63 && bit ctl kind) then s
  else
    let cap := 2 ^ (bits x.trcbase.toNat 3 0 + 7)
    if bit ctl 62 && x.trchead.toNat - x.trcread.toNat == cap then count 0xE4 1 c s
    else
      let va := x.trcbase.toNat / 4096 * 4096 + 32 * (x.trchead.toNat % cap)
      let d2 := kind * 2 ^ 60 + c % 8 * 2 ^ 57 + clOf c % 16 * 2 ^ 53 + dOf c * 2 ^ 50 + q * 2 ^ 48 + arg
      let v := [s.time % 2 ^ 64, gtid.toNat, d2, pc.toNat].foldr (fun v a => v + 2 ^ 64 * a) 0
      match writeWords (whoSup s c) c va v 4 s with
      | .ok t => modCore c (fun y => { y with trchead := y.trchead + 1 }) t
      | .error _ => modCore c (fun y => { y with trcctl := wd (ctl % 2 ^ 63 ||| 2 ^ 61) }) s

/-! Queues. -/

/-- Run queue k of a core: FIFO 0 to 2, or 3 for the deque. -/
def qGet (x : CoreSt) (k : Nat) : RunQ := if k = 0 then x.fifo0 else if k = 1 then x.fifo1 else if k = 2 then x.fifo2 else x.deque
/-- Replaces run queue k. -/
def qSet (k : Nat) (q : RunQ) (x : CoreSt) : CoreSt :=
  if k = 0 then { x with fifo0 := q } else if k = 1 then { x with fifo1 := q } else if k = 2 then { x with fifo2 := q }
  else { x with deque := q }
/-- Hardware entries of a queue (08 R169). -/
def qCap (k : Nat) : Nat := if k = 3 then 64 else 16
/-- Whether a queue has room for n more entries, in hardware or in its ring (08 R169, R170). -/
def qRoom (x : CoreSt) (k n : Nat) : Bool :=
  let q := qGet x k
  decide (q.hw.length + q.ring.length + n ≤ qCap k + (if x.rqspill = 0 then 0 else 512)) &&
    (decide (q.hw.length + n ≤ qCap k) || x.rqspill != 0)
/-- The address of position i of a ring (08 R170). Log 64, DEDUCED, unsafe. -/
def ringVa (x : CoreSt) (k i : Nat) : Nat := x.rqspill.toNat + 0x1000 * k + 8 * (i % 512)

/-- An entry is appended to a spill ring (08 R169, R170): queue-overflow when the ring is full or spilling is off, spill when
the store faults. Log 48, DESIGN CHOICE, unsafe. -/
def pushRing (c k : Nat) (e : QEntry) (s : State) : Except Nat State :=
  let x := coreOf s c
  let q := qGet x k
  if x.rqspill = 0 ∨ 512 ≤ q.ring.length then .error 0x503
  else
    match writeWords (whoSup s c) c (ringVa x k (q.rhead + q.ring.length)) e.slot.toNat 1 s with
    | .error _ => .error 0x504
    | .ok t => .ok (count 0x73 1 c (modCore c (qSet k { q with ring := q.ring ++ [e] }) t))

/-- An entry enters a run queue (08 R169). -/
def pushQ (c k : Nat) (e : QEntry) (s : State) : Except Nat State :=
  let q := qGet (coreOf s c) k
  if k = 3 then
    if q.hw.length < 64 then .ok (modCore c (qSet 3 { q with hw := q.hw ++ [e] }) s)
    else
      match q.hw with
      | [] => .error 0x503
      | old :: rest =>
        match pushRing c 3 old s with
        | .error k => .error k
        | .ok t => .ok (modCore c (fun x => qSet 3 { x.deque with hw := rest ++ [e] } x) t)
  else if q.ring.isEmpty && decide (q.hw.length < 16) then .ok (modCore c (qSet k { q with hw := q.hw ++ [e] }) s)
  else pushRing c k e s

/-- A sleeping core wakes and picks again (08 R174). -/
def wakeCore (c : Nat) (by_ : Option Nat) (s : State) : State :=
  let x := coreOf s c
  if (x.run = .idle ∨ x.run = .reserved) ∧ x.picking = false then setCore c { x with picking := true, waker := by_ } s else s

/-- A push to a core's deque, or to a reserved core's FIFO, wakes the lowest-numbered sleeping unreserved core of the
cluster (08 R174). -/
def wakeMate (c : Nat) (s : State) : State :=
  match ((List.range 8).map (fun i => clOf c * 8 + i)).find? (fun k =>
    let x := coreOf s k
    x.run == .idle && x.member == none && !x.picking && k != c) with
  | some k => wakeCore k (some c) s
  | none => s

/-- An entry is pushed to queue k of core c by core src (08 R169, R174; 22 R479). -/
def pushQE (c k src : Nat) (gtid pc : Word) (e : QEntry) (s : State) : Except Nat State :=
  match pushQ c k e s with
  | .error e => .error e
  | .ok t =>
    let u := wakeCore c none (traceRec c 1 gtid k (yidx s src) pc t)
    .ok (if k = 3 ∨ (coreOf u c).member ≠ none then wakeMate c u else u)

/-- A slot is pushed to queue k of core c by core src. -/
def pushEntry (c k src : Nat) (slot gtid pc : Word) (s : State) : Except Nat State :=
  pushQE c k src gtid pc { slot := slot, cyc := (dieOf s (dOf c)).cyc } s

/-- A fault that the hardware raises on a core in supervisor mode (08 R164, R170): on the resident task, or with no task
resident as 18 R418 gives for an idle core. Log 29, DEDUCED, unsafe; log 95, DEDUCED, unsafe. -/
def hwFault (c cause : Nat) (tval : Word) (s : State) : State :=
  let x := coreOf s c
  if x.haveTask then takeTrap c cause tval x.pc s
  else takeTrap c cause tval 0 (modCore c (fun y => { y with status := y.status ||| 0x41 }) s)

/-- A fault on a spill access that no instruction makes (08 R170): it is taken at the core's next boundary. While the core is
in a trap handler none is added, and the access is made again later. Log 29, DEDUCED, unsafe. -/
def spillFault (c : Nat) (s : State) : State :=
  modCore c (fun x => { x with spillPend := x.spillPend || !(bit x.status.toNat 4) }) s

/-- A push that the hardware makes (08 R169): kept and retried while the queue is full. -/
def hwPush (c k src : Nat) (slot gtid pc : Word) (acq : Scope) (s : State) : State :=
  let e : QEntry := { slot := slot, cyc := (dieOf s (dOf c)).cyc, acq := acq }
  match pushQE c k src gtid pc e s with
  | .ok t => t
  | .error f =>
    let t := modCore c (fun x => { x with pushes := x.pushes ++ [{ queue := k, src := src, gtid := gtid, pc := pc, entry := e }] }) s
    if f = 0x504 then spillFault c t else t

/-- Pushes that wait for room are made again, in order (08 R169). -/
def retryPushes (c : Nat) (s : State) : State :=
  (coreOf s c).pushes.foldl (fun t p =>
    match pushQE c p.queue p.src p.gtid p.pc p.entry t with
    | .ok u => modCore c (fun x => { x with pushes := x.pushes.erase p }) u
    | .error e => if e = 0x504 then spillFault c t else t) s

/-- The cores that wait for room make their pushes again: every cycle (08 R169). -/
def retryAll (s : State) : State := (s.cores.filter (fun e => !(e.2.pushes.isEmpty))).foldl (fun t e => retryPushes e.1 t) s

/-! Entries leave their queues. -/

/-- A place in a run queue: the i-th hardware entry, or the i-th of the ring. -/
structure QPos where
  queue : Nat
  ring : Bool
  i : Nat
  deriving DecidableEq, Repr

/-- The entry at a place. -/
def entryAt (x : CoreSt) (p : QPos) : Option QEntry := (if p.ring then (qGet x p.queue).ring else (qGet x p.queue).hw)[p.i]?

/-- Loads entry i of a spill ring, oldest first, through the translation of its core (08 R170). -/
def ringEntry (c k i : Nat) (s : State) : Except Exc (QEntry × State) :=
  let q := qGet (coreOf s c) k
  match readWords (whoSup s c) c (ringVa (coreOf s c) k (q.rhead + i)) 1 s, q.ring[i]? with
  | .error e, _ => .error e
  | .ok _, none => .error (.stall 12 0)
  | .ok (v, t), some e => .ok ({ e with slot := wd v }, t)

/-- The i oldest entries of a ring move up one place, over the one that leaves (08 R170). -/
def ringShift (c k : Nat) : Nat → State → Except Exc State
  | 0, s => .ok s
  | i + 1, s => do
    let (e, t) ← ringEntry c k i s
    let q := qGet (coreOf t c) k
    let u ← writeWords (whoSup t c) c (ringVa (coreOf t c) k (q.rhead + i + 1)) e.slot.toNat 1 t
    ringShift c k i (drainAll c u)

/-- Entry i of a ring leaves it (08 R169, R170): a load that faults leaves it there. -/
def ringTake (c k i : Nat) (s : State) : Except Exc (QEntry × State) := do
  let (e, t) ← ringEntry c k i s
  let last := decide (i + 1 = (qGet (coreOf t c) k).ring.length)
  let u ← if last && k = 3 then .ok t else ringShift c k i t
  let f (q : RunQ) : RunQ := { q with ring := dropAt i q.ring, rhead := if last && k = 3 then q.rhead else q.rhead + 1 }
  pure (e, modCore c (fun x => qSet k (f (qGet x k)) x) u)

/-- A FIFO's ring refills its hardware entries (08 R169, R170): an entry whose load faults stays in the ring. Log 48, DESIGN
CHOICE, unsafe. -/
def refill (c k : Nat) (s : State) : State :=
  if k = 3 ∨ (qGet (coreOf s c) k).ring = [] then s
  else
    match ringTake c k 0 s with
    | .error (.trap _ _) => spillFault c s
    | .error _ => s
    | .ok (e, t) => modCore c (fun x => qSet k { (qGet x k) with hw := (qGet x k).hw ++ [e] } x) t

/-- The entry at a place leaves its queue, and a FIFO's ring refills its hardware entries (08 R169, R170). -/
def takeAt (c : Nat) (p : QPos) (s : State) : Except Exc (QEntry × State) :=
  if p.ring then ringTake c p.queue p.i s
  else
    let q := qGet (coreOf s c) p.queue
    match q.hw[p.i]? with
    | none => .error (.stall 12 0)
    | some e => .ok (e, refill c p.queue (modCore c (qSet p.queue { q with hw := dropAt p.i q.hw }) s))

/-- The head of a FIFO (08 R169). -/
def fifoHead (x : CoreSt) (k : Nat) : Option QPos :=
  let q := qGet x k
  if !(q.hw.isEmpty) then some ⟨k, false, 0⟩ else if !(q.ring.isEmpty) then some ⟨k, true, 0⟩ else none

/-- The bottom of a deque: the newest hardware entry, or the ring's newest (08 R169). -/
def bottomOf (x : CoreSt) : Option QPos :=
  let q := x.deque
  if !(q.hw.isEmpty) then some ⟨3, false, q.hw.length - 1⟩ else if !(q.ring.isEmpty) then some ⟨3, true, q.ring.length - 1⟩ else none

/-- The top of a deque: the ring's oldest, or the oldest hardware entry (08 R169). -/
def topOf (x : CoreSt) : Option QPos :=
  let q := x.deque
  if !(q.ring.isEmpty) then some ⟨3, true, 0⟩ else if !(q.hw.isEmpty) then some ⟨3, false, 0⟩ else none

/-! Barns. -/

/-- The resident barn that holds a cluster. -/
def barnAt (s : State) (cl : Nat) : Option Barn := s.barns.find? (fun b => b.st == .resident && b.clusters.contains cl)

/-- Changes the resident barn that holds a cluster. -/
def modBarn (cl : Nat) (f : Barn → Barn) (s : State) : State :=
  { s with barns := s.barns.map (fun b => if b.st = .resident ∧ b.clusters.contains cl then f b else b) }

/-- n tasks are created in the barn of a cluster (08 R159). -/
def tasksBorn (cl n : Nat) (s : State) : State := modBarn cl (fun b => { b with live := b.live + n }) s
/-- A task of the barn of a cluster has ended (07 R157). -/
def taskEnded (cl : Nat) (s : State) : State := modBarn cl (fun b => { b with live := b.live - 1 }) s

/-- The cores of the barn of a cluster: the steal domain of its cores (08 R172). -/
def barnCores (s : State) (cl : Nat) : List Nat :=
  match barnAt s cl with
  | some b => b.clusters.flatMap (fun k => (List.range 8).map (fun i => 8 * k + i))
  | none => (List.range 8).map (fun i => 8 * cl + i)

/-! Leaving a core. -/

/-- The state a task starts or resumes with, before its record is loaded (08 R166). -/
def blankTask (x : CoreSt) : CoreSt :=
  { x with
    regs := [], tiles := [], tileuse := false, badX := [], badT := [], fcsr := 0, trec := 0, tshape := 0x3F
    rngkey := 0, rngcnt := 0, windows := [], redo := [], ereting := false, resv := none, ganged := false, law0 := 0, law1 := 0, law2 := 0, law3 := 0
    barArrived := false, sendReq := .none, leaseReq := .none, steFault := none, rpWait := false, bkpPend := false, gangWait := 0, logSeq := none, aborted := false }

/-- A task's instruction that ends its stay on the core completes: under DBGCTL.STEP it leaves a debug step pending (18 R413). -/
def lastStep (c : Nat) (s : State) : State := modCore c (fun x => { x with stepPend := x.stepPend || (!(isSup x) && bit x.dbgctl.toNat 0) }) s

/-- The task leaves the core: a gang member that suspends reserves it (08 R161), the die it leaves is kept for the task's next
move (06 R116), and the core returns to its pick order (08 R171). -/
def leaveCore (c : Nat) (suspended : Bool) (s0 : State) : State :=
  let x := coreOf s0 c
  let s : State := if suspended then { s0 with lastDie := AList.put x.gtid.toNat (dOf c) s0.lastDie } else s0
  let gang := bits x.ctl.toNat 4 2 != 0
  let y := blankTask x
  let z := { y with
    haveTask := false, gtid := 0, ctl := 0, joinw := 0, stall := none, picking := true, waker := none, since := s.time
    member := if gang then (if suspended then some x.gtid else none) else x.member
    memberSlot := if gang then (if suspended then some x.trec else none) else x.memberSlot }
  setCore c { z with run := if z.member = none then .idle else .reserved } s

/-- Every open window must have its result (08 R166; 16 R377): a result that is on its way is delivered. -/
def windowsDone (c : Nat) (s : State) : Except Exc State :=
  let x := coreOf s c
  if (windowFault x).isSome then .error (.trap 0 0)
  else if x.windows.any (fun w => match w.st with | .waitTag .. => true | .waitTxn _ => true | _ => false) then .error (.stall 12 0)
  else .ok (modCore c deliverAll s)

/-- A suspension point is refused while ports hold words, a lease is held or the task is ganged (08 R166). Log 96, DEDUCED,
unsafe. -/
def suspendRefused (c : Nat) (s : State) : Bool :=
  let x := coreOf s c
  x.ganged || (leaseOf s c).isSome || x.ports.any (fun p => !(p.2.part.isEmpty && p.2.ret.isEmpty))

/-- The steps of a suspension point before the task leaves (08 R166, R116): the windows have their results, the move is
ordered as fence.p, and the record is written through the task's own translation. -/
def suspendStart (c : Nat) (pc : Word) (jidx : Nat) (s : State) : Except Exc State :=
  if suspendRefused c s then .error (.trap 0x502 0)
  else do
    let s1 ← windowsDone c s
    let s2 ← orderOp c true true true true .p s1
    let s3 := modCore c (fun x => { x with resv := none }) s2
    let x := coreOf s3 c
    let s4 ← writeWords (whoCore s3 c) c x.trec.toNat (recordOf x pc jidx) 8 s3
    pure (drainAll c s4)

/-! Resuming. -/

/-- The core reserved for a task's record at a slot (08 R161, R179). -/
def reservedFor (s : State) (slot gtid : Word) : Option Nat :=
  (List.find? (fun (e : Nat × CoreSt) => e.2.memberSlot == some slot && e.2.member == some gtid) s.cores).map (fun e => e.1)

/-- The record at a slot is enqueued by core c (08 R179; 16 R385): on the FIFO of its PRIO, of the reserved core for a gang
member; on FIFO 2 of core c where its control dword cannot be read or names no such queue; none while the read waits. The task
acquires scope acq before its first instruction (16 R382). -/
def enqueueRecord (c : Nat) (slot : Word) (acq : Scope) (s : State) : Option State :=
  match readWords (whoSup s c) c slot.toNat 3 s with
  | .error (.trap _ _) => some (hwPush c 2 c slot 0 0 acq s)
  | .error _ => none
  | .ok (v, t) =>
    let ctl := dwordOf v 2
    let gtid := wd (dwordOf v 1)
    let pc := wd (dwordOf v 0)
    if ctl % 4 = 3 then some (hwPush c 2 c slot gtid pc acq t)
    else if bits ctl 4 2 = 0 then some (hwPush c (ctl % 4) c slot gtid pc acq t)
    else
      match reservedFor t slot gtid with
      | some r => some (hwPush r (ctl % 4) c slot gtid pc acq t)
      | none => some (hwPush c 2 c slot gtid pc acq t)

/-- Whether a record passes the checks of a pick (08 R164). -/
def recordOk (x : CoreSt) (v : Nat) : Bool :=
  let ctl := dwordOf v 2
  decide (ctl % 4 < 3) && decide (bits ctl 4 2 < 4) && decide (bits ctl 7 5 < 4) && decide (bits ctl 63 52 = 0) &&
    decide (dwordOf v 0 % 4 = 0) && decide (bits (dwordOf v 1) 63 56 = tenantOf x)

/-- Whether a core may run the record at a slot: a gang member's record runs only on the core reserved for it (08 R171, R179).
Log 35, DEDUCED, unsafe. -/
def memberOk (x : CoreSt) (slot : Word) (v : Nat) : Bool :=
  decide (bits (dwordOf v 2) 4 2 = 0) || (x.member == some (wd (dwordOf v 1)) && x.memberSlot == some slot)

/-- A picked task starts on a core (08 R166). -/
def startTask (c : Nat) (slot pc gtid ctl joinw : Word) (regs : AList Word) (s : State) : State :=
  let b := (barnAt s (clOf c)).map (fun b => (b.q, b.seq))
  modCore c (fun x =>
    let y := blankTask x
    { y with
      regs := regs, pc := pc, gtid := gtid, ctl := ctl, joinw := joinw, trec := slot, haveTask := true, run := .running
      stall := none, since := s.time, status := wd (x.status.toNat / 2 * 2), fbuf := [], barn := b
      member := if bits ctl.toNat 4 2 = 0 then x.member else none
      memberSlot := if bits ctl.toNat 4 2 = 0 then x.memberSlot else none }) { s with lastDie := AList.del gtid.toNat s.lastDie }

/-- What comes before a task's first instruction on core c (06 R116; 16 R382), and whether it is done: the acquire of the message
that made or woke the task, and where the task suspended on another die, a fence.s on that die and on this one. -/
def startReady (c : Nat) (e : QEntry) (s : State) : State × Bool :=
  if e.mig.isSome then (s, true)
  else
    match readWords (whoSup s c) c (e.slot.toNat + 8) 1 s with
    | .error (.trap _ _) => (s, true)
    | .error _ => (s, false)
    | .ok (g, t) =>
      let out := t.txns.any (fun x => x.src == t.modIdx && x.task == some (wd g) && (match x.op with | .amo _ _ _ _ => true | .red _ _ _ => true | _ => false))
      match t.lastDie.find? g with
      | none => orderTry c true false false false e.acq t
      | some d =>
        if d = dOf c then orderTry c true false false false e.acq t
        else
          match orderTry (128 * d) true true true false .s t with
          | (u, false) => (u, false)
          | (u, true) => if out then (u, false) else orderTry c true true true false .s u

/-- Whether a control dword names a killed domain (20 R455). -/
def ctlKilled (s : State) (ctl : Nat) : Bool := bits ctl 31 16 != 0 && s.killed.contains (bits ctl 31 16)

/-- Core c runs an entry it has taken (08 R164, R166, R171; 04 R77); none while a read of the record waits. kind is 2 for a
pick and 5 for a steal from core arg. A record of a killed domain is discarded (20 R455). Log 35, DEDUCED, unsafe; log 51,
DEDUCED, unsafe; log 95, DEDUCED, unsafe. -/
def runEntry (c k kind arg : Nat) (e : QEntry) (s : State) : Option State :=
  match e.mig with
  | some m =>
    if ctlKilled s m.ctl.toNat then some s
    else
    let t := startTask c m.trec m.pc m.gtid m.ctl m.joinw m.regs s
    some (traceRec c kind m.gtid k arg m.pc (modCore c (fun x =>
      { x with fcsr := m.fcsr, tshape := m.tshape, rngkey := m.rngkey, rngcnt := m.rngcnt }) t))
  | none =>
    match readWords (whoSup s c) c e.slot.toNat 8 s with
    | .error (.stall _ _ _) => none
    | .error _ => some (hwFault c 0x501 e.slot s)
    | .ok (v, t) =>
      if ctlKilled t (dwordOf v 2) then some t
      else if recordOk (coreOf t c) v && memberOk (coreOf t c) e.slot v then
        let d (i : Nat) : Word := wd (dwordOf v i)
        let regs : AList Word := [(10, d 4), (11, d 5), (12, d 6), (13, d 7)]
        some (traceRec c kind (d 1) k arg (d 0)
          (startTask c e.slot (d 0) (d 1) (setBits (d 2) 47 32 0) (d 3) regs t))
      else some (hwFault c 0x501 e.slot t)

/-- A bit of the record at a slot is set by the hardware of core c; a fault leaves it (08 R173), and none while the access waits.
Log 51, DEDUCED, unsafe. -/
def markRecord (c b : Nat) (slot : Word) (s : State) : Option State :=
  match readWords (whoSup s c) c (slot.toNat + 16) 1 s with
  | .error (.trap _ _) => some s
  | .error _ => none
  | .ok (v, t) =>
    match writeWords (whoSup s c) c (slot.toNat + 16) (v ||| 2 ^ b) 1 t with
    | .error _ => some s
    | .ok u => some (drainAll c u)

/-- Whether a core lies in the residence scope of the record at a slot (08 R159, R172); none while the record's read waits. -/
def inScope (s : State) (thief victim : Nat) (slot : Word) : Option Bool :=
  match readWords (whoSup s victim) victim (slot.toNat + 16) 1 s with
  | .error (.trap _ _) => some false
  | .error _ => none
  | .ok (v, _) =>
    let sc := bits v 4 2
    if sc = 0 ∨ sc = 3 then some ((barnCores s (clOf victim)).contains thief)
    else if sc = 2 then some (clOf thief == clOf victim)
    else some (clOf thief == clOf victim && thief % 4 / 2 == victim % 4 / 2)

end Sys2Proof.Machine

end
end

