-- ==== Sys2Proof/Machine/Mmio.lean ====
section
/-!
DEFINITION. The MMIO map (02 R45): what a read of each register returns and what a write does to it, by the rule that gives
its fields; the hub configuration registers (02 R46) and the key commands (02 R44).
-/

noncomputable section

namespace Sys2Proof.Machine

open Sys2Proof

/-- Poisons n GiB of a die's local range from a GiB offset (02 R28, R46). -/
def poisonGiB (d off n : Nat) (s : State) : State :=
  if n = 0 then s else poisonRange (d * 2 ^ 30 + off * 2 ^ 23) (d * 2 ^ 30 + (off + n) * 2 ^ 23) s

/-- The interleaved window reads as poisoned until it is written (02 R28, R46). -/
def poisonInterleaved (s : State) : State := s.live.foldl (fun t d => poisonGiB d (128 - ipsize s) (ipsize s) t) s

/-- The live list becomes the map's (01 R15); where the number of live dies changes with it, the interleaved window reads as
poisoned until it is written (02 R28). -/
def setLive (s : State) : State :=
  let l := liveDies s
  if l.length = s.live.length then { s with live := l } else poisonInterleaved { s with live := l }

/-- The local range of the protected window reads as poisoned until it is written (02 R46). -/
def poisonProtected (s : State) : State :=
  (plist s).foldl (fun t d => poisonGiB d (128 - ipsize s - ppsize s) (ppsize s) t) s

/-- The yard range reads as poisoned until it is written (02 R46): its lines are keyed apart from local ones. Log 104,
DEDUCED, unsafe. -/
def poisonYard (s : State) : State :=
  if ysize s = 0 then s else poisonRange (2 ^ 46 + yardBase / 128) (2 ^ 46 + yardBase / 128 + ysize s * 2 ^ 23) s

/-- Whether the hub accepts a write of IVSET, PVSET, YGSET or HDMCFG: no barn resident or saved, no queue enabled (02
R46). -/
def hubQuiet (s : State) : Bool :=
  s.barns.all (fun b => b.st == .complete) && s.queues.all (fun q => !(bit q.2.ctl.toNat 63))

/-- A write of IVSET (02 R46). -/
def putIvset (v : Nat) (s : State) : State :=
  let n := v % 128
  if !(hubQuiet s) || decide (64 < n) || decide (128 < n + ppsize s) || decide (s.live.length * n < bits s.hdmcfg.toNat 8 0) then s
  else if n = ipsize s then s
  else
    poisonInterleaved { s with ivset := wd n }

/-- A write of PVSET (02 R46). -/
def putPvset (v : Nat) (s : State) : State :=
  let ys := bits v 23 16
  let yp := bits v 10 8
  let pp := v % 64
  if !(hubQuiet s) || decide (128 < ys) || ys % 4 != 0 || decide (5 < yp) || decide (48 < pp) || pp % 3 != 0 ||
      decide (128 < pp + ipsize s) then s
  else
    let t : State := { s with pvset := wd (ys * 2 ^ 16 + yp * 2 ^ 8 + pp) }
    let u := if pp = ppsize s then t else poisonProtected t
    if ys = ysize s ∧ yp = ypos s then u else poisonYard u

/-- A write of YGSET (02 R46). -/
def putYgset (v : Nat) (s : State) : State :=
  if hubQuiet s then
    let t : State := { s with ygset := wd (bits v 63 56 * 2 ^ 56 + v % 2 ^ 48) }
    let u := if bits v 63 56 = ysoff s then t else poisonInterleaved t
    if v % 2 ^ 48 = s.ygset.toNat % 2 ^ 48 then u else poisonYard u
  else s

/-- A write of HDMCFG (02 R46). -/
def putHdmcfg (v : Nat) (s : State) : State :=
  let n := v % 512
  if !(hubQuiet s) || decide (256 < n) || decide (s.live.length * ipsize s < n) then s else { s with hdmcfg := wd n }

/-- A write of KEYCMD (02 R44): the clearing of ERR first, what its OP does second. Log 103, DEDUCED, unsafe. -/
def putKeycmd (v w : Nat) (s : State) : State :=
  let op := v % 8
  let k := fieldWrite 0xFF00 (2 ^ 62) s.keycmd v w
  if op = 0 then { s with keycmd := k }
  else if 3 ≤ op ∨ bit s.keycmd.toNat 63 then { s with keycmd := k ||| wd (2 ^ 62) }
  else { s with keycmd := k ||| wd (2 ^ 63), keyOp := op + 8 * bits v 15 8 }

/-- The number of the key pair that KEYDATA holds (02 R44). Log 12, DESIGN CHOICE, safe. -/
def keyPair (s : State) : Nat := 2 * (List.range 8).foldl (fun a i => a + (s.keydata.get 0 i).toNat * 2 ^ (64 * i)) 0

/-- The number of the k-th random pair of the hub die's generator (02 R42). Log 12, DESIGN CHOICE, safe. -/
def randomPair (k : Nat) : Nat := 2 * k + 1

/-- A running key command finishes (02 R44): the slot holds KEYDATA's pair, which is zeroed, or is empty. -/
def keyDone (s : State) : State :=
  if bit s.keycmd.toNat 63 then
    let slot := s.keyOp / 8
    let t : State := { s with keycmd := wd (s.keycmd.toNat % 2 ^ 63), keyOp := 0 }
    if s.keyOp % 8 = 1 then { t with keys := AList.put slot (keyPair s) t.keys, keydata := [] }
    else { t with keys := AList.del slot t.keys }
  else s

/-- Queue q. -/
def qOf (s : State) (q : Nat) : HostQ := s.queues.get {} q
/-- Changes queue q. -/
def modQ (q : Nat) (f : HostQ → HostQ) (s : State) : State := { s with queues := s.queues.put q (f (qOf s q)) }

/-- A write of HQCTL (17 R393): ROOT and TENANT are ignored while EN is 1. -/
def putHqctl (q v w : Nat) (s : State) : State :=
  modQ q (fun x =>
    let rw := if bit x.ctl.toNat 63 then 0xC000000000000000 else 0xC00FFFFFFFFFF0FF
    { x with ctl := fieldWrite rw 0x3000000000000000 x.ctl v w }) s

/-- A write of HQTAIL: the doorbell (17 R393, R394). -/
def putHqtail (q v : Nat) (s : State) : State := modQ q (fun x => { x with tail := wd v }) s

/-- Whether a tenant has a barn that is resident or saved. -/
def hasBarn (s : State) (t : Nat) : Bool := s.barns.any (fun b => b.tenant == t && b.st != .complete)

/-- Whether two rectangles of the cluster mesh overlap (17 R404). -/
def rectsMeet (a b : Nat) : Bool :=
  decide (bits a 15 13 ≤ bits b 15 13 + bits b 12 10) && decide (bits b 15 13 ≤ bits a 15 13 + bits a 12 10) &&
    decide (bits a 9 6 ≤ bits b 9 6 + bits b 5 2) && decide (bits b 9 6 ≤ bits a 9 6 + bits a 5 2)

/-- A write of a paddock entry (17 R404). -/
def putPaddock (t v w : Nat) (s : State) : State :=
  let old := s.paddocks.get 0 t
  let cleared := fieldWrite 0 (2 ^ 62) old 0 w
  let leaves := decide (7 < bits v 15 13 + bits v 12 10) || decide (15 < bits v 9 6 + bits v 5 2)
  let meets := s.paddocks.any (fun e => e.1 != t && bit e.2.toNat 63 && rectsMeet e.2.toNat v)
  if leaves || meets || hasBarn s t then { s with paddocks := s.paddocks.put t (cleared ||| wd (2 ^ 62)) }
  else { s with paddocks := s.paddocks.put t (fieldWrite 0x800000000000FFFC (2 ^ 62) old v w) }

/-- Every task of a cluster that waits on a barrier descriptor takes its fault (15 R367; 16 R386). -/
def barFaults (cl i : Nat) (s : State) : State :=
  forN 8 (fun k t => modCore (8 * cl + k) (fun x =>
    if x.run = .running ∧ x.stall.any (fun k => k.what == 4 && k.operand == wd i) = true then { x with steFault := some (0x50E, 0) } else x) t) s

/-- A write of a barrier descriptor of a cluster (15 R367). -/
def putBarrier (cl i v : Nat) (s0 : State) : State :=
  let s := if bit v 63 then s0 else barFaults cl i s0
  modCluster cl (fun k =>
    let b := k.bars.get {} i
    let n := bits v 47 33 + 1
    if bit v 63 then
      (if bit b.word.toNat 63 || decide (32767 < bits v 62 48 + (n - 1) * bits v 32 18) || (bits v 32 18 == 0 && decide (1 < n))
       then k else { k with bars := k.bars.put i { word := wd (v / 1024 * 1024), parts := [] } })
    else { k with bars := k.bars.put i { word := wd (v / 1024 * 1024), parts := [] } }) s

/-- A write of DBGRESUME (02 R46; 10 R242; 18 R419). -/
def putDbgresume (v : Nat) (s : State) : State :=
  let c := v % 1024
  let x := coreOf s c
  if bit v 63 && isLive s (dOf c) && (x.run == .halted || x.run == .stopped) then setRun c .running s else s

/-- A write of PREEMPT (17 R406). -/
def putPreempt (v : Nat) (s : State) : State :=
  if bit s.preempt.toNat 63 || (bit v 8 && bit v 9) then s
  else { s with preempt := wd (2 ^ 63 + v % 1024) }

/-- Dword i of a core's wait-table entry (17 R409). -/
def waitDword (x : CoreSt) (i : Nat) : Word :=
  let st := waitState x
  if i = 0 then (if x.haveTask then x.gtid else 0)
  else if i = 1 then wd (st * 2 ^ 60 + (if st = 3 then (x.stall.map (fun k => k.what)).getD 0 else 0) * 2 ^ 56 + x.since % 2 ^ 56)
  else if st = 3 then (x.stall.map (fun k => k.operand)).getD 0
  else 0

/-- Dword i of a domain-table entry (20 R453). -/
def domDword (e : Option Dom) (i : Nat) : Word :=
  match e with
  | none => 0
  | some d =>
    if i = 0 then
      wd (2 ^ 63 + d.state * 2 ^ 61 + d.retries * 2 ^ 59 + d.depth * 2 ^ 56 + d.id * 2 ^ 40 + d.parent * 2 ^ 24 + d.dies * 2 ^ 16 +
        (dOf d.origin * 2 ^ 13 + clOf d.origin % 16 * 2 ^ 9 + d.origin % 8 * 2 ^ 6))
    else d.root

/-- Rotor plane p. -/
def planeOf (s : State) (p : Nat) : Plane := s.planes.get {} p
/-- Changes rotor plane p. -/
def modPlane (p : Nat) (f : Plane → Plane) (s : State) : State := { s with planes := s.planes.put p (f (planeOf s p)) }

/-- A read of a cluster block (02 R45). -/
def clusterRead (s : State) (cl o : Nat) : Word :=
  if isLive s (clDie cl) = false then 0
  else
    let k := clusterOf s cl
    if o < 0x200 then (k.bars.get {} (o / 8)).word
    else if 0x1000 ≤ o ∧ o < 0x10C0 then waitDword (coreOf s (8 * cl + (o - 0x1000) / 24)) ((o - 0x1000) % 24 / 8)
    else if 0x2000 ≤ o ∧ o < 0x2080 then dieMapOf k ((o - 0x2000) / 8)
    else if o = 0x2080 then wd (k.mapgen % 2 ^ 16)
    else 0

/-- The 8 bytes a read of an 8-byte-aligned MMIO offset returns (02 R45). Log 34, DEDUCED, unsafe. -/
def mmioRead (s : State) (o : Nat) : Word :=
  if o = 0x00 then s.ivset
  else if o = 0x08 then s.pvset
  else if o = 0x10 then s.ygset
  else if o = 0x18 then s.hdmcfg
  else if o = 0x20 then s.hbmNext
  else if o = 0x28 then s.platstat
  else if o = 0x30 then wd s.time
  else if o = 0x38 then s.votecfg
  else if o = 0x40 then s.ckptcfg
  else if o = 0x48 then s.relaycfg
  else if o = 0x50 then s.wlthr
  else if o = 0x58 then s.hangcfg
  else if o = 0x60 then s.preempt &&& wd (2 ^ 63 + 0xFF)
  else if o = 0x70 then s.bkphit
  else if o = 0x1040 then s.keycmd
  else if 0x10000 ≤ o ∧ o < 0x11000 then
    (let q := qOf s ((o - 0x10000) / 0x40)
     let r := o % 0x40
     if r = 0x00 then q.base else if r = 0x08 then q.tail else if r = 0x10 then q.head else if r = 0x18 then q.ctl
     else if r = 0x20 then q.tvec else if r = 0x28 then q.dump else 0)
  else if 0x20000 ≤ o ∧ o < 0x20800 then s.paddocks.get 0 ((o - 0x20000) / 8)
  else if 0x30000 ≤ o ∧ o < 0x30100 then
    (let b := s.bkps.get (0, 0) ((o - 0x30000) / 16)
     if o % 16 = 0 then b.1 else b.2)
  else if 0x40000 ≤ o ∧ o < 0x44000 then
    (let p := planeOf s ((o - 0x40000) / 0x400)
     let r := o % 0x400
     if r = 0 then p.cfg else if 0x100 ≤ r ∧ r < 0x300 then p.cal.get 0 ((r - 0x100) / 8) else 0)
  else if 0x50000 ≤ o ∧ o < 0x52000 then s.wlstat.get 0 ((o - 0x50000) / 8)
  else if 0x60000 ≤ o ∧ o < 0x70000 then domDword (AList.find? s.doms ((o - 0x60000) / 16)) (o % 16 / 8)
  else if 0x10000000 ≤ o ∧ o < 0x18000000 then
    clusterRead s ((o - 0x10000000) / 2 ^ 24 * 16 + o / 2 ^ 20 % 16) (o % 2 ^ 20)
  else 0

/-- Whether a block also appears in the module's BAR 0 (02 R45). -/
def hostBlock (o : Nat) : Bool :=
  [0x18, 0x28, 0x30, 0x40, 0x60, 0x68, 0x70].contains o || (decide (0x10000 ≤ o) && decide (o < 0x11000)) ||
    (decide (0x30000 ≤ o) && decide (o < 0x30100))

/-- A write of a rotor plane's register (19 R436): it takes effect at the next rotation boundary. -/
def putRotor (p r v : Nat) (s : State) : State :=
  modPlane p (fun x =>
    if r = 0 then
      let old := x.cfgNext.getD x.cfg
      let bad := decide (bits v 31 27 < 2) || decide (20 < bits v 31 27)
      { x with cfgNext := some (fieldWrite (if bad then 0x8000003F0001FFFF else 0x8000003FF801FFFF) 0 old v 0) }
    else if 0x100 ≤ r ∧ r < 0x300 then { x with calNext := x.calNext.put ((r - 0x100) / 8) (wd v &&& 0x80000000000000FF) }
    else x) s

/-- A write of 8 bytes at an 8-byte-aligned MMIO offset: v the value, w the bits that clear W1C fields and act on WO
fields (02 R45; 00 R4). -/
def mmioWrite (o v w : Nat) (s : State) : State :=
  if o = 0x00 then putIvset v s
  else if o = 0x08 then putPvset v s
  else if o = 0x10 then putYgset v s
  else if o = 0x18 then putHdmcfg v s
  else if o = 0x20 then (if bits v 15 0 < 256 then s else { s with hbmNext := wd (bits v 15 0) })
  else if o = 0x38 then { s with votecfg := fieldWrite 0x3F3F 0 s.votecfg v 0 }
  else if o = 0x40 then { s with ckptcfg := fieldWrite 0xFFF000 0 s.ckptcfg v 0 }
  else if o = 0x48 then
    { s with relaycfg := fieldWrite (if 64 < bits v 42 36 then 0x8000000FFFFFFFFF else 0x800007FFFFFFFFFF) 0 s.relaycfg v 0 }
  else if o = 0x50 then (if bits v 15 0 = 0 then s else { s with wlthr := wd (bits v 15 0) })
  else if o = 0x58 then { s with hangcfg := wd (bits v 31 0) }
  else if o = 0x60 then putPreempt v s
  else if o = 0x68 then putDbgresume w s
  else if o = 0x70 then { s with bkphit := fieldWrite 0 (2 ^ 63) s.bkphit 0 w }
  else if 0x1000 ≤ o ∧ o < 0x1040 then { s with keydata := AList.put ((o - 0x1000) / 8) (wd w) s.keydata }
  else if o = 0x1040 then putKeycmd v w s
  else if 0x10000 ≤ o ∧ o < 0x11000 then
    (let q := (o - 0x10000) / 0x40
     let r := o % 0x40
     if r = 0x00 then
       modQ q (fun x => if bit x.ctl.toNat 63 then x else { x with base := fieldWrite 0x000FFFFFFFFFF00F 0 x.base v 0 }) s
     else if r = 0x08 then putHqtail q v s
     else if r = 0x18 then putHqctl q v w s
     else if r = 0x20 then modQ q (fun x => { x with tvec := wd v }) s
     else if r = 0x28 then modQ q (fun x => { x with dump := wd v }) s
     else s)
  else if 0x20000 ≤ o ∧ o < 0x20800 then putPaddock ((o - 0x20000) / 8) v w s
  else if 0x30000 ≤ o ∧ o < 0x30100 then
    (let n := (o - 0x30000) / 16
     let b := s.bkps.get (0, 0) n
     { s with bkps := s.bkps.put n (if o % 16 = 0 then (wd v &&& 0xE00000000000003F, b.2) else (b.1, wd v)) })
  else if 0x40000 ≤ o ∧ o < 0x44000 then putRotor ((o - 0x40000) / 0x400) (o % 0x400) v s
  else if 0x10000000 ≤ o ∧ o < 0x18000000 ∧ o % 2 ^ 20 < 0x200 then
    (let cl := (o - 0x10000000) / 2 ^ 24 * 16 + o / 2 ^ 20 % 16
     if isLive s (clDie cl) then putBarrier cl (o % 2 ^ 20 / 8) v s else s)
  else s

/-- What a write merges with when it names half a register: the value as the next write would find it. -/
def mmioStored (s : State) (o : Nat) : Word :=
  if o = 0x20 then s.hbmNext
  else if 0x40000 ≤ o ∧ o < 0x44000 then
    (let p := planeOf s ((o - 0x40000) / 0x400)
     let r := o % 0x400
     if r = 0 then p.cfgNext.getD p.cfg
     else if 0x100 ≤ r ∧ r < 0x300 then (p.calNext.find? ((r - 0x100) / 8)).getD (p.cal.get 0 ((r - 0x100) / 8)) else 0)
  else if 0x1000 ≤ o ∧ o < 0x1040 then AList.get 0 s.keydata ((o - 0x1000) / 8)
  else mmioRead s o

/-- A load of 4 or 8 bytes at an MMIO offset (02 R45). -/
def mmioLoad (s : State) (off n : Nat) : Nat :=
  let v := (mmioRead s (off / 8 * 8)).toNat
  if n = 8 then v else v / 2 ^ (8 * (off % 8)) % 2 ^ 32

/-- A store of 4 or 8 bytes at an MMIO offset (02 R45): a 4-byte store reaches the half it names. -/
def mmioStore (off n v : Nat) (s : State) : State :=
  let o := off / 8 * 8
  if n = 8 then mmioWrite o (v % 2 ^ 64) (v % 2 ^ 64) s
  else
    let sh := 8 * (off % 8)
    let half := v % 2 ^ 32 * 2 ^ sh
    let old := (mmioStored s o).toNat
    let merged := if sh = 0 then old / 2 ^ 32 * 2 ^ 32 + half else old % 2 ^ 32 + half
    let wo := if 0x1000 ≤ o ∧ o < 0x1040 then merged else half
    mmioWrite o merged wo s

/-- The MMIO offset of a physical address of kind 5 (02 R45). -/
def mmioOff (pa : Nat) : Nat := pa % 2 ^ 48

end Sys2Proof.Machine

end
end

