-- ==== Sys2Proof/Machine/Memory.lean ====
section
/-!
DEFINITION. What memory instructions share (11 R244 to R246): the gates before an access, resolving its bytes, the migration
predictor (04 R75 to R77), loading and storing resolved bytes, indivisible read-modify-writes (11 R256), and update-only
reductions (04 R79 to R82).
-/

noncomputable section

namespace Sys2Proof.Machine

open Sys2Proof

/-- What every memory operation of the running core waits for at issue: an ldf that waits, or an acquire that is not performed at
another module (06 R126), and the log of its die after a context switch (02 R38). Log 49, DEDUCED, unsafe. -/
def memGate (s : State) : Except Exc State :=
  let c := s.cur
  let x := me s
  match x.windows.findSome? (fun w => match w.st with | .waitTag _ _ va => some va | _ => none) with
  | some va => .error (.stall 1 (wd va))
  | none =>
    if x.windows.any (fun w => w.acq && (match w.st with | .waitTxn _ => true | _ => false)) then .error (.stall 12 0)
    else
      match logGate c s with
      | (t, true) => .ok t
      | (t, false) => .error (.leave (setStall c 12 0 t))

/-- A window access to another core waits while that core's split changes (03 R49). -/
def windowBusy (s : State) (va : Nat) : Bool :=
  let home := bits va 31 22
  inWindows va && decide (va < 0x00E0000100000000) && decide (home ≠ s.cur) && decide (home < 1024) && spBusy s home

/-- The pieces of a scalar access: whole when aligned, else single bytes (11 R246; 06 R113). -/
def piecesOf (va n : Nat) : List (Nat × Nat) :=
  if va % n = 0 then [(va, n)] else (List.range n).map (fun i => ((va + i) % 2 ^ 64, 1))

/-- The form of a scalar access's pieces (11 R246). -/
def scalarForm (va n : Nat) : Form := if va % n = 0 then .scalar n else .part n

/-- A resolved piece: where it goes, its bytes, its address. -/
structure Piece where
  ref : Ref
  n : Nat
  va : Nat
  deriving DecidableEq, Repr

/-- Resolves pieces in ascending order; the first that fails decides the fault (11 R244). -/
def resolvePieces (w : Who) (acc : Acc) (f : Form) : List (Nat × Nat) → State → Except Exc (List Piece × State)
  | [], s => .ok ([], s)
  | (va, n) :: rest, s =>
    if windowBusy s va then .error (.stall 12 0)
    else
      match resolve w acc f va s with
      | .error k => .error (.trap k (wd va))
      | .ok (r, t) =>
        match resolvePieces w acc f rest t with
        | .error e => .error e
        | .ok (l, u) => .ok (⟨r, n, va⟩ :: l, u)

/-! Migration. -/

/-- Whether a core's task may migrate to a home (04 R76). A pushed command is unacknowledged until it is complete: the spec does not
say what acknowledges it (log 33). Log 33, DEDUCED, unsafe. -/
def migrationAllowed (s : State) (c home : Nat) : Bool :=
  let x := coreOf s c
  let sc := bits x.ctl.toNat 4 2
  let scope :=
    if sc = 0 ∨ sc = 3 then (barnAt s (clOf c)).isSome && (barnCores s (clOf c)).contains home
    else if sc = 2 then clOf home == clOf c
    else clOf home == clOf c && home % 4 / 2 == c % 4 / 2
  bit x.migcfg.toNat 0 && !x.tileuse && x.windows.isEmpty && !isSup x && x.haveTask && !x.ganged && (leaseOf s c).isNone &&
    x.ports.all (fun p => p.2.part.isEmpty && p.2.ret.isEmpty) && (List.range 4).all (fun p => outCount s c p == 0) &&
    scope && (coreOf s home).member == none && qRoom (coreOf s home) 0 1

/-- The task of core c, which is ready to leave (leaveReady), migrates to a home (04 R77), or why its context cannot be pushed. -/
def migrate (c home : Nat) (s : State) : Except Nat State :=
  let x := coreOf s c
  let m : MigCtx :=
    { regs := x.regs, pc := x.pc, gtid := x.gtid, ctl := x.ctl, joinw := x.joinw, trec := x.trec, fcsr := x.fcsr
      tshape := x.tshape, rngkey := x.rngkey, rngcnt := x.rngcnt }
  match pushQ home 0 { slot := x.trec, cyc := (dieOf s (dOf home)).cyc, mig := some m } s with
  | .error e => .error e
  | .ok u =>
    let v := wakeCore home none (traceRec home 1 x.gtid 0 (yidx s c) x.pc (traceRec c 6 x.gtid 0 0 x.pc u))
    .ok (leaveCore c false (count 0x51 1 c v))

/-- A remote load, store, atomic, lr or sc trains the predictor, and may migrate the task instead of being performed (04 R75);
orig is the state before the instruction popped a port. Log 45, DEDUCED, unsafe. -/
def trainOr (orig : State) (home : Option Nat) (k : State → Except Exc State) (s : State) : Except Exc State :=
  let c := s.cur
  match home with
  | none => k s
  | some h =>
    if h = c then k s
    else
      let x := me s
      let idx := bits x.pc.toNat 15 8 ^^^ bits x.pc.toNat 23 16
      let n := match x.pred.find? idx with
        | some e => if e.home = h then min (e.count + 1) 3 else 1
        | none => 1
      let put (cnt : Nat) (t : State) : State := modCore c (fun y => { y with pred := y.pred.put idx { home := h, count := cnt } }) t
      if n < 2 then k (put n s)
      else if migrationAllowed s c h && (coreOf orig c).ports.all (fun p => p.2.ret.isEmpty) then
        match leaveReady c s with
        | (t, false) => .error (.leave (setStall c 12 0 t))
        | (t, true) =>
          match migrate c h (put 0 t) with
          | .ok u => .error (.leave u)
          | .error e => k (count 0x52 1 c (put n (if e = 0x504 then spillFault h s else s)))
      else k (count 0x52 1 c (put n s))

/-- The home that trains the predictor: that of the first piece (04 R75). Log 45, DEDUCED, unsafe. -/
def homeFor (s : State) (w : Who) (l : List Piece) : Option Nat :=
  match l with
  | [] => none
  | p :: _ => homeOf s w.tenant w.cl p.ref

/-! Loads and stores. -/

/-- Loads resolved pieces in order: the values, the first fault that arrives with its address, the fetches. A remote line
fetched once serves every piece of the instruction (04 R86; 11 R252). -/
def loadPieces (c : Nat) (w : Who) : List Piece → AList (AList Nat) → State →
    Except Exc (List Nat × Option (Nat × Nat) × List (Nat × Nat) × State)
  | [], _, s => .ok ([], none, [], s)
  | p :: rest, cache, s =>
    let r := p.ref
    let line := r.pa / 128
    let see (bs : AList Nat) : Nat := overlay (coreOf s c) line (r.pa % 128) (pickBytes bs (r.pa % 128) p.n) p.n
    let next (v : Nat) (f : Option Nat) (x : List Nat) (ch : AList (AList Nat)) (t : State) :
        Except Exc (List Nat × Option (Nat × Nat) × List (Nat × Nat) × State) :=
      match loadPieces c w rest ch t with
      | .error e => .error e
      | .ok (vs, g, ys, u) => .ok (v :: vs, (f.map (fun k => (k, p.va))).or g, x.map (fun k => (k, p.va)) ++ ys, u)
    if r.kind = 5 then next (mmioLoad s (mmioOff r.pa) p.n) none [] cache s
    else if r.kind = 4 then
      match cache.find? line with
      | some bs => next (see bs) none [] cache s
      | none =>
        match rpLoad c line r.key s with
        | .error e => .error e
        | .ok (bs, txn, f, t) => next (see bs) f txn.toList (cache.put line bs) t
    else
      match loadRef c w r p.n s with
      | .error e => .error e
      | .ok (v, f, x, t) => next v f x.toList cache t

/-- The value of the pieces of one scalar access, little-endian. -/
def joinPieces : List Piece → List Nat → Nat
  | p :: ps, v :: vs => v + 2 ^ (8 * p.n) * joinPieces ps vs
  | _, _ => 0

/-- Stores the bytes of v to resolved pieces in order. -/
def storePieces (c : Nat) (w : Who) : List Piece → Nat → State → State
  | [], _, s => s
  | p :: rest, v, s =>
    let t :=
      if p.ref.kind = 5 then mmioStore (mmioOff p.ref.pa) p.n v s
      else storeRef c w p.ref (bytesOf (p.ref.pa % 128) v p.n) s
    storePieces c w rest (v / 2 ^ (8 * p.n)) t

/-- The window of a load: its result on its way, or the fault that arrives with it (18 R422). -/
def openLoad (la : Nat) (dx : List Nat) (xval : List (Nat × Word)) (f : Option (Nat × Nat)) (txns : List (Nat × Nat)) (s : State) : State :=
  let st : WinSt := match f with
    | some (k, va) => .faulty k (wd va)
    | none => .flying
  modCore s.cur (openWin (pcOf s).toNat la dx [] st xval [] 0 txns) s

/-- The pending scalar destination of a register field (09 R197). -/
def destX (rd : Reg) : List Nat := if rd.val = 0 then [] else [rd.val]

/-- A scalar load (11 R247, R249): n bytes at an address, extended by ext; acq is the scope of an acquiring load. -/
def loadBody (rd rs1 : Reg) (off : Int) (n : Nat) (ext : Nat → Word) (acq : Option Scope) (la : Nat) (s : State) : Except Exc State := do
  let s1 ← memGate s
  let s2 ← match acq with
    | some sc => orderOp s.cur true false false false sc s1
    | none => .ok s1
  let (a, s3) ← readX rs1 s2
  let va := (a + immW off).toNat
  if acq.isSome && va % n != 0 then .error (.trap 0x201 (wd va))
  else do
    let w := whoCore s3 s.cur
    let (ps, s4) ← resolvePieces w .load (scalarForm va n) (piecesOf va n) s3
    trainOr s (homeFor s4 w ps) (fun s5 => do
      let (vs, f, txns, s6) ← loadPieces s.cur w ps [] s5
      let s7 := countAccess s.cur w false (ps.map (fun p => p.ref)) s6
      pure (openLoad la (destX rd) [(rd.val, ext (joinPieces ps vs))] f txns s7)) s4

/-- A store at the target module of a releasing store of scope .s to a kind 4 line: it does not wait in the partition (07
R152). -/
def storeThrough (c : Nat) (p : Piece) (v : Nat) (s : State) : Except Exc State :=
  let line := p.ref.pa / 128
  let d := dOf c
  if l2Busy s d || rpPending s d line then .error (.stall 12 0)
  else
    let bs := bytesOf (p.ref.pa % 128) v p.n
    let t := modDie d (fun x => { x with rp := x.rp.map (fun l =>
      if l.line = line then { l with bytes := bs.foldl (fun m e => AList.put e.1 e.2 m) l.bytes } else l) }) s
    .ok (breakResv (some c) line (postWrite c line p.ref.key bs t))

/-- A scalar store (11 R248, R249): rel is the scope of a releasing store. -/
def storeBody (rs2 rs1 : Reg) (off : Int) (n : Nat) (rel : Option Scope) (s : State) : Except Exc State := do
  let s1 ← memGate s
  let s2 ← match rel with
    | some sc => orderOp s.cur false true false true sc s1
    | none => .ok s1
  let (a, s3) ← readX rs1 s2
  let (v, s4) ← readX rs2 s3
  let va := (a + immW off).toNat
  if rel.isSome && va % n != 0 then .error (.trap 0x201 (wd va))
  else do
    let w := whoCore s4 s.cur
    let (ps, s5) ← resolvePieces w .store (scalarForm va n) (piecesOf va n) s4
    trainOr s (homeFor s5 w ps) (fun s6 =>
      let s7 := countAccess s.cur w false (ps.map (fun p => p.ref)) s6
      match rel, ps with
      | some .s, [p] => if p.ref.kind = 4 then storeThrough s.cur p v.toNat s7 else .ok (drainAll s.cur (storePieces s.cur w ps v.toNat s7))
      | some _, _ => .ok (drainAll s.cur (storePieces s.cur w ps v.toNat s7))
      | none, _ => .ok (storePieces s.cur w ps v.toNat s7)) s5

/-! Atomics. -/

/-- An address of this module that a kind 4 address names through the loopback (02 R22). -/
def loopRef (r : Ref) : Ref :=
  let a := r.pa % 2 ^ 42
  { kind := (kindOfPa a).getD 0, pa := a, key := r.key, home := 0xFF }

/-- The line of a reference among the lines of reservations (06 R134). -/
def resvLine (s : State) (r : Ref) : Nat :=
  if r.kind = 6 then spLine (r.pa / 2 ^ 22) (r.pa % 2 ^ 22)
  else if r.kind = 4 ∧ modOf r.pa = s.modIdx then (loopRef r).pa / 128
  else r.pa / 128

/-- Writes n bytes of one line without the combining buffer. -/
def storeNow (c : Nat) (w : Who) (r : Ref) (v n : Nat) (s : State) : State :=
  if r.kind = 6 then storeRef c w r (bytesOf (r.pa % 128) v n) s
  else
    let key := if r.kind ≤ 2 then (keyGenOf s r.key).getD 0 else r.key
    performStore c { line := r.pa / 128, kind := r.kind, key := key, home := r.home, tenant := w.tenant, bytes := bytesOf (r.pa % 128) v n, cyc := 0 } s

/-- An indivisible read-modify-write of n bytes where they lie (11 R256; 06 R133): the old value, the fault that arrives,
and the state. f gives the value to store, if any. -/
def rmw (c : Nat) (w : Who) (r : Ref) (n : Nat) (f : Nat → Option Nat) (s : State) : Except Exc (Nat × Option Nat × State) :=
  if r.kind = 4 then
    let t := loopRead (r.pa / 128) s
    match loopFault t r.pa r.key with
    | some k => .ok (0, some k, t)
    | none =>
      let old := bytesAt t (loopRef r).kind ((keyGenOf t r.key).getD 0) (loopRef r).pa n
      .ok (old, none, match f old with | some v => remWrite (r.pa / 128) r.key (bytesOf (r.pa % 128) v n) t | none => t)
  else
    match loadRef c w r n s with
    | .error e => .error e
    | .ok (_, some k, _, t) => .ok (0, some k, t)
    | .ok (old, none, _, t) => .ok (old, none, match f old with | some v => storeNow c w r v n t | none => t)

/-- The line's dirty bytes leave the remote partition and the line is invalidated, before an atomic at its target (04
R86). -/
def rpEvict (c line : Nat) (s : State) : State :=
  match rpFind s (dOf c) line with
  | some l => modDie (dOf c) (fun d => { d with rp := d.rp.filter (fun k => k.line != line) }) (rpWriteback c l s)
  | none => s

/-- The result of an operation code of 11 R255 in its destination. -/
def amoResult (op : Nat) (dbl : Bool) (old : Nat) : Word :=
  if dbl then wd old else if op = 9 then wd (old % 2 ^ 32) else sext32 old

/-- The recall that an sc makes before it looks at its reservation (04 R81, 06 R134). -/
def scRecall (r : Ref) (s : State) : State :=
  if r.kind ≤ 2 then recallLine (r.pa / 128) s
  else if r.kind = 4 ∧ modOf r.pa = s.modIdx then recallLine ((loopRef r).pa / 128) s
  else s

/-- The poison that an sc meets, whether or not it would succeed (05 R96). -/
def scBad (c : Nat) (r : Ref) (s : State) : Option Nat :=
  if r.kind = 6 then spFault (coreOf s (r.pa / 2 ^ 22)) (r.pa % 2 ^ 22) 4
  else if r.kind ≤ 2 then (if lineBad s r.kind r.pa && !(ownWhole (coreOf s c) (r.pa / 128)) then some 0x601 else none)
  else if r.kind = 4 ∧ modOf r.pa = s.modIdx ∧ loopFault s r.pa r.key = some 0x601 then some 0x601
  else none

/-- A remote reduction or atomic goes to its target after what the remote partition holds of the line (04 R82, R86; 06 R139): orig
is the state before the instruction, in which the core waits while the line's dirty bytes are on their way. -/
def rpClear (c : Nat) (orig : State) (line : Nat) (s : State) : Except Exc State :=
  if l2Busy s (dOf c) || rpPending s (dOf c) line then .error (.stall 12 0)
  else
    let t := rpEvict c line s
    if rpPending t (dOf c) line then .error (.leave (setStall c 12 0 (rpEvict c line orig))) else .ok t

/-- The window just opened is an acquire's: later memory operations wait for it (06 R126). -/
def markAcq (c : Nat) (aq : Bool) (s : State) : State :=
  modCore c (fun x => { x with windows := x.windows.dropLast ++ x.windows.getLast?.toList.map (fun w => { w with acq := aq }) }) s

/-- An atomic, lr or sc (11 R255 to R257): op is its code, v and new its operands. Log 52, DEDUCED, unsafe. -/
def amoBody (op : Nat) (rd rs1 : Reg) (dbl aq rl : Bool) (sc : Scope) (la : Nat) (s : State) : Except Exc State := do
  let c := s.cur
  let n := if dbl then 8 else 4
  let s1 ← memGate s
  let s2 ← if aq || rl then orderOp c aq rl false rl sc s1 else .ok s1
  let (a, s3) ← readX rs1 s2
  let v := (getX rd.val (me s3)).toNat
  let new := (getX (rd.val + 1) (me s3)).toNat
  let va := a.toNat
  if (me s3).badX.contains rd.val || (op == 10 && (me s3).badX.contains (rd.val + 1)) then .error (.trap 0x605 0)
  else if va % n ≠ 0 then .error (.trap 0x201 (wd va))
  else do
    let w := whoCore s3 c
    let (ps, s4) ← resolvePieces w (if op = 11 then .load else .store) .atomic [(va, n)] s3
    match ps with
    | [p] =>
      let r := p.ref
      let dx := if op = 10 ∧ rd.val ≠ 0 then [rd.val, rd.val + 1] else destX rd
      let s5 := drainLine c (r.pa / 128) s4
      trainOr s (homeFor s5 w ps) (fun s6 =>
        let s7 := countAccess c w false [r] (if op = 12 then scRecall r s6 else s6)
        let x := me s7
        let ok := op != 12 || x.resv == some ⟨resvLine s6 r, dbl⟩
        let line := resvLine s6 r
        let mark (t : State) : State :=
          if op = 11 then modCore c (fun y => { y with resv := some ⟨line, dbl⟩ }) t
          else if op = 12 then modCore c (fun y => { y with resv := none }) t
          else t
        let res (old : Nat) : Word := if op = 12 then 0 else amoResult op dbl old
        if !ok then
          (match scBad c r s7 with
            | some k => .ok (openLoad la dx [] (some (k, va)) [] s7)
            | none => .ok (openLoad la dx [(rd.val, 1)] none [] (mark s7)))
        else if r.kind = 4 ∧ modOf r.pa ≠ s7.modIdx then
          (match rpClear c s (r.pa / 128) s7 with
            | .error e => .error e
            | .ok s8 =>
               let s9 := newTxn (clOf c) (modOf r.pa) w.tenant r.key r.pa (.amo op dbl v new) 8 0 0 true none (some c) s8
               .ok (markAcq c aq (modCore c (openWin (pcOf s).toNat la dx [] (.waitTxn s8.txnId) [] [] 0 [(s8.txnId, va)]) (mark s9))))
        else do
          let s8 ← if r.kind = 4 then rpClear c s (r.pa / 128) s7 else .ok s7
          let (old, f, s9) ← rmw c w r n (amoNew op (8 * n) v new) s8
          match f with
          | some k => pure (openLoad la dx [] (some (k, va)) [] s9)
          | none => pure (openLoad la dx [(rd.val, res old)] none [] (mark s9))) s5
    | _ => pure s4

/-! Update-only reductions. -/

/-- A reduction combines into the line where it lies (04 R79, R82). -/
def combineAt (who : Option Nat) (r : Ref) (op : RedOp) (n v : Nat) (s : State) : State :=
  let gen := (keyGenOf s r.key).getD 0
  let new := combine op (8 * n) (bytesAt s r.kind gen r.pa n) v
  breakResv who (r.pa / 128) (patchLine r.kind (r.pa / 128) gen (bytesOf (r.pa % 128) new n) s)

/-- A reduction reaches a line's home, or the owning die's L2 where it has none (04 R79, R82). -/
def combineHome (who home : Option Nat) (r : Ref) (op : RedOp) (n v : Nat) (s : State) : State :=
  match home with
  | some h => combineAt who r op n v (l1Touch h (r.pa / 128) true s)
  | none => combineAt who r op n v (touchParity r.kind r.pa (touchAs true r.kind r.pa s))

/-- A reduction combines into a copy that its core holds (04 R79). -/
def combineCopyAt (c : Nat) (r : Ref) (op : RedOp) (dbl : Bool) (v : Nat) (s : State) : State :=
  let n := if dbl then 8 else 4
  let e := r.pa % 128 / n
  modCore c (fun x =>
    match x.copies.find? (fun k => k.line == r.pa / 128) with
    | none => x
    | some k =>
      let old := k.data.get (identity op (8 * n)) e
      let k2 := { k with
        touched := if dbl then k.touched ||| 3 * 2 ^ (2 * e) else k.touched ||| 2 ^ e
        data := k.data.put e (combine op (8 * n) old v) }
      { x with copies := x.copies.filter (fun k => k.line != r.pa / 128) ++ [k2]
               l1 := x.l1.filter (fun l => l.line != r.pa / 128) ++ [{ line := r.pa / 128, dirty := true, uo := some k.idx }] }) s

/-- The copy-table entry that a new copy takes (04 R71, R79): the lowest free one; none where all 16 are in use. -/
def copyEntry (x : CoreSt) : Option Nat := (List.range 16).find? (fun i => !(x.copies.any (fun k => k.idx == i)))

/-- A reduction on a line homed at another core (04 R79): into a copy, allocated when the home's directory has room. -/
def reduceRemote (c home : Nat) (r : Ref) (op : RedOp) (dbl : Bool) (v : Nat) (s : State) : State :=
  let line := r.pa / 128
  match (coreOf s c).copies.find? (fun k => k.line == line) with
  | some k =>
    if k.op = op ∧ k.dbl = dbl then combineCopyAt c r op dbl v s
    else fresh (returnCopy c line s)
  | none => fresh s
where
  fresh (s : State) : State :=
    let line := r.pa / 128
    let n := if dbl then 8 else 4
    let s1 := if copyEntry (coreOf s c) = none then
        match (coreOf s c).copies.head? with
        | some k => returnCopy c k.line s
        | none => s
      else s
    let h := coreOf s1 home
    let full := match h.sharers.find? (fun l => l.line == line) with
      | some l => decide (16 ≤ l.cores.length)
      | none => decide (64 ≤ h.sharers.length)
    if full then count 0x50 1 c (combineHome (some c) (some home) r op n v s1)
    else
      let add (l : List Sharers) : List Sharers :=
        if l.any (fun h => h.line == line) then l.map (fun h => if h.line = line then { h with cores := insertNat c h.cores } else h)
        else l ++ [{ line := line, cores := [c] }]
      let s2 := modCore home (fun x => { x with sharers := add x.sharers }) s1
      let i := (copyEntry (coreOf s2 c)).getD 0
      let k : UoCopy := { idx := i, line := line, home := home, key := (keyGenOf s r.key).getD 0, op := op, dbl := dbl, touched := 0, data := [] }
      let s3 := modCore c (fun x => { x with copies := x.copies ++ [k] }) s2
      combineCopyAt c r op dbl v (l1Enter (l1Fuel s3) c { line := line, dirty := true, uo := some i } s3)

/-- A reduction on one element (04 R79, R82; 11 R258). -/
def reduceAt (c : Nat) (w : Who) (r : Ref) (op : RedOp) (dbl : Bool) (v : Nat) (s : State) : Except Exc State :=
  let n := if dbl then 8 else 4
  if r.kind = 6 then
    let home := r.pa / 2 ^ 22
    let off := r.pa % 2 ^ 22
    .ok (spWrite (some c) home (bytesOf off (combine op (8 * n) (spRead s home off n) v) n) s)
  else if r.kind = 3 then
    let new := combine op (8 * n) (Memory.readN s.hostMem (r.pa % 2 ^ 50) n) v
    .ok (storeNow c w r new n s)
  else if r.kind = 4 then
    if modOf r.pa = s.modIdx then
      let o := loopRef r
      (match loopFault s r.pa r.key with
        | some k => if k = 0x601 then .ok (combineHome (some c) none o op n v (recallLine (o.pa / 128) s)) else .ok (countAll 0xC9 1 s)
        | none => .ok (combineHome (some c) none o op n v (recallLine (o.pa / 128) s)))
    else .ok (newTxn (clOf c) (modOf r.pa) w.tenant r.key r.pa (.red op dbl v) 8 0 0 false none (some c) s)
  else
    match homeOf s w.tenant w.cl r with
    | none => .ok (combineHome (some c) none r op n v s)
    | some h =>
      if h = c then .ok (combineHome (some c) (some h) r op n v s)
      else if homeWaits s (some c) h (r.pa / 128) then .error (.stall 12 0)
      else .ok (reduceRemote c h r op dbl v s)

/-- An update-only reduction (11 R258). -/
def redBody (op : RedOp) (rs2 rs1 : Reg) (dbl : Bool) (s : State) : Except Exc State := do
  let c := s.cur
  let n := if dbl then 8 else 4
  let s1 ← memGate s
  let (a, s2) ← readX rs1 s1
  let (v, s3) ← readX rs2 s2
  if a.toNat % n ≠ 0 then .error (.trap 0x201 a)
  else do
    let w := whoCore s3 c
    let (ps, s4) ← resolvePieces w .store .atomic [(a.toNat, n)] s3
    match ps with
    | [p] =>
      let t := drainLine c (p.ref.pa / 128) s4
      let u := if p.ref.kind = 6 ∨ p.ref.kind = 3 then countAccess c w false [p.ref] t else t
      let u2 ← if p.ref.kind = 4 then rpClear c s (p.ref.pa / 128) u else .ok u
      reduceAt c w p.ref op dbl (v.toNat % 2 ^ (8 * n)) u2
    | _ => pure s4

/-! Full/empty operations. -/

/-- The word a full/empty operation names (03 R66; 02 R24): its home core and offset. Log 55, DEDUCED, unsafe. -/
def feWord (w : Who) (va : Nat) (s : State) : Except Exc (Nat × Nat) :=
  if va % 8 ≠ 0 then .error (.trap 0x201 (wd va))
  else if !(canonical va) then .error (.trap (xlCause 0 0xF) (wd va))
  else if !(inWindows va) then
    match resolve w .load .atomic va s with
    | .error 0x207 => .error (.trap 0x207 (wd va))
    | _ => .error (.trap 0x204 (wd va))
  else if windowBusy s va then .error (.stall 12 0)
  else
    match windowRef w va s with
    | .error k => .error (.trap k (wd va))
    | .ok r => .ok (r.pa / 2 ^ 22, r.pa % 2 ^ 22)

/-- A waiting operation joins the waiters of its word, or is refused for want of room and resent later (03 R67). -/
def joinWaiters (home : Nat) (w : Waiter) (s : State) : State :=
  modCore home (fun x =>
    if w.who = home ∨ (x.waiters.filter (fun k => k.who != home)).length < 32 then { x with waiters := x.waiters ++ [w] }
    else { x with nacked := x.nacked ++ [w] }) s

/-- The reference of a scratchpad word. -/
def padRef (home off : Nat) : Ref := { kind := 6, pa := home * 2 ^ 22 + off, key := 0, home := home }

/-- ldf.e and ldf.f (03 R65; 11 R253, R254): clr empties the word. -/
def ldfBody (clr : Bool) (rd rs1 : Reg) (imm : Int) (la : Nat) (s : State) : Except Exc State := do
  let c := s.cur
  let s1 ← memGate s
  let (a, s2) ← readX rs1 s1
  let va := (a + immW (8 * imm)).toNat
  let w := whoCore s2 c
  let (home, off) ← feWord w va s2
  let s3 := countRemote c w false [padRef home off] s2
  if tagFull s3 home off then
    let s4 := countPads [padRef home off] s3
    match spFault (coreOf s4 home) off 8 with
    | some f => pure (openLoad la (destX rd) [] (some (f, va)) [] s4)
    | none =>
      let v := spRead s4 home off 8
      let s5 := openLoad la (destX rd) [(rd.val, wd v)] none [] s4
      pure (if clr then tagChange home off false (breakResv (some c) (spLine home off) s5) else s5)
  else
    let s4 := joinWaiters home { off := off, who := c, op := if clr then .ldfE else .ldfF, val := 0, pcw := (pcOf s).toNat, va := va } s3
    pure (modCore c (openWin (pcOf s).toNat la (destX rd) [] (.waitTag home off va) [] [] 0 []) s4)

/-- The stores before a releasing operation of the running core are performed (06 R127): orig is the state before the instruction,
in which it waits for those that a home holds back. -/
def feDrain (orig s : State) : Except Exc State :=
  if parked (drainAll s.cur s) s.cur then .error (.leave (setStall s.cur 12 0 (drainAll s.cur orig))) else .ok (drainAll s.cur s)

/-- ste (03 R65; 11 R254): a release; it stalls the core in place while the word is full. -/
def steBody (rs2 rs1 : Reg) (imm : Int) (s : State) : Except Exc State := do
  let c := s.cur
  let s1 ← memGate s
  let (a, s2) ← readX rs1 s1
  let (v, s3) ← readX rs2 s2
  let va := (a + immW imm).toNat
  let w := whoCore s3 c
  let (home, off) ← feWord w va s3
  let h := coreOf s3 home
  if (h.waiters ++ h.nacked).any (fun k => k.who == c && k.op == .ste && k.off == off) then .error (.stall 1 (wd va))
  else do
    let sd ← feDrain s s3
    let s4 := countAccess c w false [padRef home off] sd
    if tagFull s4 home off then
      let pops := [rs1, rs2].filterMap (fun r => if 28 ≤ r.val then some (r.val - 28) else none)
      .error (.leave (setStall c 1 (wd va)
        (joinWaiters home { off := off, who := c, op := .ste, val := v, pcw := (pcOf s).toNat, va := va, pops := pops } (countRemote c w false [padRef home off] (drainAll c s1)))))
    else pure (tagChange home off true (spWrite (some c) home (bytesOf off v.toNat 8) s4))

/-- stf, fset.e and fset.f (03 R65): wr is the data written, full the tag afterwards; rel makes it a release. Whether a change
of a tag alone is a bank-word access (03 R55) the spec does not say: the model counts fset, and not fetag, which only looks
(log 119). Log 119, DESIGN CHOICE, unsafe. -/
def feSet (orig : State) (wr : Option Word) (full rel : Bool) (a : Word) (imm : Int) (s : State) : Except Exc State := do
  let c := s.cur
  let va := (a + immW imm).toNat
  let w := whoCore s c
  let (home, off) ← feWord w va s
  let s2 ← if rel then feDrain orig s else .ok s
  let s3 := countAccess c w false [padRef home off] s2
  let s4 := match wr with
    | some v => spWrite (some c) home (bytesOf off v.toNat 8) s3
    | none => breakResv (some c) (spLine home off) s3
  pure (tagChange home off full s4)

end Sys2Proof.Machine

end
end

