-- ==== Sys2Proof/Machine/MemInstr.lean ====
section
/-!
DEFINITION. Scalar loads and stores, full/empty operations, atomics, reductions, fences, code invalidation, prefetch and
translation logs (11 R247 to R249, R253 to R263).
-/

noncomputable section

namespace Sys2Proof.Machine

open Sys2Proof

/-- A byte count's sign extension. -/
def sextB (n v : Nat) : Word := BitVec.ofInt 64 (sx n v)

/-- lb (11 R247). -/
def execLb (rd rs1 : Reg) (imm : Int) (la : La) (s : State) : Host.Outcome State Fault Refusal :=
  finish 4 s (loadBody rd rs1 (1 * imm) 1 (sextB 8) none la.val s)

/-- lh (11 R247). -/
def execLh (rd rs1 : Reg) (imm : Int) (la : La) (s : State) : Host.Outcome State Fault Refusal :=
  finish 4 s (loadBody rd rs1 (2 * imm) 2 (sextB 16) none la.val s)

/-- lw (11 R247). -/
def execLw (rd rs1 : Reg) (imm : Int) (la : La) (s : State) : Host.Outcome State Fault Refusal :=
  finish 4 s (loadBody rd rs1 (4 * imm) 4 (sextB 32) none la.val s)

/-- ld (11 R247). -/
def execLd (rd rs1 : Reg) (imm : Int) (la : La) (s : State) : Host.Outcome State Fault Refusal :=
  finish 4 s (loadBody rd rs1 (8 * imm) 8 wd none la.val s)

/-- lbu (11 R247). -/
def execLbu (rd rs1 : Reg) (imm : Int) (la : La) (s : State) : Host.Outcome State Fault Refusal :=
  finish 4 s (loadBody rd rs1 (1 * imm) 1 wd none la.val s)

/-- lhu (11 R247). -/
def execLhu (rd rs1 : Reg) (imm : Int) (la : La) (s : State) : Host.Outcome State Fault Refusal :=
  finish 4 s (loadBody rd rs1 (2 * imm) 2 wd none la.val s)

/-- lwu (11 R247). -/
def execLwu (rd rs1 : Reg) (imm : Int) (la : La) (s : State) : Host.Outcome State Fault Refusal :=
  finish 4 s (loadBody rd rs1 (4 * imm) 4 wd none la.val s)

/-- Bytes and extension of a size code (11 R249). -/
def sizeOf (k : Nat) : Nat × (Nat → Word) :=
  if k = 0 then (1, sextB 8) else if k = 1 then (2, sextB 16) else if k = 2 then (4, sextB 32) else if k = 3 then (8, wd)
  else if k = 4 then (1, wd) else if k = 5 then (2, wd) else (4, wd)

/-- The acquiring loads (11 R249). -/
def execLoadAcquire (rd rs1 : Reg) (size : Fin 8) (sc : Scope) (la : La) (s : State) : Host.Outcome State Fault Refusal :=
  finish 4 s (loadBody rd rs1 0 (sizeOf size.val).1 (sizeOf size.val).2 (some sc) la.val s)

/-- sb (11 R248). -/
def execSb (rs2 rs1 : Reg) (imm : Int) (s : State) : Host.Outcome State Fault Refusal :=
  finish 4 s (storeBody rs2 rs1 imm 1 none s)

/-- sh (11 R248). -/
def execSh (rs2 rs1 : Reg) (imm : Int) (s : State) : Host.Outcome State Fault Refusal :=
  finish 4 s (storeBody rs2 rs1 imm 2 none s)

/-- sw (11 R248). -/
def execSw (rs2 rs1 : Reg) (imm : Int) (s : State) : Host.Outcome State Fault Refusal :=
  finish 4 s (storeBody rs2 rs1 imm 4 none s)

/-- sd (11 R248). -/
def execSd (rs2 rs1 : Reg) (imm : Int) (s : State) : Host.Outcome State Fault Refusal :=
  finish 4 s (storeBody rs2 rs1 imm 8 none s)

/-- The releasing stores (11 R249). -/
def execStoreRelease (rs2 rs1 : Reg) (size : Fin 4) (sc : Scope) (s : State) : Host.Outcome State Fault Refusal :=
  finish 4 s (storeBody rs2 rs1 0 (2 ^ size.val) (some sc) s)

/-- ldf.e (03 R65; 11 R253). -/
def execLdfE (rd rs1 : Reg) (imm : Int) (la : La) (s : State) : Host.Outcome State Fault Refusal :=
  finish 4 s (ldfBody true rd rs1 imm la.val s)

/-- ldf.f (03 R65; 11 R253). -/
def execLdfF (rd rs1 : Reg) (imm : Int) (la : La) (s : State) : Host.Outcome State Fault Refusal :=
  finish 4 s (ldfBody false rd rs1 imm la.val s)

/-- ste (03 R65; 11 R253). -/
def execSte (rs2 rs1 : Reg) (imm : Int) (s : State) : Host.Outcome State Fault Refusal :=
  finish 4 s (steBody rs2 rs1 imm s)

/-- stf (03 R65; 11 R253): a release. -/
def execStf (rs2 rs1 : Reg) (imm : Int) (s : State) : Host.Outcome State Fault Refusal :=
  finish 4 s (do
    let s0 ← memGate s
    let (a, s1) ← readX rs1 s0
    let (v, s2) ← readX rs2 s1
    feSet s (some v) true true a imm s2)

/-- fetag (03 R65; 11 R253): 1 when the word is full. -/
def execFetag (rd rs1 : Reg) (imm : Int) (s : State) : Host.Outcome State Fault Refusal :=
  finish 4 s (do
    let s1 ← memGate s
    let (a, s2) ← readX rs1 s1
    let (home, off) ← feWord (whoCore s2 s.cur) (a + immW (8 * imm)).toNat s2
    writeX rd (boolW (tagFull s2 home off)) s2)

/-- fset.e (03 R65; 11 R253). -/
def execFsetE (rs1 : Reg) (imm : Int) (s : State) : Host.Outcome State Fault Refusal :=
  finish 4 s (do
    let s0 ← memGate s
    let (a, s1) ← readX rs1 s0
    feSet s none false false a imm s1)

/-- fset.f (03 R65; 11 R253). -/
def execFsetF (rs1 : Reg) (imm : Int) (s : State) : Host.Outcome State Fault Refusal :=
  finish 4 s (do
    let s0 ← memGate s
    let (a, s1) ← readX rs1 s0
    feSet s none true false a imm s1)

/-- amoswap (11 R256). -/
def execAmoswap (rd rs1 : Reg) (dbl aq rl : Bool) (sc : Scope) (la : La) (s : State) : Host.Outcome State Fault Refusal :=
  finish 4 s (amoBody 0 rd rs1 dbl aq rl sc la.val s)

/-- amoadd (11 R256). -/
def execAmoadd (rd rs1 : Reg) (dbl aq rl : Bool) (sc : Scope) (la : La) (s : State) : Host.Outcome State Fault Refusal :=
  finish 4 s (amoBody 1 rd rs1 dbl aq rl sc la.val s)

/-- amoand (11 R256). -/
def execAmoand (rd rs1 : Reg) (dbl aq rl : Bool) (sc : Scope) (la : La) (s : State) : Host.Outcome State Fault Refusal :=
  finish 4 s (amoBody 2 rd rs1 dbl aq rl sc la.val s)

/-- amoor (11 R256). -/
def execAmoor (rd rs1 : Reg) (dbl aq rl : Bool) (sc : Scope) (la : La) (s : State) : Host.Outcome State Fault Refusal :=
  finish 4 s (amoBody 3 rd rs1 dbl aq rl sc la.val s)

/-- amoxor (11 R256). -/
def execAmoxor (rd rs1 : Reg) (dbl aq rl : Bool) (sc : Scope) (la : La) (s : State) : Host.Outcome State Fault Refusal :=
  finish 4 s (amoBody 4 rd rs1 dbl aq rl sc la.val s)

/-- amomin (11 R256). -/
def execAmomin (rd rs1 : Reg) (dbl aq rl : Bool) (sc : Scope) (la : La) (s : State) : Host.Outcome State Fault Refusal :=
  finish 4 s (amoBody 5 rd rs1 dbl aq rl sc la.val s)

/-- amomax (11 R256). -/
def execAmomax (rd rs1 : Reg) (dbl aq rl : Bool) (sc : Scope) (la : La) (s : State) : Host.Outcome State Fault Refusal :=
  finish 4 s (amoBody 6 rd rs1 dbl aq rl sc la.val s)

/-- amominu (11 R256). -/
def execAmominu (rd rs1 : Reg) (dbl aq rl : Bool) (sc : Scope) (la : La) (s : State) : Host.Outcome State Fault Refusal :=
  finish 4 s (amoBody 7 rd rs1 dbl aq rl sc la.val s)

/-- amomaxu (11 R256). -/
def execAmomaxu (rd rs1 : Reg) (dbl aq rl : Bool) (sc : Scope) (la : La) (s : State) : Host.Outcome State Fault Refusal :=
  finish 4 s (amoBody 8 rd rs1 dbl aq rl sc la.val s)

/-- amofadd (11 R256). -/
def execAmofadd (rd rs1 : Reg) (aq rl : Bool) (sc : Scope) (la : La) (s : State) : Host.Outcome State Fault Refusal :=
  finish 4 s (amoBody 9 rd rs1 false aq rl sc la.val s)

/-- amocas (11 R256). -/
def execAmocas (rd rs1 : Reg) (dbl aq rl : Bool) (sc : Scope) (la : La) (s : State) : Host.Outcome State Fault Refusal :=
  finish 4 s (amoBody 10 rd rs1 dbl aq rl sc la.val s)

/-- lr (11 R257; 06 R134). -/
def execLr (rd rs1 : Reg) (dbl aq : Bool) (sc : Scope) (la : La) (s : State) : Host.Outcome State Fault Refusal :=
  finish 4 s (amoBody 11 rd rs1 dbl aq false sc la.val s)

/-- sc (11 R257; 06 R134). -/
def execSc (rd rs1 : Reg) (dbl rl : Bool) (sc : Scope) (la : La) (s : State) : Host.Outcome State Fault Refusal :=
  finish 4 s (amoBody 12 rd rs1 dbl false rl sc la.val s)

/-- redadd (11 R258). -/
def execRedadd (rs2 rs1 : Reg) (dbl : Bool) (s : State) : Host.Outcome State Fault Refusal :=
  finish 4 s (redBody .add rs2 rs1 dbl s)

/-- redand (11 R258). -/
def execRedand (rs2 rs1 : Reg) (dbl : Bool) (s : State) : Host.Outcome State Fault Refusal :=
  finish 4 s (redBody .and rs2 rs1 dbl s)

/-- redor (11 R258). -/
def execRedor (rs2 rs1 : Reg) (dbl : Bool) (s : State) : Host.Outcome State Fault Refusal :=
  finish 4 s (redBody .or rs2 rs1 dbl s)

/-- redxor (11 R258). -/
def execRedxor (rs2 rs1 : Reg) (dbl : Bool) (s : State) : Host.Outcome State Fault Refusal :=
  finish 4 s (redBody .xor rs2 rs1 dbl s)

/-- redmin (11 R258). -/
def execRedmin (rs2 rs1 : Reg) (dbl : Bool) (s : State) : Host.Outcome State Fault Refusal :=
  finish 4 s (redBody .min rs2 rs1 dbl s)

/-- redmax (11 R258). -/
def execRedmax (rs2 rs1 : Reg) (dbl : Bool) (s : State) : Host.Outcome State Fault Refusal :=
  finish 4 s (redBody .max rs2 rs1 dbl s)

/-- redminu (11 R258). -/
def execRedminu (rs2 rs1 : Reg) (dbl : Bool) (s : State) : Host.Outcome State Fault Refusal :=
  finish 4 s (redBody .minu rs2 rs1 dbl s)

/-- redmaxu (11 R258). -/
def execRedmaxu (rs2 rs1 : Reg) (dbl : Bool) (s : State) : Host.Outcome State Fault Refusal :=
  finish 4 s (redBody .maxu rs2 rs1 dbl s)

/-- redfadd.w (11 R258). -/
def execRedfadd (rs2 rs1 : Reg) (s : State) : Host.Outcome State Fault Refusal :=
  finish 4 s (redBody .fadd rs2 rs1 false s)

/-! Fences. -/

/-- Whether a command reads global memory as CR or MR names it (06 R128; 15 R361, R364). -/
def cmdReads : Instr → Bool
  | .cpG2s _ _ _ => true | .cp2d _ _ dir _ _ _ _ => !dir | .cpGath _ _ _ _ _ _ => true | .cpRget _ _ _ _ _ => true
  | .cpCk _ _ _ _ => true | .mxCsrb _ _ _ _ _ _ _ _ => true
  | .bdGath _ (.glob _) _ _ _ _ _ _ => true | .bdRed _ (.glob _) _ _ _ _ _ _ _ _ => true
  | .bdCvt _ (.glob _) _ _ _ _ _ _ _ => true | .bdCopy _ (.glob _) _ _ _ => true
  | _ => false

/-- Whether a command writes global memory as CW or MW names it (06 R128; 15 R361, R364; 14 R337). -/
def cmdWrites : Instr → Bool
  | .cpS2g _ _ _ => true | .cp2d _ _ dir _ _ _ _ => dir | .cpRput _ _ _ _ _ => true | .cpRred _ _ _ _ _ _ _ => true
  | .cpCk _ _ _ _ => true | .mxDrain _ d => d.dst
  | .bdGath _ _ (.glob _) _ _ _ _ _ => true | .bdRed _ _ (.glob _) _ _ _ _ _ _ _ => true
  | .bdCvt _ _ (.glob _) _ _ _ _ _ _ => true | .bdCopy _ _ (.glob _) _ _ => true
  | _ => false

/-- A command of the running task, pushed on this core or before it came here, whose accesses a predecessor set names and that
has not performed them (06 R130). Log 73, DEDUCED, unsafe. -/
def fenceWaits (s : State) (pred : Nat) : Option Node :=
  let c := s.cur
  (List.find? (fun (e : Nat × Node) =>
    let n := e.2
    let mx := n.port == 1
    n.gtid == (me s).gtid && ((me s).haveTask || n.core == c) && (!n.done || nodeBusy s (clOf n.core) e.1) &&
      ((cmdReads n.cmd && bit pred (if mx then 1 else 3)) || (cmdWrites n.cmd && bit pred (if mx then 0 else 2))))
    (s.clusters.flatMap (fun k => k.2.nodes))).map (fun e => e.2)

/-- fence (11 R259; 06 R129, R130; 07 R151). Log 49, DEDUCED, unsafe. -/
def fenceBody (pred succ : Nat) (sc : Scope) (s : State) : Except Exc State :=
  if pred = 0 ∨ succ = 0 then .ok s
  else do
    let s1 ← memGate s
    match fenceWaits s1 pred with
    | some n => .error (.stall 6 (wd (windowVa n.core (8 * (cmdHdr n.cmd).cidx))))
    | none =>
      let acq := bit succ 7 || bit succ 3 || bit succ 1
      let rel := bit pred 6 || bit pred 2 || bit pred 0
      orderOp s.cur acq rel true (bit pred 6) sc s1

/-- fence (11 R259). -/
def execFence (pred succ : Fin 256) (sc : Scope) (s : State) : Host.Outcome State Fault Refusal :=
  finish 4 s (fenceBody pred.val succ.val sc s)

/-- ifence (11 R260): the fetch buffer is discarded. -/
def execIfence (s : State) : Host.Outcome State Fault Refusal :=
  finish 4 s (.ok (modCore s.cur (fun x => { x with fbuf := [] }) s))

/-! Instruction caches. -/

/-- Physical address of a byte, where it translates to kind 0 to 2 (11 R261): permissions and key slots are not looked at. -/
def codePage (w : Who) (va : Nat) (s : State) : Option Nat :=
  let pick (kind pa : Nat) : Option Nat := if kind ≤ 2 ∧ populated s kind pa = true then some pa else none
  if !(canonical va) || inWindows va then none
  else if !w.en then (if w.sup then (kindOfPa (va % 2 ^ 52)).bind (fun k => pick k (va % 2 ^ 52)) else none)
  else
    let page (leaf level : Nat) : Option Nat :=
      let size := pagesAt level * 2 ^ 16
      pick (bits leaf 46 44) (bits leaf 43 8 * 2 ^ 16 / size * size + va % size)
    match tlbHit w va s, walkRoot w va s with
    | some e, _ => page e.leaf.toNat e.size
    | none, .ok (leaf, level, _) => page leaf level
    | none, .error _ => none

/-- The ranges of lines that n bytes at an address overlap, page by page. -/
def codeRanges (w : Who) (va n : Nat) (s : State) : List (Nat × Nat) :=
  let first := va / 2 ^ 16
  let pages := (va + n - 1) / 2 ^ 16 - first + 1
  (List.range pages).filterMap (fun i =>
    let lo := max va ((first + i) * 2 ^ 16)
    let hi := min (va + n) ((first + i + 1) * 2 ^ 16)
    (codePage w lo s).map (fun pa => (pa / 128, (pa + (hi - lo) - 1) / 128)))

/-- Drops the lines that ranges name. -/
def dropLines (rs : List (Nat × Nat)) (l : List CodeLine) : List CodeLine :=
  l.filter (fun k => !(rs.any (fun r => decide (r.1 ≤ k.line) && decide (k.line ≤ r.2))))

/-- Invalidates ranges of lines in the instruction caches of a scope around a core (04 R90). Log 56, DEDUCED, unsafe. -/
def codeInvalidate (c : Nat) (sc : Scope) (rs : List (Nat × Nat)) (s : State) : State :=
  let mine (k : Nat) : Bool := match sc with
    | .c => k == c
    | .q => k / 8 == c / 8 && k % 4 / 2 == c % 4 / 2
    | .t => k / 8 == c / 8
    | .d => k / 128 == c / 128
    | _ => true
  let cl (k : Nat) : Bool := match sc with
    | .c => false | .q => false
    | .t => k == clOf c
    | .d => clDie k == dOf c
    | _ => true
  let die (k : Nat) : Bool := match sc with
    | .c => false | .q => false | .t => false
    | .d => k == dOf c
    | _ => true
  { s with
    cores := s.cores.map (fun e => if mine e.1 then (e.1, { e.2 with i0 := dropLines rs e.2.i0 }) else e)
    clusters := s.clusters.map (fun e => if cl e.1 then (e.1, { e.2 with i1 := dropLines rs e.2.i1 }) else e)
    dies := s.dies.map (fun e => if die e.1 then (e.1, { e.2 with i2 := dropLines rs e.2.i2 }) else e) }

/-- codeinv (11 R261; 04 R90). Log 56, DEDUCED, unsafe. -/
def codeinvBody (rs1 rs2 : Reg) (sc : Scope) (s : State) : Except Exc State := do
  let (a, s1) ← readX rs1 s
  let (n, s2) ← readX rs2 s1
  if 2 ^ 28 < n.toNat then .error (.trap 0x205 a)
  else
    let s3 := drainAll s.cur s2
    if parked s3 s.cur || l2Busy s3 (dOf s.cur) then .error (.leave (setStall s.cur 10 a (drainAll s.cur s)))
    else if n = 0 then pure s3
    else pure (codeInvalidate s.cur sc (codeRanges (whoCore s3 s.cur) a.toNat n.toNat s3) s3)

/-- codeinv (11 R261). -/
def execCodeinv (rs1 rs2 : Reg) (sc : Scope) (s : State) : Host.Outcome State Fault Refusal :=
  finish 4 s (codeinvBody rs1 rs2 sc s)

/-- The words of the instruction line of a physical address (04 R88). -/
def codeLine (s : State) (kind pa gen : Nat) : CodeLine :=
  { line := pa / 128, words := (List.range 32).map (fun i => bytesAt s kind gen (pa / 128 * 128 + 4 * i) 4) }

/-- Puts a line in an instruction cache of some sets and ways as its most recently used; the least recently used of a full set
leaves (04 R88). Log 7, DESIGN CHOICE, unsafe. -/
def codePut (sets ways : Nat) (k : CodeLine) (l : List CodeLine) : List CodeLine :=
  let rest := l.filter (fun j => j.line != k.line)
  let mates := rest.filter (fun j => j.line % sets == k.line % sets)
  if sets = 0 then []
  else if mates.length < ways then k :: rest
  else k :: rest.filter (fun j => some j.line != mates.getLast?.map (fun m => m.line))

/-- A line enters I0 of core c (04 R88): 512 lines, 4-way. -/
def fillI0 (c : Nat) (k : CodeLine) (s : State) : State := modCore c (fun x => { x with i0 := codePut 128 4 k x.i0 }) s
/-- A line enters I1 of core c's cluster (04 R88): 8,192 lines, 8-way. -/
def fillI1 (c : Nat) (k : CodeLine) (s : State) : State := modCluster (clOf c) (fun q => { q with i1 := codePut 1024 8 k q.i1 }) s
/-- A line enters I2 of core c's die (04 R84, R88): I2SIZE MiB, 16-way. -/
def fillI2 (c : Nat) (k : CodeLine) (s : State) : State :=
  modDie (dOf c) (fun d => { d with i2 := codePut (bits d.l2cfg.toNat 13 8 * 512) 16 k d.i2 }) s

/-- One line of ipref (11 R262; 04 R89). A poisoned line, of which the spec says nothing, is dropped and counted; so is one that would
have to wait for its home or for a resize of the partitions. Log 114, DESIGN CHOICE, unsafe. -/
def iprefLine (c va : Nat) (s : State) : State :=
  let w := whoCore s c
  match resolve w .exec .tile va s with
  | .error _ => count 0x59 1 c s
  | .ok (r, t) =>
    let home := homeOf t w.tenant w.cl r
    if 2 < r.kind ∨ l2Busy t (dOf c) = true ∨ readWaits t none home (r.pa / 128) = true then count 0x59 1 c s
    else
      let u := homeRead home r t
      if lineBad u r.kind r.pa then count 0x59 1 c u
      else
        let k := codeLine u r.kind r.pa ((keyGenOf u r.key).getD 0)
        fillI2 c k (fillI1 c k u)

/-- ipref (11 R262). Log 114, DESIGN CHOICE, unsafe. -/
def execIpref (rs2 rs1 : Reg) (s : State) : Host.Outcome State Fault Refusal :=
  finish 4 s (do
    let (a, s1) ← readX rs1 s
    let (n, s2) ← readX rs2 s1
    let len := min n.toNat (2 ^ 20)
    let first := a.toNat / 128
    let lines := if len = 0 then 0 else (a.toNat + len - 1) / 128 - first + 1
    pure (forN lines (fun i t => iprefLine s.cur (max a.toNat ((first + i) * 128)) t) s2))

/-- dpref (11 R262): a line that fails any check is dropped. Log 53, DEDUCED, unsafe. -/
def dprefAt (c va : Nat) (s : State) : State :=
  let w := whoCore s c
  if inWindows va then s
  else
    match resolve w .load (.scalar 8) (va / 8 * 8) s with
    | .error _ => s
    | .ok (r, t) =>
      if r.kind = 3 then hlcTouch (r.pa / 64) false false t
      else if r.kind = 4 then (match rpLoad c (r.pa / 128) r.key t with | .ok (_, _, none, u) => u | _ => s)
      else if r.kind ≤ 2 then
        (match homeOf t w.tenant w.cl r with
          | some h => if homeWaits t (some c) h (r.pa / 128) then s else l1Touch h (r.pa / 128) false t
          | none => touchLine r.kind r.pa t)
      else s

/-- dpref (11 R262). Log 53, DEDUCED, unsafe. -/
def execDpref (rs1 : Reg) (imm : Int) (s : State) : Host.Outcome State Fault Refusal :=
  finish 4 s (do
    let (a, s1) ← readX rs1 s
    pure (dprefAt s.cur (a + immW imm).toNat s1))

/-! Translation logs. -/

/-- A die whose log is full applies it at once (02 R36, R38). -/
def ilFull (d : Nat) (s : State) : State :=
  let x := dieOf s d
  if x.ilhead.toNat - x.ildone.toNat = (ilRing x).2 then ilApply d s else s

/-- tlblog and tlblogw (11 R263): apply makes it wait until the record is applied. -/
def tlblogBody (i : Instr) (apply : Bool) (rd rs1 rs2 : Reg) (d : Nat) (s : State) : Except Exc State :=
  let c := s.cur
  if isSup (me s) = false then illegal 0x07 i
  else do
    let (a, s1) ← readX rs1 s
    let (b, s2) ← readX rs2 s1
    let x := dieOf s2 d
    let (base, cap) := ilRing x
    if isLive s2 d = false then .error (.trap 0x20A (wd d))
    else if base < d * 2 ^ 37 ∨ (d + 1) * 2 ^ 37 < base + 16 * cap then .error (.trap 0x205 x.ilbase)
    else
      let done (seq : Nat) (t : State) : Except Exc State :=
        if apply then
          let u := ilApply d t
          if seq < (dieOf u d).ildone.toNat then writeX rd (wd seq) (modCore c (fun y => { y with logSeq := none }) u)
          else .error (.leave (setStall c 11 (wd d) (modCore c (fun y => { y with logSeq := some seq }) u)))
        else writeX rd (wd seq) t
      match (me s2).logSeq with
      | some seq => done seq s2
      | none => do
        let s3 ← memGate s2
        let s4 := if x.ilhead.toNat - x.ildone.toNat = cap then ilApply d s3 else s3
        if (dieOf s4 d).ilhead.toNat - (dieOf s4 d).ildone.toNat = cap then .error (.leave (setStall c 11 (wd d) (ilFull d s)))
        else
          let seq := x.ilhead.toNat
          let pa := base + 16 * (seq % cap)
          let s5 := writeLine 0 (pa / 128) (gen0 s4) (bytesOf (pa % 128) (a.toNat + 2 ^ 64 * b.toNat) 16) s4
          done seq (ilFull d (modDie d (fun y => { y with ilhead := wd (seq + 1) }) (breakResv (some c) (pa / 128) s5)))

/-- tlblog (11 R263). -/
def execTlblog (rd rs1 rs2 : Reg) (die : Fin 8) (s : State) : Host.Outcome State Fault Refusal :=
  finish 4 s (tlblogBody (.tlblog rd rs1 rs2 die) false rd rs1 rs2 die.val s)

/-- tlblogw (11 R263). -/
def execTlblogw (rd rs1 rs2 : Reg) (die : Fin 8) (s : State) : Host.Outcome State Fault Refusal :=
  finish 4 s (tlblogBody (.tlblogw rd rs1 rs2 die) true rd rs1 rs2 die.val s)

end Sys2Proof.Machine

end
end

