-- ==== Sys2Proof/Machine/Tile.lean ====
section
/-!
DEFINITION. What tile instructions share (13): the prefix in force (09 R195), active slots (R290), sources and link ports
(R311 to R313), gang operands (R315), writing a tile, and the element-wise, converting, permuting and reducing bodies
(R295 to R310).
-/

noncomputable section

namespace Sys2Proof.Machine

open Sys2Proof

/-- The prefix in force: without one, every field is 0 but RM = DYN (09 R195). -/
def pfxOf (p : Option Pfx) : Pfx :=
  p.getD { sat := false, gang := false, goff := 0, v4 := false, op4 := 0, rm := 7, zero := false, mask := 0 }

/-- Active rows R (13 R289). -/
def rowsOf (x : CoreSt) : Nat := bits x.tshape.toNat 5 3 + 1
/-- Active columns C (13 R289). -/
def colsOf (x : CoreSt) : Nat := bits x.tshape.toNat 2 0 + 1

/-- Whether a slot lies inside the shape (13 R290). -/
def inShape (x : CoreSt) (k : Nat) : Bool := decide (k / 8 < rowsOf x) && decide (k % 8 < colsOf x)

/-- Whether a slot is active under a mask register (13 R290). -/
def active (x : CoreSt) (mask k : Nat) : Bool := inShape x k && (mask == 0 || bit (getX mask x).toNat k)

/-- The active slots in ascending order. -/
def lanesOn (x : CoreSt) (mask : Nat) : List Nat := (List.range 64).filter (active x mask)

/-! Link ports. -/

/-- Pops the entry of an inbound queue (13 R311): the instruction stalls until one can be popped. -/
def popLink (c dir : Nat) (s : State) : Except Exc (Tile × State) :=
  match (coreOf s c).links.get [] dir with
  | [] => .error (.stall 5 (wd dir) 0x90)
  | e :: rest =>
    if e.avail ≤ (dieOf s (dOf c)).cyc then .ok (e.tile, modCore c (fun x => { x with links := x.links.put dir rest }) s)
    else .error (.stall 5 (wd dir) 0x90)

/-- Pushes an entry to the neighbour's opposite queue (13 R311): it can be popped 2 cycles later, and across a die edge up
to 8 cycles after that (log 8). -/
def pushLink (c dir : Nat) (t : Tile) (s : State) : Except Exc State :=
  match neighbour c dir with
  | none => .error (.trap 0x404 0)
  | some n =>
    let k := (dir + 2) % 4
    let q := (coreOf s n).links.get [] k
    if 4 ≤ q.length then .error (.stall 5 (wd dir) 0x91)
    else
      let far := if dOf n = dOf c then 0 else (Config.word s.free).toNat % 9
      let e : LinkEntry := { avail := (dieOf s (dOf n)).cyc + 2 + far, tile := t }
      .ok { modCore n (fun x => { x with links := x.links.put k (q ++ [e]) }) s with free := s.free + 1 }

/-- Reads a tile source: a register, or the entry of a link port (13 R311; 20 R452). -/
def readV (r : Reg) (s : State) : Except Exc (Tile × State) :=
  if 28 ≤ r.val then popLink s.cur (r.val - 28) s
  else if (me s).badT.contains r.val then .error (.trap 0x605 0)
  else .ok (getV r.val (me s), s)

/-- The register of the quad partner that GANG names, before any of the four paired instructions writes (08 R180; 13
R315): a partner that is one pair ahead has kept its tiles. -/
def gangV (p : Pfx) (r : Reg) (s : State) : Except Exc (Tile × State) :=
  let x := me s
  let y := coreOf s (quadCore s.cur (memberIdx s.cur ^^^ p.goff.val))
  let old := decide (y.gangCnt = x.gangCnt + 1)
  if !old && y.badT.contains r.val then .error (.trap 0x605 0)
  else .ok ((if old then y.prevTiles else y.tiles).get Tile.zero r.val, s)

/-- Reads source 1. -/
def readV1 (p : Pfx) (r : Reg) (s : State) : Except Exc (Tile × State) := if p.gang then gangV p r s else readV r s

/-- Element k of slot n of a source: a tile's, or the low bits of a scalar (13 R295, R296). -/
abbrev Elems := Nat → Nat → Nat

/-- Elements of width w of a tile. -/
def elemsOf (w : Nat) (t : Tile) : Elems := fun n k => bits (t.slot n).toNat (w * k + w - 1) (w * k)

/-- Reads source 2: a tile, or a scalar replicated in every element. -/
def readSrc2 (w : Nat) (isX : Bool) (r : Reg) (s : State) : Except Exc (Elems × State) :=
  if isX then
    match readX r s with
    | .ok (v, t) => .ok (fun _ _ => v.toNat % 2 ^ w, t)
    | .error e => .error e
  else
    match readV r s with
    | .ok (v, t) => .ok (elemsOf w v, t)
    | .error e => .error e

/-- What stops a tile instruction at issue: a format other than FP32 in reduced service (21 R470), GANG on a task that is
not ganged (08 R180), a link port that is not connected (13 R313), and a mask with an uncorrectable error (20 R452). -/
def tileGate (i : Instr) (other : Bool) (p : Pfx) (ports : List Reg) (s : State) : Except Exc Unit :=
  if other && reducedService s then illegal 0x04 i
  else if p.gang && !((me s).ganged) then .error (.trap 0x505 0)
  else if ports.any (fun r => decide (28 ≤ r.val) && !(linkConnected s s.cur (r.val - 28))) then .error (.trap 0x404 0)
  else if (me s).badX.contains p.mask.val then .error (.trap 0x605 0)
  else .ok ()

/-! Results. -/

/-- The result of a slot: its number, its value, the flags of its elements. -/
structure Lane where
  slot : Nat
  val : Nat
  fl : Nat
  deriving DecidableEq, Repr

/-- The flags of a list of results. -/
def flagsOf (l : List Lane) : Nat := l.foldl (fun a e => a ||| e.fl) 0

/-- The lane rule (13 R290): slots with a result take it, others keep the old one, or become 0 under zeroing. -/
def laneTile (old : Tile) (zero : Bool) (l : List Lane) : Tile :=
  Tile.build (fun k =>
    match l.find? (fun e => e.slot == k) with
    | some e => BitVec.ofNat 32 e.val
    | none => if zero then 0 else old.slot k)

/-- Writes results to a tile destination: a register, or an entry pushed to a link port, whose other slots are 0 (13 R290,
R311). Merging reads the register. -/
def writeV (vd : Reg) (zero : Bool) (l : List Lane) (s : State) : Except Exc State :=
  if 28 ≤ vd.val then pushLink s.cur (vd.val - 28) (laneTile Tile.zero true l) s
  else if !zero && decide (l.length < 64) && (me s).badT.contains vd.val then .error (.trap 0x605 0)
  else .ok (modCore s.cur (fun x => setV vd.val (laneTile (getV vd.val x) zero l) x) s)

/-- The draw that comes n draws after the present one (13 R306). -/
def drawAt (x : CoreSt) (n : Nat) : Nat := rngBits x.rngkey.toNat x.gtid.toNat ((x.rngcnt.toNat + n) % 2 ^ 64)

/-- The draw of an element that rounds under a mode (12 R271). -/
def drawIf (mode : Nat) (x : CoreSt) (n : Nat) : Nat := if mode = 6 then drawAt x n else 0

/-- Takes n draws from the stream of the running core. -/
def takeDraws (n : Nat) (s : State) : State := modCore s.cur (fun x => { x with rngcnt := x.rngcnt + wd n }) s

/-- Draws of n roundings under a mode. -/
def drawsFor (mode n : Nat) : Nat := if mode = 6 then n else 0

/-- Packs n elements of width w, with their flags (12 R266). -/
def packLane (slot w : Nat) (f : Nat → Nat × Nat) : Nat → Lane
  | 0 => { slot := slot, val := 0, fl := 0 }
  | n + 1 =>
    let r := packLane slot w f n
    let e := f n
    { slot := slot, val := r.val + e.1 % 2 ^ w * 2 ^ (w * n), fl := r.fl ||| e.2 }

/-- The results of a list of slots; g takes the slot and its place in the list. -/
def lanesOf (g : Nat → Nat → Lane) (l : List Nat) : List Lane := l.zipIdx.map (fun e => g e.1 e.2)

/-- Writes the results of an FP instruction: a divergence of the shadow unit faults (20 R451), else the draws are taken
and the flags accrue (13 R297). -/
def writeFp (vd : Reg) (zero : Bool) (draws : Nat) (l : List Lane) (s : State) : Except Exc State :=
  if (me s).fpDiv then .error (.trap 0x611 0)
  else do
    let t ← writeV vd zero l s
    pure (modCore s.cur (accrue (flagsOf l)) (takeDraws draws t))

/-- Whether a shadow unit checks results of a format: FP32, BF16 and FP16 (20 R450). -/
def shadowed (F : Fmt) : Bool := isFloat F && decide (16 ≤ F.width)

/-- Writes results of a format: floating results with their draws and flags, integer results as they are; only the
formats that a shadow unit checks can diverge (13 R297; 20 R450). -/
def writeFmt (F : Fmt) (vd : Reg) (zero : Bool) (draws : Nat) (l : List Lane) (s : State) : Except Exc State :=
  if shadowed F then writeFp vd zero draws l s
  else do
    let t ← writeV vd zero l s
    pure (modCore s.cur (accrue (flagsOf l)) (takeDraws draws t))

/-! Integer operations. -/

/-- Width of an integer element type (13 R295). -/
def tintW : TInt → Nat
  | .i32 => 32 | .i16 => 16 | .i8 => 8 | .i4 => 4 | .ui32 => 32 | .ui16 => 16 | .ui8 => 8
/-- Whether an integer element type is signed (13 R295). -/
def tintSigned : TInt → Bool
  | .i32 => true | .i16 => true | .i8 => true | .i4 => true | _ => false

/-- The integer that w bits stand for (12 R265). -/
def intVal (w : Nat) (sg : Bool) (v : Nat) : Int := if sg then sx w v else ((v % 2 ^ w : Nat) : Int)

/-- The nearer end of a range for a value outside it. -/
def clampInt (rg : Int × Int) (v : Int) : Int := if v < rg.1 then rg.1 else if rg.2 < v then rg.2 else v

/-- An element-wise integer operation (13 R295): f takes the width, the sign and the two elements. sats says whether it
saturates under SAT. -/
def intBody (i : Instr) (sats : Bool) (f : Nat → Bool → Nat → Nat → Int) (vd vs1 src2 : Reg) (isX : Bool) (ty : TInt)
    (pfx : Option Pfx) (s : State) : Except Exc State := do
  let p := pfxOf pfx
  tileGate i true p (if isX then [vd, vs1] else [vd, vs1, src2]) s
  let w := tintW ty
  let sg := tintSigned ty
  let (a, s1) ← readV1 p vs1 s
  let (b, s2) ← readSrc2 w isX src2 s1
  let g (n k : Nat) : Nat × Nat :=
    let r := f w sg (elemsOf w a n k) (b n k)
    (ux w (if sats && p.sat then clampInt (intRange w sg) r else r), 0)
  writeV vd p.zero (lanesOf (fun n _ => packLane n w (g n) (32 / w)) (lanesOn (me s) p.mask.val)) s2

/-! Floating operations. -/

/-- The format of a floating element type. -/
def tfltFmt : TFlt → Fmt
  | .f32 => .f32 | .bf16 => .bf16 | .f16 => .f16

/-- Whether a floating element type is other than FP32. -/
def tfltOther : TFlt → Bool
  | .f32 => false | _ => true

/-- An element-wise rounding operation on two sources and OP4 (13 R296): f takes the elements and the mode. -/
def fltBody (i : Instr) (four : Bool) (f : Exact → Exact → Exact → Nat → Exact) (vd vs1 src2 : Reg) (isX : Bool) (ty : TFlt)
    (pfx : Option Pfx) (s : State) : Except Exc State := do
  let p := pfxOf pfx
  tileGate i (tfltOther ty) p ([vd, vs1] ++ (if isX then [] else [src2]) ++ (if four then [p.op4] else [])) s
  let F := tfltFmt ty
  let w := F.width
  let x := me s
  let mode := modeOf x p.rm.val
  let on := lanesOn x p.mask.val
  let (a, s1) ← readV1 p vs1 s
  let (b, s2) ← readSrc2 w isX src2 s1
  let (c, s3) ← if four then readV p.op4 s2 else .ok (Tile.zero, s2)
  let per := 32 / w
  let g (n j k : Nat) : Nat × Nat :=
    roundF (f (decodeF F (elemsOf w a n k)) (decodeF F (b n k)) (decodeF F (elemsOf w c n k)) mode) F mode p.sat
      (drawIf mode x (j * per + k))
  let t := if four then count 0x93 on.length s.cur s3 else s3
  writeFp vd p.zero (drawsFor mode (on.length * per)) (lanesOf (fun n j => packLane n w (g n j) per) on) t

/-- vfmin and vfmax (13 R296). -/
def fltMinMax (i : Instr) (max : Bool) (vd vs1 src2 : Reg) (isX : Bool) (ty : TFlt) (pfx : Option Pfx) (s : State) :
    Except Exc State := do
  let p := pfxOf pfx
  tileGate i (tfltOther ty) p (if isX then [vd, vs1] else [vd, vs1, src2]) s
  let F := tfltFmt ty
  let w := F.width
  let (a, s1) ← readV1 p vs1 s
  let (b, s2) ← readSrc2 w isX src2 s1
  let g (n k : Nat) : Nat × Nat := fminmax F max (elemsOf w a n k) (b n k)
  writeFp vd p.zero 0 (lanesOf (fun n _ => packLane n w (g n) (32 / w)) (lanesOn (me s) p.mask.val)) s2

/-- vfabs and vfneg (13 R296): the sign bit alone; NaNs pass unchanged and no flag is set. -/
def fltSign (i : Instr) (neg : Bool) (vd vs1 : Reg) (ty : TFlt) (pfx : Option Pfx) (s : State) : Except Exc State := do
  let p := pfxOf pfx
  tileGate i (tfltOther ty) p [vd, vs1] s
  let F := tfltFmt ty
  let w := F.width
  let (a, s1) ← readV1 p vs1 s
  let g (n k : Nat) : Nat × Nat :=
    let v := elemsOf w a n k
    (v % 2 ^ (w - 1) + b2n (neg && !(bit v (w - 1))) * 2 ^ (w - 1), 0)
  writeFp vd p.zero 0 (lanesOf (fun n _ => packLane n w (g n) (32 / w)) (lanesOn (me s) p.mask.val)) s1

/-- What a destination that is also a source holds: the register, or a value left open for a link port (log 8). Log 54,
DEDUCED, unsafe. -/
def readOld (vd : Reg) (s : State) : Except Exc (Tile × State) :=
  if 28 ≤ vd.val then
    .ok (Tile.build (fun k => (Config.word (64 * s.free + k)).setWidth 32), { s with free := s.free + 1 })
  else readV vd s

/-- vscacc (13 R298; 12 R286): two roundings for each element. -/
def scaccBody (i : Instr) (vd vs1 vs2 : Reg) (pfx : Option Pfx) (s : State) : Except Exc State := do
  let p := pfxOf pfx
  tileGate i false p [vd, vs1, vs2, p.op4] s
  let x := me s
  let mode := modeOf x p.rm.val
  let on := lanesOn x p.mask.val
  let (a, s1) ← readV1 p vs1 s
  let (b, s2) ← readV vs2 s1
  let (c, s3) ← readV p.op4 s2
  let (d, s4) ← readOld vd s3
  let fp (t : Tile) (k : Nat) : Exact := decodeF .f32 (t.slot k).toNat
  let g (n j : Nat) : Lane :=
    let q := roundF (mulNum (fp b (n / 8 * 8)) (fp c (n % 8))) .f32 mode false (drawIf mode x (2 * j))
    let r := roundF (fmaNum (decodeF .f32 q.1) (fp a n) (fp d n) mode) .f32 mode p.sat (drawIf mode x (2 * j + 1))
    { slot := n, val := r.1, fl := q.2 ||| r.2 }
  writeFp vd p.zero (drawsFor mode (2 * on.length)) (lanesOf g on) (count 0x93 on.length s.cur s4)

/-- A lookahead form issues: its result tile is on its way to vd, which it counts as written (09 R198; 13 R289, R299). A
divergence arrives as a fault (20 R451). -/
def issueV (la : La) (vd : Reg) (zero : Bool) (draws : Nat) (l : List Lane) (s : State) : Except Exc State :=
  if !zero && decide (l.length < 64) && (me s).badT.contains vd.val then .error (.trap 0x605 0)
  else
    let t := count 0x92 1 s.cur (takeDraws draws s)
    let tile := laneTile (getV vd.val (me s)) zero l
    let pc := (pcOf s).toNat
    .ok (modCore s.cur (fun x =>
      if x.fpDiv then openWin pc la.val [] [vd.val] (.faulty 0x611 0) [] [] 0 [] { x with fpDiv := false }
      else openWin pc la.val [] [vd.val] .flying [] [(vd.val, tile)] (flagsOf l) [] { x with tileuse := true }) t)

/-- vfdiv and vfsqrt (13 R299): f gives the quotient or root and whether it divides by zero. -/
def fltLong (i : Instr) (f : Exact → Exact → Exact × Bool) (F : Fmt) (vd vs1 : Reg) (vs2 : Option Reg) (la : La)
    (pfx : Option Pfx) (s : State) : Except Exc State := do
  let p := pfxOf pfx
  tileGate i (F != .f32) p (vs1 :: vs2.toList) s
  let w := F.width
  let x := me s
  let mode := modeOf x p.rm.val
  let on := lanesOn x p.mask.val
  let (a, s1) ← readV vs1 s
  let (b, s2) ← match vs2 with
    | some r => readV r s1
    | none => .ok (Tile.zero, s1)
  let per := 32 / w
  let g (n j k : Nat) : Nat × Nat :=
    let q := f (decodeF F (elemsOf w a n k)) (decodeF F (elemsOf w b n k))
    let r := roundF q.1 F mode p.sat (drawIf mode x (j * per + k))
    (r.1, r.2 + (if q.2 then flagDZ else 0))
  issueV la vd p.zero (drawsFor mode (on.length * per)) (lanesOf (fun n j => packLane n w (g n j) per) on) s2

/-- A special function (13 R300): f gives the result and the flags of an FP32 encoding. -/
def specialBody (i : Instr) (f : Nat → Nat × Nat) (vd vs1 : Reg) (la : La) (pfx : Option Pfx) (s : State) :
    Except Exc State := do
  let p := pfxOf pfx
  tileGate i false p [vs1] s
  let (a, s1) ← readV vs1 s
  issueV la vd p.zero 0 (lanesOf (fun n _ => packLane n 32 (fun _ => f (a.slot n).toNat) 1) (lanesOn (me s) p.mask.val)) s1

/-! Conversions. -/

/-- The widening conversions of 12 R274. -/
def widens (dst src : Fmt) : Bool :=
  (dst == .f32 && (src == .f16 || src == .bf16)) ||
    ((dst == .f32 || dst == .f16) && isFloat src && decide (src.width ≤ 8)) ||
    (dst == .e4m3 && (src == .e2m1 || src == .e2m3))

/-- Whether a conversion makes a draw under SR (13 R303; 12 R274). -/
def cvtDraws (dst src : Fmt) : Bool :=
  if isFloat dst then !(isFloat src && (dst == src || widens dst src)) else isFloat src

/-- Converts one element (13 R303; 12 R274 to R276). Log 23, DEDUCED, unsafe. -/
def cvtElem (dst src : Fmt) (mode : Nat) (sat : Bool) (u v : Nat) : Nat × Nat :=
  let x := decodeNum src v
  if isFloat dst then
    if isFloat src && dst == src then
      (if isNan x then (nanCode dst, if isSnan src v then flagNV else 0) else (v % 2 ^ src.width, 0))
    else if isFloat src && widens dst src then
      (if isNan x then (nanCode dst, if isSnan src v then flagNV else 0) else ((roundF x dst 0 false 0).1, 0))
    else roundF x dst mode sat u
  else if isFloat src then
    let r := cvtInt x dst.width (isSigned dst) mode u
    (ux dst.width r.1, r.2)
  else
    let r := narrowInt (decodeI src v) dst.width (isSigned dst) sat
    (ux dst.width r.1, r.2)

/-- vcvt (13 R301 to R303): the elements of a slot by the part number. Log 23, DEDUCED, unsafe. -/
def cvtBody (i : Instr) (vd vs1 : Reg) (dst src : Fmt) (part : Nat) (pfx : Option Pfx) (s : State) : Except Exc State := do
  let p := pfxOf pfx
  tileGate i (dst != .f32 || src != .f32) p [vd, vs1] s
  let x := me s
  let mode := modeOf x p.rm.val
  let on := lanesOn x p.mask.val
  let nd := dst.perSlot
  let ns := src.perSlot
  let (a, s1) ← readV1 p vs1 s
  let (old, s2) ← if ns < nd then readOld vd s1 else .ok (Tile.zero, s1)
  let conv (n j pos k : Nat) (calls : Nat) : Nat × Nat :=
    cvtElem dst src mode p.sat (drawIf mode x (j * calls + pos)) (elemsOf src.width a n k)
  let calls := if nd = ns then nd else if nd < ns then min nd (ns - part * nd) else min ns (nd - part * ns)
  let g (n j k : Nat) : Nat × Nat :=
    if nd = ns then conv n j k k calls
    else if nd < ns then (if part * nd + k < ns then conv n j k (part * nd + k) calls else (0, 0))
    else if part * ns ≤ k ∧ k < part * ns + ns then conv n j (k - part * ns) (k - part * ns) calls
    else (elemsOf dst.width old n k, 0)
  let l := lanesOf (fun n j => packLane n dst.width (g n j) nd) on
  let draws := if cvtDraws dst src then drawsFor mode (on.length * calls) else 0
  writeFmt dst vd p.zero draws l s2

/-! Permutes, selects and moves. -/

/-- A result that moves whole slots of source 1 (13 R304, R309): f gives the source slot of a slot, if it has one. -/
def moveBody (i : Instr) (vd vs1 : Reg) (f : CoreSt → Nat → Option Nat) (pfx : Option Pfx) (s : State) : Except Exc State := do
  let p := pfxOf pfx
  tileGate i false p [vd, vs1] s
  let (a, s1) ← readV1 p vs1 s
  let g (n : Nat) : Nat := match f (me s) n with
    | some k => (a.slot k).toNat
    | none => 0
  writeV vd p.zero (lanesOf (fun n _ => { slot := n, val := g n, fl := 0 }) (lanesOn (me s) p.mask.val)) s1

/-- A move whose source slot depends on a scalar (13 R304). -/
def slideBody (i : Instr) (vd vs1 xs : Reg) (f : CoreSt → Word → Nat → Option Nat) (pfx : Option Pfx) (s : State) :
    Except Exc State := do
  let p := pfxOf pfx
  tileGate i false p [vd, vs1] s
  let (a, s1) ← readV1 p vs1 s
  let (v, s2) ← readX xs s1
  let g (n : Nat) : Nat := match f (me s) v n with
    | some k => (a.slot k).toNat
    | none => 0
  writeV vd p.zero (lanesOf (fun n _ => { slot := n, val := g n, fl := 0 }) (lanesOn (me s) p.mask.val)) s2

/-- vperm (13 R304). -/
def permBody (i : Instr) (vd vs1 vs2 : Reg) (pfx : Option Pfx) (s : State) : Except Exc State := do
  let p := pfxOf pfx
  tileGate i false p [vd, vs1, vs2] s
  let (a, s1) ← readV1 p vs1 s
  let (b, s2) ← readV vs2 s1
  writeV vd p.zero (lanesOf (fun n _ => { slot := n, val := (a.slot ((b.slot n).toNat % 64)).toNat, fl := 0 })
    (lanesOn (me s) p.mask.val)) s2

/-- vsel (13 R309): MASK selects between the sources in every slot inside the shape. -/
def selBody (i : Instr) (vd vs1 vs2 : Reg) (pfx : Option Pfx) (s : State) : Except Exc State := do
  let p := pfxOf pfx
  tileGate i false p [vd, vs1, vs2] s
  let m := (getX p.mask.val (me s)).toNat
  let (a, s1) ← readV1 p vs1 s
  let (b, s2) ← readV vs2 s1
  writeV vd false (lanesOf (fun n _ => { slot := n, val := ((if bit m n then a else b).slot n).toNat, fl := 0 })
    (lanesOn (me s) 0)) s2

/-! Reductions. -/

/-- The slots a reduction combines into one result, and the slot of the result (13 R305). -/
def redGroups (x : CoreSt) (col : Bool) (mask : Nat) : List (Nat × List Nat) :=
  if col then (List.range (colsOf x)).map (fun j => (j, ((List.range 8).map (fun i => 8 * i + j)).filter (active x mask)))
  else (List.range (rowsOf x)).map (fun i => (8 * i, ((List.range 8).map (fun j => 8 * i + j)).filter (active x mask)))

/-- One element is added to a sum: the sum, its flags, and the roundings made so far (13 R305; 12 R284). -/
def sumStep (F : Fmt) (mode : Nat) (sat : Bool) (x : CoreSt) (a : Nat × Nat × Nat) (v : Nat) : Nat × Nat × Nat :=
  if isFloat F then
    let r := roundF (addNum (decodeF F a.1) (decodeF F v) mode) F mode sat (drawIf mode x a.2.2)
    (r.1, a.2.1 ||| r.2, a.2.2 + 1)
  else
    let t := decodeI F a.1 + decodeI F v
    (ux F.width (if sat then clampInt (intRange F.width (isSigned F)) t else t), a.2.1, a.2.2)

/-- One element meets a minimum or maximum. -/
def extStep (F : Fmt) (max : Bool) (a : Nat × Nat × Nat) (v : Nat) : Nat × Nat × Nat :=
  if isFloat F then
    let r := fminmax F max a.1 v
    (r.1, a.2.1 ||| r.2, a.2.2)
  else
    let less := decide (decodeI F v < decodeI F a.1)
    (if less != max && decodeI F v != decodeI F a.1 then v else a.1, a.2.1, a.2.2)

/-- A reduction's result where no element is active (13 R305). -/
def redEmpty (F : Fmt) (kind : Nat) : Nat :=
  if kind = 0 then 0
  else if isFloat F then nanCode F
  else
    let w := F.width
    if kind = 1 then identity (if isSigned F then .min else .minu) w else identity (if isSigned F then .max else .maxu) w

/-- The results of the groups in order; n counts the roundings made. -/
def redGo (F : Fmt) (empty : Nat) (step : Nat × Nat × Nat → Nat → Nat × Nat × Nat) (t : Tile) :
    List (Nat × List Nat) → Nat → List Lane × Nat
  | [], n => ([], n)
  | (dst, slots) :: rest, n =>
    let es := slots.flatMap (fun k => (List.range F.perSlot).map (fun e => elemsOf F.width t k e))
    let r : Nat × Nat × Nat := match es with
      | [] => (empty, 0, n)
      | e :: more => more.foldl step (e, 0, n)
    let (l, m) := redGo F empty step t rest r.2.2
    ({ slot := dst, val := r.1, fl := r.2.1 } :: l, m)

/-- A reduction (13 R305): kind 0 is the sum, 1 the minimum, 2 the maximum. -/
def redTile (i : Instr) (kind : Nat) (vd vs1 : Reg) (col : Bool) (F : Fmt) (pfx : Option Pfx) (s : State) :
    Except Exc State := do
  let p := pfxOf pfx
  tileGate i (F != .f32) p [vd, vs1] s
  let x := me s
  let mode := modeOf x p.rm.val
  let (a, s1) ← readV1 p vs1 s
  let step := if kind = 0 then sumStep F mode p.sat x else extStep F (kind == 2)
  let (l, n) := redGo F (redEmpty F kind) step a (redGroups x col p.mask.val) 0
  if isFloat F then writeFmt F vd p.zero (drawsFor mode n) l s1
  else writeV vd p.zero l s1

/-! Streams, compares and scalar moves. -/

/-- vrand and vrandf (13 R307): each active slot takes one draw. -/
def randBody (i : Instr) (f : Nat → Nat) (vd : Reg) (pfx : Option Pfx) (s : State) : Except Exc State := do
  let p := pfxOf pfx
  tileGate i false p [vd] s
  let x := me s
  let on := lanesOn x p.mask.val
  let t ← writeV vd p.zero (lanesOf (fun n j => { slot := n, val := f (drawAt x j), fl := 0 }) on) s
  pure (takeDraws on.length t)

/-- Width of a vcmp format and whether it is floating (13 R308). -/
def cmpParts : CmpFmt → Option Fmt × Nat × Bool
  | .f32 => (some .f32, 32, true) | .bf16 => (some .bf16, 16, true) | .f16 => (some .f16, 16, true)
  | .i32 => (none, 32, true) | .i16 => (none, 16, true) | .i8 => (none, 8, true)
  | .ui32 => (none, 32, false) | .ui16 => (none, 16, false) | .ui8 => (none, 8, false)

/-- Whether a condition holds for the sign of a comparison. -/
def condHolds (c : Cond) (d : Int) : Bool :=
  match c with
  | .eq => decide (d = 0) | .ne => decide (d ≠ 0) | .lt => decide (d < 0) | .le => decide (d ≤ 0)
  | .gt => decide (0 < d) | .ge => decide (0 ≤ d)

/-- Compares two elements: whether the condition holds, and the flags (13 R308). -/
def cmpElem (c : Cond) (f : CmpFmt) (a b : Nat) : Bool × Nat :=
  match cmpParts f with
  | (some F, _, _) =>
    let x := decodeF F a
    let y := decodeF F b
    let nan := isNan x || isNan y
    let snan := isSnan F a || isSnan F b
    let ordered := match c with
      | .eq => false | .ne => false | _ => true
    let nv := if snan || (nan && ordered) then flagNV else 0
    if nan then (c == Cond.ne, nv) else (condHolds c (cmpNum x y), nv)
  | (none, w, sg) => (condHolds c (intVal w sg a - intVal w sg b), 0)

/-- vcmp (13 R308): a mask bit for each slot, written to a scalar register. -/
def cmpBody (i : Instr) (xd vs1 vs2 : Reg) (cond : Cond) (f : CmpFmt) (pfx : Option Pfx) (s : State) : Except Exc State := do
  let p := pfxOf pfx
  tileGate i (f != .f32) p [vs1, vs2] s
  let w := (cmpParts f).2.1
  let (a, s1) ← readV1 p vs1 s
  let (b, s2) ← readV vs2 s1
  let on := lanesOn (me s) p.mask.val
  let r (n : Nat) : List (Bool × Nat) := (List.range (32 / w)).map (fun k => cmpElem cond f (elemsOf w a n k) (elemsOf w b n k))
  let m := on.foldl (fun v n => if (r n).all (fun e => e.1) then v + 2 ^ n else v) 0
  let fl := on.foldl (fun v n => (r n).foldl (fun u e => u ||| e.2) v) 0
  let t ← writeX xd (wd m) s2
  pure (modCore s.cur (accrue fl) t)

/-- vgetx (13 R310). -/
def getxBody (i : Instr) (xd vs1 xs : Reg) (s : State) : Except Exc State := do
  tileGate i false (pfxOf none) [vs1] s
  let (a, s1) ← readV vs1 s
  let (k, s2) ← readX xs s1
  writeX xd (sext32 (a.slot (k.toNat % 64)).toNat) s2

/-- vsetx (13 R310): one slot; the other 63 are unchanged. -/
def setxBody (i : Instr) (vd xa xs : Reg) (s : State) : Except Exc State := do
  tileGate i false (pfxOf none) [vd] s
  let (v, s1) ← readX xa s
  let (k, s2) ← readX xs s1
  writeV vd false [{ slot := k.toNat % 64, val := v.toNat % 2 ^ 32, fl := 0 }] s2

/-- vbcx (13 R310). -/
def bcxBody (i : Instr) (vd xa : Reg) (pfx : Option Pfx) (s : State) : Except Exc State := do
  let p := pfxOf pfx
  tileGate i false p [vd] s
  let (v, s1) ← readX xa s
  writeV vd p.zero (lanesOf (fun n _ => { slot := n, val := v.toNat % 2 ^ 32, fl := 0 }) (lanesOn (me s) p.mask.val)) s1

end Sys2Proof.Machine

end
end

