-- ==== Sys2Proof/Machine/Special.lean ====
section
/-!
DEFINITION. The special functions (13 R300). A result is a fixed function of the input alone that the spec bounds and does
not give: the free value Config.special where it meets the bound, else the nearest value (log 9). The function's own value is
computed to far more precision than the bound.
-/

namespace Sys2Proof.Machine

open Sys2Proof

/-- 2^128, the scale of the fixed-point values below. -/
def fxOne : Int := (2 ^ 128 : Nat)
/-- ln 2 in fixed point. -/
def fxLn2 : Int := 0xb17217f7d1cf79abc9e3b39803f2f6af
/-- 2 pi in fixed point. -/
def fxTau : Int := 0x6487ed5110b4611a62633145c06e0e689

/-- A fixed-point product. -/
def fxMul (a b : Int) : Int := a * b / fxOne

/-- A Taylor sum over k terms from term n: step gives the next term from the last and its number. -/
def fxSum (step : Int → Int → Int) : Nat → Int → Int → Int
  | 0, _, _ => 0
  | k + 1, n, t => t + fxSum step k (n + 1) (step t (n + 1))

/-- 2^f for f in 0 to 1, in fixed point. -/
def fxExp2 (f : Int) : Int :=
  let y := fxMul f fxLn2
  fxSum (fun t n => fxMul t y / n) 40 0 fxOne

/-- The bits of log2 of y in 1 to 2: n bits, the first of weight 2^(n-1). -/
def fxLog2 : Nat → Int → Int
  | 0, _ => 0
  | n + 1, y =>
    let z := fxMul y y
    if 2 * fxOne ≤ z then (2 ^ n : Nat) + fxLog2 n (z / 2) else fxLog2 n z

/-- sin y in fixed point. -/
def fxSin (y : Int) : Int := fxSum (fun t n => -(fxMul (fxMul t y) y / (2 * n * (2 * n + 1)))) 48 0 y
/-- cos y in fixed point. -/
def fxCos (y : Int) : Int := fxSum (fun t n => -(fxMul (fxMul t y) y / ((2 * n - 1) * (2 * n)))) 48 0 fxOne

/-- A finite number in fixed point. -/
def fxOf (s : Bool) (m : Nat) (e : Int) : Int :=
  let v : Int := if -128 ≤ e then m * 2 ^ (e + 128).toNat else m / 2 ^ (-128 - e).toNat
  if s then -v else v

/-- The exponent of one unit in the last place of the FP32 binade of a * 2^e (13 R300). -/
def ulpExp (a e : Int) : Int :=
  if a = 0 then -149
  else
    let t : Int := (Nat.log2 a.natAbs : Int) + e
    (if t < -126 then -126 else t) - 23

/-- Whether an FP32 encoding lies within k units in the last place of a * 2^e, or within 2^tol. Log 9, DESIGN CHOICE, safe. -/
def nearF (a e : Int) (k : Nat) (tol : Int) (raw : Nat) : Bool :=
  let go (s : Bool) (m : Nat) (d : Int) : Bool :=
    let q := ulpExp a e
    let g := min (min e d) (min q tol)
    let x : Int := m * 2 ^ (d - g).toNat
    let y : Int := a * 2 ^ (e - g).toNat
    let diff := ((if s then -x else x) - y).natAbs
    decide (diff ≤ k * 2 ^ (q - g).toNat) || decide (diff ≤ 2 ^ (tol - g).toNat)
  match decodeF .f32 raw with
  | .nan _ => false
  | .inf s => go s 1 128
  | .fin s m d _ => go s m d

/-- The result of a special function whose value is a * 2^e (log 9). -/
def pickF (fn x : Nat) (a e : Int) (k : Nat) (tol : Int) : Nat :=
  let big := decide (128 < (Nat.log2 a.natAbs : Int) + e)
  let a1 : Int := if big then (if a < 0 then -1 else 1) else a
  let e1 : Int := if big then 128 else e
  let raw := Config.special fn x % 2 ^ 32
  if nearF a1 e1 k tol raw then raw else (roundF (.fin (decide (a < 0)) a.natAbs e false) .f32 0 false 0).1

/-- No tolerance beside the units in the last place. -/
def noTol : Int := -200

/-- The canonical NaN and its flags for a NaN input: invalid when it signals (13 R300). -/
def nanResult (inv : Bool) : Nat × Nat := (nanCode .f32, if inv then flagNV else 0)
/-- +inf. -/
def infF : Nat := 0x7F800000
/-- The sign bit. -/
def signF (s : Bool) : Nat := if s then 2 ^ 31 else 0

/-- vexp2 (13 R300). -/
def spExp2 (v : Nat) : Nat × Nat :=
  match decodeF .f32 v with
  | .nan i => nanResult i
  | .inf s => (if s then 0 else infF, 0)
  | .fin s m e _ =>
    let x := fxOf s m e
    if 128 * fxOne ≤ x then (infF, flagOF)
    else if x < -300 * fxOne then (pickF 0 v 0 0 2 noTol, 0)
    else
      let n := x / fxOne
      (pickF 0 v (fxExp2 (x - n * fxOne)) (n - 128) 2 noTol, 0)

/-- vlog2 (13 R300). -/
def spLog2 (v : Nat) : Nat × Nat :=
  match decodeF .f32 v with
  | .nan i => nanResult i
  | .inf s => if s then (nanCode .f32, flagNV) else (infF, 0)
  | .fin s m e _ =>
    if m = 0 then (infF + 2 ^ 31, flagDZ)
    else if s then (nanCode .f32, flagNV)
    else
      let t := Nat.log2 m
      let y : Int := (m * 2 ^ (128 - t) : Nat)
      let a : Int := ((t : Int) + e) * (2 ^ 80 : Nat) + fxLog2 80 y
      let near := decide (0x3F000000 ≤ v) && decide (v ≤ 0x40000000)
      (pickF 1 v a (-80) 2 (if near then -22 else noTol), 0)

/-- vrcp (13 R300). -/
def spRcp (v : Nat) : Nat × Nat :=
  match decodeF .f32 v with
  | .nan i => nanResult i
  | .inf s => (signF s, 0)
  | .fin s m e _ =>
    if m = 0 then (infF + signF s, flagDZ)
    else
      let q : Int := (2 ^ 128 / m : Nat)
      (pickF 2 v (if s then -q else q) (-128 - e) 1 noTol, 0)

/-- A square root of m * 2^e as an integer and an exponent. -/
def rootOf (m : Nat) (e : Int) : Nat × Int :=
  let k : Nat := if e % 2 = 0 then 160 else 161
  (isqrt (m * 2 ^ k), (e - k) / 2)

/-- vrsqrt (13 R300). -/
def spRsqrt (v : Nat) : Nat × Nat :=
  match decodeF .f32 v with
  | .nan i => nanResult i
  | .inf s => if s then (nanCode .f32, flagNV) else (0, 0)
  | .fin s m e _ =>
    if m = 0 then (infF + signF s, flagDZ)
    else if s then (nanCode .f32, flagNV)
    else
      let r := rootOf m e
      (pickF 3 v (2 ^ 200 / r.1 : Nat) (-200 - r.2) 1 noTol, 0)

/-- vsqrt (13 R300). Log 24, DEDUCED, unsafe. -/
def spSqrt (v : Nat) : Nat × Nat :=
  match decodeF .f32 v with
  | .nan i => nanResult i
  | .inf s => if s then (nanCode .f32, flagNV) else (infF, 0)
  | .fin s m e _ =>
    if m = 0 ∧ s = true then (2 ^ 31, 0)
    else if s then (nanCode .f32, flagNV)
    else
      let r := rootOf m e
      (pickF 4 v r.1 r.2 1 noTol, 0)

/-- vtanh (13 R300). -/
def spTanh (v : Nat) : Nat × Nat :=
  match decodeF .f32 v with
  | .nan i => nanResult i
  | .inf s => (0x3F800000 + signF s, 0)
  | .fin s m e _ =>
    if m = 0 then (signF s, 0)
    else
      let sg (a : Int) : Int := if s then -a else a
      let x := fxOf false m e
      if x < fxOne / 4096 then
        let cube : Int := (m ^ 3 : Nat)
        (pickF 5 v (sg ((3 * m * 2 ^ (-2 * e).toNat - cube) * 1024 / 3)) (3 * e - 10) 2 noTol, 0)
      else if 128 * fxOne ≤ x then (pickF 5 v (sg 1) 0 2 noTol, 0)
      else
        let y := 2 * x * fxOne / fxLn2
        let n := y / fxOne
        let u := fxExp2 ((n + 1) * fxOne - y) / 2 ^ (n + 1).toNat
        (pickF 5 v (sg ((fxOne - u) * fxOne / (fxOne + u))) (-128) 2 noTol, 0)

/-- vsin and vcos (13 R300): past 2^13 any result in -1 to 1. -/
def spTrig (cosine : Bool) (v : Nat) : Nat × Nat :=
  let fn := if cosine then 7 else 6
  match decodeF .f32 v with
  | .nan i => nanResult i
  | .inf _ => (nanCode .f32, flagNV)
  | .fin s m e _ =>
    if m = 0 then (if cosine then 0x3F800000 else signF s, 0)
    else
      let x := fxOf s m e
      if 8192 * fxOne < x ∨ x < -8192 * fxOne then
        let raw := Config.special fn v % 2 ^ 32
        (if raw % 2 ^ 31 ≤ 0x3F800000 then raw else 0, 0)
      else
        let y := x - x / fxTau * fxTau
        (pickF fn v (if cosine then fxCos y else fxSin y) (-128) 2 (-24), 0)

end Sys2Proof.Machine
end

