-- ==== Sys2Proof/Machine/TileInstr.lean ====
section
/-!
DEFINITION. The tile instructions of majors 10010 to 10101 (13 R291 to R310).
-/

noncomputable section

namespace Sys2Proof.Machine

open Sys2Proof

/-- vadd: sum (13 R295). -/
def execVadd (vd vs1 src2 : Reg) (x : Bool) (ty : TInt) (pfx : Option Pfx) (s : State) : Host.Outcome State Fault Refusal :=
  finish (lenOf pfx) s (intBody (.vadd vd vs1 src2 x ty pfx) true (fun w sg a b => intVal w sg a + intVal w sg b) vd vs1 src2 x ty pfx s)

/-- vsub: difference (13 R295). -/
def execVsub (vd vs1 src2 : Reg) (x : Bool) (ty : TInt) (pfx : Option Pfx) (s : State) : Host.Outcome State Fault Refusal :=
  finish (lenOf pfx) s (intBody (.vsub vd vs1 src2 x ty pfx) true (fun w sg a b => intVal w sg a - intVal w sg b) vd vs1 src2 x ty pfx s)

/-- vmul: product (13 R295). -/
def execVmul (vd vs1 src2 : Reg) (x : Bool) (ty : TInt) (pfx : Option Pfx) (s : State) : Host.Outcome State Fault Refusal :=
  finish (lenOf pfx) s (intBody (.vmul vd vs1 src2 x ty pfx) true (fun w sg a b => intVal w sg a * intVal w sg b) vd vs1 src2 x ty pfx s)

/-- vmulh: high half of the product (13 R295). -/
def execVmulh (vd vs1 src2 : Reg) (x : Bool) (ty : TInt) (pfx : Option Pfx) (s : State) : Host.Outcome State Fault Refusal :=
  finish (lenOf pfx) s (intBody (.vmulh vd vs1 src2 x ty pfx) false (fun w sg a b => intVal w sg a * intVal w sg b / (2 ^ w : Nat)) vd vs1 src2 x ty pfx s)

/-- vmin: minimum (13 R295). -/
def execVmin (vd vs1 src2 : Reg) (x : Bool) (ty : TInt) (pfx : Option Pfx) (s : State) : Host.Outcome State Fault Refusal :=
  finish (lenOf pfx) s (intBody (.vmin vd vs1 src2 x ty pfx) false (fun w sg a b => min (intVal w sg a) (intVal w sg b)) vd vs1 src2 x ty pfx s)

/-- vmax: maximum (13 R295). -/
def execVmax (vd vs1 src2 : Reg) (x : Bool) (ty : TInt) (pfx : Option Pfx) (s : State) : Host.Outcome State Fault Refusal :=
  finish (lenOf pfx) s (intBody (.vmax vd vs1 src2 x ty pfx) false (fun w sg a b => max (intVal w sg a) (intVal w sg b)) vd vs1 src2 x ty pfx s)

/-- vand: bitwise and (13 R295). -/
def execVand (vd vs1 src2 : Reg) (x : Bool) (ty : TInt) (pfx : Option Pfx) (s : State) : Host.Outcome State Fault Refusal :=
  finish (lenOf pfx) s (intBody (.vand vd vs1 src2 x ty pfx) false (fun _ _ a b => ((a &&& b : Nat) : Int)) vd vs1 src2 x ty pfx s)

/-- vor: bitwise or (13 R295). -/
def execVor (vd vs1 src2 : Reg) (x : Bool) (ty : TInt) (pfx : Option Pfx) (s : State) : Host.Outcome State Fault Refusal :=
  finish (lenOf pfx) s (intBody (.vor vd vs1 src2 x ty pfx) false (fun _ _ a b => ((a ||| b : Nat) : Int)) vd vs1 src2 x ty pfx s)

/-- vxor: bitwise exclusive or (13 R295). -/
def execVxor (vd vs1 src2 : Reg) (x : Bool) (ty : TInt) (pfx : Option Pfx) (s : State) : Host.Outcome State Fault Refusal :=
  finish (lenOf pfx) s (intBody (.vxor vd vs1 src2 x ty pfx) false (fun _ _ a b => ((a ^^^ b : Nat) : Int)) vd vs1 src2 x ty pfx s)

/-- vsll: shift left by b mod w (13 R295). -/
def execVsll (vd vs1 src2 : Reg) (x : Bool) (ty : TInt) (pfx : Option Pfx) (s : State) : Host.Outcome State Fault Refusal :=
  finish (lenOf pfx) s (intBody (.vsll vd vs1 src2 x ty pfx) false (fun w _ a b => ((a * 2 ^ (b % w) : Nat) : Int)) vd vs1 src2 x ty pfx s)

/-- vsr: shift right by b mod w, arithmetic for signed types (13 R295). -/
def execVsr (vd vs1 src2 : Reg) (x : Bool) (ty : TInt) (pfx : Option Pfx) (s : State) : Host.Outcome State Fault Refusal :=
  finish (lenOf pfx) s (intBody (.vsr vd vs1 src2 x ty pfx) false (fun w sg a b => intVal w sg a / (2 ^ (b % w) : Nat)) vd vs1 src2 x ty pfx s)

/-- vabsd: absolute difference (13 R295). -/
def execVabsd (vd vs1 src2 : Reg) (x : Bool) (ty : TInt) (pfx : Option Pfx) (s : State) : Host.Outcome State Fault Refusal :=
  finish (lenOf pfx) s (intBody (.vabsd vd vs1 src2 x ty pfx) false (fun w sg a b => ((intVal w sg a - intVal w sg b).natAbs : Int)) vd vs1 src2 x ty pfx s)

/-- vfadd (13 R296). -/
def execVfadd (vd vs1 src2 : Reg) (x : Bool) (ty : TFlt) (pfx : Option Pfx) (s : State) : Host.Outcome State Fault Refusal :=
  finish (lenOf pfx) s (fltBody (.vfadd vd vs1 src2 x ty pfx) false (fun a b _ m => addNum a b m) vd vs1 src2 x ty pfx s)

/-- vfsub (13 R296). -/
def execVfsub (vd vs1 src2 : Reg) (x : Bool) (ty : TFlt) (pfx : Option Pfx) (s : State) : Host.Outcome State Fault Refusal :=
  finish (lenOf pfx) s (fltBody (.vfsub vd vs1 src2 x ty pfx) false (fun a b _ m => addNum a (negNum b) m) vd vs1 src2 x ty pfx s)

/-- vfmul (13 R296). -/
def execVfmul (vd vs1 src2 : Reg) (x : Bool) (ty : TFlt) (pfx : Option Pfx) (s : State) : Host.Outcome State Fault Refusal :=
  finish (lenOf pfx) s (fltBody (.vfmul vd vs1 src2 x ty pfx) false (fun a b _ _ => mulNum a b) vd vs1 src2 x ty pfx s)

/-- vfma (13 R296). -/
def execVfma (vd vs1 src2 : Reg) (x : Bool) (ty : TFlt) (pfx : Option Pfx) (s : State) : Host.Outcome State Fault Refusal :=
  finish (lenOf pfx) s (fltBody (.vfma vd vs1 src2 x ty pfx) true (fun a b c m => fmaNum a b c m) vd vs1 src2 x ty pfx s)

/-- vfms (13 R296). -/
def execVfms (vd vs1 src2 : Reg) (x : Bool) (ty : TFlt) (pfx : Option Pfx) (s : State) : Host.Outcome State Fault Refusal :=
  finish (lenOf pfx) s (fltBody (.vfms vd vs1 src2 x ty pfx) true (fun a b c m => fmaNum a b (negNum c) m) vd vs1 src2 x ty pfx s)

/-- vfnma (13 R296). -/
def execVfnma (vd vs1 src2 : Reg) (x : Bool) (ty : TFlt) (pfx : Option Pfx) (s : State) : Host.Outcome State Fault Refusal :=
  finish (lenOf pfx) s (fltBody (.vfnma vd vs1 src2 x ty pfx) true (fun a b c m => fmaNum (negNum a) b c m) vd vs1 src2 x ty pfx s)

/-- vfmin (13 R296). -/
def execVfmin (vd vs1 src2 : Reg) (x : Bool) (ty : TFlt) (pfx : Option Pfx) (s : State) : Host.Outcome State Fault Refusal :=
  finish (lenOf pfx) s (fltMinMax (.vfmin vd vs1 src2 x ty pfx) false vd vs1 src2 x ty pfx s)

/-- vfmax (13 R296). -/
def execVfmax (vd vs1 src2 : Reg) (x : Bool) (ty : TFlt) (pfx : Option Pfx) (s : State) : Host.Outcome State Fault Refusal :=
  finish (lenOf pfx) s (fltMinMax (.vfmax vd vs1 src2 x ty pfx) true vd vs1 src2 x ty pfx s)

/-- vfabs (13 R296). -/
def execVfabs (vd vs1 : Reg) (ty : TFlt) (pfx : Option Pfx) (s : State) : Host.Outcome State Fault Refusal :=
  finish (lenOf pfx) s (fltSign (.vfabs vd vs1 ty pfx) false vd vs1 ty pfx s)

/-- vfneg (13 R296). -/
def execVfneg (vd vs1 : Reg) (ty : TFlt) (pfx : Option Pfx) (s : State) : Host.Outcome State Fault Refusal :=
  finish (lenOf pfx) s (fltSign (.vfneg vd vs1 ty pfx) true vd vs1 ty pfx s)

/-- vscacc (13 R298). -/
def execVscacc (vd vs1 vs2 : Reg) (pfx : Option Pfx) (s : State) : Host.Outcome State Fault Refusal :=
  finish (lenOf pfx) s (scaccBody (.vscacc vd vs1 vs2 pfx) vd vs1 vs2 pfx s)

/-- vfdiv (13 R299). -/
def execVfdivF32 (vd vs1 vs2 : Reg) (la : La) (pfx : Option Pfx) (s : State) : Host.Outcome State Fault Refusal :=
  finish (lenOf pfx) s (fltLong (.vfdivF32 vd vs1 vs2 la pfx) divNum .f32 vd vs1 (some vs2) la pfx s)

/-- vfsqrt (13 R299). -/
def execVfsqrtF32 (vd vs1 : Reg) (la : La) (pfx : Option Pfx) (s : State) : Host.Outcome State Fault Refusal :=
  finish (lenOf pfx) s (fltLong (.vfsqrtF32 vd vs1 la pfx) (fun a _ => (sqrtNum a, false)) .f32 vd vs1 none la pfx s)

/-- vfdiv (13 R299). -/
def execVfdivBf16 (vd vs1 vs2 : Reg) (la : La) (pfx : Option Pfx) (s : State) : Host.Outcome State Fault Refusal :=
  finish (lenOf pfx) s (fltLong (.vfdivBf16 vd vs1 vs2 la pfx) divNum .bf16 vd vs1 (some vs2) la pfx s)

/-- vfsqrt (13 R299). -/
def execVfsqrtBf16 (vd vs1 : Reg) (la : La) (pfx : Option Pfx) (s : State) : Host.Outcome State Fault Refusal :=
  finish (lenOf pfx) s (fltLong (.vfsqrtBf16 vd vs1 la pfx) (fun a _ => (sqrtNum a, false)) .bf16 vd vs1 none la pfx s)

/-- vfdiv (13 R299). -/
def execVfdivF16 (vd vs1 vs2 : Reg) (la : La) (pfx : Option Pfx) (s : State) : Host.Outcome State Fault Refusal :=
  finish (lenOf pfx) s (fltLong (.vfdivF16 vd vs1 vs2 la pfx) divNum .f16 vd vs1 (some vs2) la pfx s)

/-- vfsqrt (13 R299). -/
def execVfsqrtF16 (vd vs1 : Reg) (la : La) (pfx : Option Pfx) (s : State) : Host.Outcome State Fault Refusal :=
  finish (lenOf pfx) s (fltLong (.vfsqrtF16 vd vs1 la pfx) (fun a _ => (sqrtNum a, false)) .f16 vd vs1 none la pfx s)

/-- vexp2 (13 R300). -/
def execVexp2 (vd vs1 : Reg) (la : La) (pfx : Option Pfx) (s : State) : Host.Outcome State Fault Refusal :=
  finish (lenOf pfx) s (specialBody (.vexp2 vd vs1 la pfx) spExp2 vd vs1 la pfx s)

/-- vlog2 (13 R300). -/
def execVlog2 (vd vs1 : Reg) (la : La) (pfx : Option Pfx) (s : State) : Host.Outcome State Fault Refusal :=
  finish (lenOf pfx) s (specialBody (.vlog2 vd vs1 la pfx) spLog2 vd vs1 la pfx s)

/-- vrcp (13 R300). -/
def execVrcp (vd vs1 : Reg) (la : La) (pfx : Option Pfx) (s : State) : Host.Outcome State Fault Refusal :=
  finish (lenOf pfx) s (specialBody (.vrcp vd vs1 la pfx) spRcp vd vs1 la pfx s)

/-- vrsqrt (13 R300). -/
def execVrsqrt (vd vs1 : Reg) (la : La) (pfx : Option Pfx) (s : State) : Host.Outcome State Fault Refusal :=
  finish (lenOf pfx) s (specialBody (.vrsqrt vd vs1 la pfx) spRsqrt vd vs1 la pfx s)

/-- vsqrt (13 R300). -/
def execVsqrt (vd vs1 : Reg) (la : La) (pfx : Option Pfx) (s : State) : Host.Outcome State Fault Refusal :=
  finish (lenOf pfx) s (specialBody (.vsqrt vd vs1 la pfx) spSqrt vd vs1 la pfx s)

/-- vtanh (13 R300). -/
def execVtanh (vd vs1 : Reg) (la : La) (pfx : Option Pfx) (s : State) : Host.Outcome State Fault Refusal :=
  finish (lenOf pfx) s (specialBody (.vtanh vd vs1 la pfx) spTanh vd vs1 la pfx s)

/-- vsin (13 R300). -/
def execVsin (vd vs1 : Reg) (la : La) (pfx : Option Pfx) (s : State) : Host.Outcome State Fault Refusal :=
  finish (lenOf pfx) s (specialBody (.vsin vd vs1 la pfx) (spTrig false) vd vs1 la pfx s)

/-- vcos (13 R300). -/
def execVcos (vd vs1 : Reg) (la : La) (pfx : Option Pfx) (s : State) : Host.Outcome State Fault Refusal :=
  finish (lenOf pfx) s (specialBody (.vcos vd vs1 la pfx) (spTrig true) vd vs1 la pfx s)

/-- vcvt (13 R301 to R303). -/
def execVcvt (vd vs1 : Reg) (dst src : Fmt) (part : Fin 8) (pfx : Option Pfx) (s : State) : Host.Outcome State Fault Refusal :=
  finish (lenOf pfx) s (cvtBody (.vcvt vd vs1 dst src part pfx) vd vs1 dst src part.val pfx s)

/-- vtrans (13 R304): detail 0x30 unless R = C. -/
def execVtrans (vd vs1 : Reg) (pfx : Option Pfx) (s : State) : Host.Outcome State Fault Refusal :=
  finish (lenOf pfx) s
    (if rowsOf (me s) ≠ colsOf (me s) then illegal 0x30 (.vtrans vd vs1 pfx)
     else moveBody (.vtrans vd vs1 pfx) vd vs1 (fun _ n => some (n % 8 * 8 + n / 8)) pfx s)

/-- vperm (13 R304). -/
def execVperm (vd vs1 vs2 : Reg) (pfx : Option Pfx) (s : State) : Host.Outcome State Fault Refusal :=
  finish (lenOf pfx) s (permBody (.vperm vd vs1 vs2 pfx) vd vs1 vs2 pfx s)

/-- The source slot of a slide by n along a row or column (13 R304). -/
def slideFrom (row : Bool) (x : CoreSt) (n : Word) (k : Nat) : Option Nat :=
  let d := sx 64 n.toNat
  if row then
    let i := (k / 8 : Nat) - d
    if 0 ≤ i ∧ i < rowsOf x then some (i.toNat * 8 + k % 8) else none
  else
    let j := (k % 8 : Nat) - d
    if 0 ≤ j ∧ j < colsOf x then some (k / 8 * 8 + j.toNat) else none

/-- vslideC (13 R304). -/
def execVslideC (vd vs1 xs : Reg) (pfx : Option Pfx) (s : State) : Host.Outcome State Fault Refusal :=
  finish (lenOf pfx) s (slideBody (.vslideC vd vs1 xs pfx) vd vs1 xs (slideFrom false) pfx s)

/-- vslideR (13 R304). -/
def execVslideR (vd vs1 xs : Reg) (pfx : Option Pfx) (s : State) : Host.Outcome State Fault Refusal :=
  finish (lenOf pfx) s (slideBody (.vslideR vd vs1 xs pfx) vd vs1 xs (slideFrom true) pfx s)

/-- vbcastR (13 R304). -/
def execVbcastR (vd vs1 xs : Reg) (pfx : Option Pfx) (s : State) : Host.Outcome State Fault Refusal :=
  finish (lenOf pfx) s (slideBody (.vbcastR vd vs1 xs pfx) vd vs1 xs (fun _ v k => some (v.toNat % 8 * 8 + k % 8)) pfx s)

/-- vbcastC (13 R304). -/
def execVbcastC (vd vs1 xs : Reg) (pfx : Option Pfx) (s : State) : Host.Outcome State Fault Refusal :=
  finish (lenOf pfx) s (slideBody (.vbcastC vd vs1 xs pfx) vd vs1 xs (fun _ v k => some (k / 8 * 8 + v.toNat % 8)) pfx s)

/-- vredsum (13 R305). -/
def execVredsum (vd vs1 : Reg) (col : Bool) (fmt : Fmt) (pfx : Option Pfx) (s : State) : Host.Outcome State Fault Refusal :=
  finish (lenOf pfx) s (redTile (.vredsum vd vs1 col fmt pfx) 0 vd vs1 col fmt pfx s)

/-- vredmin (13 R305). -/
def execVredmin (vd vs1 : Reg) (col : Bool) (fmt : Fmt) (pfx : Option Pfx) (s : State) : Host.Outcome State Fault Refusal :=
  finish (lenOf pfx) s (redTile (.vredmin vd vs1 col fmt pfx) 1 vd vs1 col fmt pfx s)

/-- vredmax (13 R305). -/
def execVredmax (vd vs1 : Reg) (col : Bool) (fmt : Fmt) (pfx : Option Pfx) (s : State) : Host.Outcome State Fault Refusal :=
  finish (lenOf pfx) s (redTile (.vredmax vd vs1 col fmt pfx) 2 vd vs1 col fmt pfx s)

/-- vrand (13 R307). -/
def execVrand (vd : Reg) (pfx : Option Pfx) (s : State) : Host.Outcome State Fault Refusal :=
  finish (lenOf pfx) s (randBody (.vrand vd pfx) id vd pfx s)

/-- vrandf (13 R307). -/
def execVrandf (vd : Reg) (pfx : Option Pfx) (s : State) : Host.Outcome State Fault Refusal :=
  finish (lenOf pfx) s (randBody (.vrandf vd pfx) (fun d => (roundF (.fin false (d / 256) (-24) false) .f32 0 false 0).1) vd pfx s)

/-- vcmp (13 R308). -/
def execVcmp (xd vs1 vs2 : Reg) (cond : Cond) (fmt : CmpFmt) (pfx : Option Pfx) (s : State) : Host.Outcome State Fault Refusal :=
  finish (lenOf pfx) s (cmpBody (.vcmp xd vs1 vs2 cond fmt pfx) xd vs1 vs2 cond fmt pfx s)

/-- vsel (13 R309). -/
def execVsel (vd vs1 vs2 : Reg) (pfx : Option Pfx) (s : State) : Host.Outcome State Fault Refusal :=
  finish (lenOf pfx) s (selBody (.vsel vd vs1 vs2 pfx) vd vs1 vs2 pfx s)

/-- vmv (13 R309). -/
def execVmv (vd vs1 : Reg) (pfx : Option Pfx) (s : State) : Host.Outcome State Fault Refusal :=
  finish (lenOf pfx) s (moveBody (.vmv vd vs1 pfx) vd vs1 (fun _ n => some n) pfx s)

/-- vgetx (13 R310). -/
def execVgetx (xd vs1 xs : Reg) (pfx : Option Pfx) (s : State) : Host.Outcome State Fault Refusal :=
  finish (lenOf pfx) s (getxBody (.vgetx xd vs1 xs pfx) xd vs1 xs s)

/-- vsetx (13 R310). -/
def execVsetx (vd xa xs : Reg) (pfx : Option Pfx) (s : State) : Host.Outcome State Fault Refusal :=
  finish (lenOf pfx) s (setxBody (.vsetx vd xa xs pfx) vd xa xs s)

/-- vbcx (13 R310). -/
def execVbcx (vd xa : Reg) (pfx : Option Pfx) (s : State) : Host.Outcome State Fault Refusal :=
  finish (lenOf pfx) s (bcxBody (.vbcx vd xa pfx) vd xa pfx s)

/-- tshape (13 R291): writes TSHAPE. -/
def execTshape (rows cols : Fin 8) (pfx : Option Pfx) (s : State) : Host.Outcome State Fault Refusal :=
  finish (lenOf pfx) s (.ok (modCore s.cur (fun x => { x with tshape := wd (8 * rows.val + cols.val) }) s))

end Sys2Proof.Machine

end
end

