-- ==== Sys2Proof/Machine/TileMem.lean ====
section
/-!
DEFINITION. Tile loads and stores (11 R250 to R252).
-/

noncomputable section

namespace Sys2Proof.Machine

open Sys2Proof

/-- Inserts a slot and its address in ascending order of address. -/
def insertVa (e : Nat × Nat) : List (Nat × Nat) → List (Nat × Nat)
  | [] => [e]
  | f :: l => if e.2 < f.2 then e :: f :: l else f :: insertVa e l

/-- Slots and addresses in the order in which the checks name the first fault: ascending address, or ascending slot for a
gather or scatter (11 R244). Log 60, DEDUCED, unsafe. -/
def checkOrder (gather : Bool) (l : List (Nat × Nat)) : List (Nat × Nat) :=
  if gather then l else l.foldl (fun a e => insertVa e a) []

/-- The bodies of the address column of 11 R250 for slot (i, j). -/
inductive TileAddr where
  | block (imm : Int)
  | rows (imm : Int)
  | stride (by_ : Word)
  | index (t : Tile)
  deriving DecidableEq, Repr

/-- The address of slot k (11 R250). -/
def tileVa (x : CoreSt) (base : Word) (m : TileAddr) (k : Nat) : Nat :=
  match m with
  | .block imm => (base + immW imm + wd (4 * (colsOf x * (k / 8) + k % 8))).toNat
  | .rows imm => (base + immW imm + wd (4 * (k % 8))).toNat
  | .stride v => (base + wd (k / 8) * v + wd (4 * (k % 8))).toNat
  | .index t => (base + sext32 (t.slot k).toNat * 4).toNat

/-- Whether an address body is a gather or scatter. -/
def isGather : TileAddr → Bool
  | .index _ => true
  | _ => false

/-- Every active slot of a tile access is checked (11 R244, R246, R252); the pieces come in ascending slot order. -/
def tilePieces (acc : Acc) (base : Word) (m : TileAddr) (on : List Nat) (s : State) : Except Exc (List Piece × State) :=
  let x := me s
  let l := on.map (fun k => (k, tileVa x base m k))
  let bad := match m with
    | .stride v => v.toNat % 4 != 0
    | _ => false
  match l with
  | [] => .ok ([], s)
  | first :: _ =>
    if bad then .error (.trap 0x201 (wd first.2))
    else
      let order := checkOrder (isGather m) l
      match order.find? (fun e => e.2 % 4 != 0) with
      | some e => .error (.trap 0x201 (wd e.2))
      | none =>
        match resolvePieces (whoCore s s.cur) acc .tile (order.map (fun e => (e.2, 4))) s with
        | .error e => .error e
        | .ok (ps, t) =>
          let slots := (order.map (fun e => e.1)).zip ps
          .ok (on.filterMap (fun k => (slots.find? (fun e => e.1 == k)).map (fun e => e.2)), t)

/-- What a memory operation waits for, if there is one: a tile access with no active slot performs none (07 R156). -/
def tileMemGate (on : List Nat) (s : State) : Except Exc State := if on.isEmpty then .ok s else memGate s

/-- A mask that cannot be read faults (20 R452). -/
def maskGate (p : Pfx) (s : State) : Except Exc Unit :=
  if (me s).badX.contains p.mask.val then .error (.trap 0x605 0) else .ok ()

/-- A tile load (11 R250 to R252): adr reads the operands that make the addresses. -/
def tileLoad (vd rs1 : Reg) (adr : State → Except Exc (TileAddr × State)) (la : La) (pfx : Option Pfx) (s : State) :
    Except Exc State := do
  let p := pfxOf pfx
  maskGate p s
  let on := lanesOn (me s) p.mask.val
  let s1 ← tileMemGate on s
  let (base, s2) ← readX rs1 s1
  let (m, s3) ← adr s2
  if !p.zero && decide (on.length < 64) && (me s3).badT.contains vd.val then .error (.trap 0x605 0)
  else do
    let w := whoCore s3 s.cur
    let (ps, s4) ← tilePieces .load base m on s3
    let (vs, f, txns, s5) ← loadPieces s.cur w ps [] s4
    let s6 := countAccess s.cur w true (ps.map (fun q => q.ref)) s5
    let lanes : List Lane := (on.zip vs).map (fun e => { slot := e.1, val := e.2, fl := 0 })
    let tile := laneTile (getV vd.val (me s6)) p.zero lanes
    let st : WinSt := match f with
      | some (k, va) => .faulty k (wd va)
      | none => .flying
    pure (modCore s.cur (fun x =>
      openWin (pcOf s).toNat la.val [] [vd.val] st [] [(vd.val, tile)] 0 txns { x with tileuse := true }) s6)

/-- Stores the slots of a tile in ascending order (11 R252). -/
def storeLanes (c : Nat) (w : Who) : List (Piece × Nat) → State → State
  | [], s => s
  | (p, v) :: rest, s => storeLanes c w rest (storeRef c w p.ref (bytesOf (p.ref.pa % 128) v 4) s)

/-- A tile store (11 R250 to R252): a source that names a link port pops its entry even when no slot is active. -/
def tileStore (vs rs1 : Reg) (adr : State → Except Exc (TileAddr × State)) (pfx : Option Pfx) (s : State) :
    Except Exc State := do
  let p := pfxOf pfx
  if 28 ≤ vs.val ∧ linkConnected s s.cur (vs.val - 28) = false then .error (.trap 0x404 0)
  else do
    maskGate p s
    let on := lanesOn (me s) p.mask.val
    let s1 ← tileMemGate on s
    let (base, s2) ← readX rs1 s1
    let (m, s3) ← adr s2
    let (t, s4) ← readV vs s3
    let w := whoCore s4 s.cur
    let (ps, s5) ← tilePieces .store base m on s4
    let s6 := countAccess s.cur w true (ps.map (fun q => q.ref)) s5
    pure (storeLanes s.cur w (ps.zip (on.map (fun k => (t.slot k).toNat))) s6)

/-- The stride operand. Log 60, DEDUCED, unsafe. -/
def strideAdr (rs2 : Reg) (s : State) : Except Exc (TileAddr × State) := do
  let (v, t) ← readX rs2 s
  pure (.stride v, t)

/-- The index tile. -/
def indexAdr (vs2 : Reg) (s : State) : Except Exc (TileAddr × State) := do
  let (v, t) ← readV vs2 s
  pure (.index v, t)

/-- vld (11 R250). -/
def execVld (vd rs1 : Reg) (imm : Int) (la : La) (pfx : Option Pfx) (s : State) : Host.Outcome State Fault Refusal :=
  finish (lenOf pfx) s (tileLoad vd rs1 (fun t => .ok (.block (32 * imm), t)) la pfx s)

/-- vldb (11 R250): one row for every row. -/
def execVldb (vd rs1 : Reg) (imm : Int) (la : La) (pfx : Option Pfx) (s : State) : Host.Outcome State Fault Refusal :=
  finish (lenOf pfx) s (tileLoad vd rs1 (fun t => .ok (.rows (32 * imm), t)) la pfx s)

/-- vlds (11 R250): rows a stride apart. -/
def execVlds (vd rs1 rs2 : Reg) (la : La) (pfx : Option Pfx) (s : State) : Host.Outcome State Fault Refusal :=
  finish (lenOf pfx) s (tileLoad vd rs1 (strideAdr rs2) la pfx s)

/-- vldg (11 R250): a gather. -/
def execVldg (vd rs1 vs2 : Reg) (la : La) (pfx : Option Pfx) (s : State) : Host.Outcome State Fault Refusal :=
  finish (lenOf pfx) s (tileLoad vd rs1 (indexAdr vs2) la pfx s)

/-- vst (11 R250). -/
def execVst (vs rs1 : Reg) (imm : Int) (pfx : Option Pfx) (s : State) : Host.Outcome State Fault Refusal :=
  finish (lenOf pfx) s (tileStore vs rs1 (fun t => .ok (.block imm, t)) pfx s)

/-- vsts (11 R250). -/
def execVsts (vs rs1 rs2 : Reg) (pfx : Option Pfx) (s : State) : Host.Outcome State Fault Refusal :=
  finish (lenOf pfx) s (tileStore vs rs1 (strideAdr rs2) pfx s)

/-- vstg (11 R250): a scatter. -/
def execVstg (vs rs1 vs2 : Reg) (pfx : Option Pfx) (s : State) : Host.Outcome State Fault Refusal :=
  finish (lenOf pfx) s (tileStore vs rs1 (indexAdr vs2) pfx s)

end Sys2Proof.Machine

end
end

