-- ==== Sys2Proof/Machine/Fetch.lean ====
section
/-!
DEFINITION. Instruction fetch (04 R88, R91): the fetch buffer, I0, I1 and I2, and reading an instruction at an address.
-/

noncomputable section

namespace Sys2Proof.Machine

open Sys2Proof

/-- The nearest instruction cache of core c that holds a line, 0 to 2, and the line (04 R88). -/
def heldLine (s : State) (c line : Nat) : Option (Nat × CodeLine) :=
  let find (n : Nat) (l : List CodeLine) : Option (Nat × CodeLine) := (l.find? (fun k => k.line == line)).map (fun k => (n, k))
  ((find 0 (coreOf s c).i0).or (find 1 (clusterOf s (clOf c)).i1)).or (find 2 (dieOf s (dOf c)).i2)

/-- Issue cycles that a fetch loses (04 R92): how many is a free value. Log 120, DESIGN CHOICE, safe. -/
def fetchLost (code c : Nat) (s : State) : State := { count code (Config.lostCycles s.free) c s with free := s.free + 1 }

/-- A line that level n supplies is used there and fills the levels before it; level 3 is memory, which fills all three (04 R88,
R92). Log 7, DESIGN CHOICE, unsafe. -/
def fillCode (c n : Nat) (k : CodeLine) (s : State) : State :=
  if n = 0 then fillI0 c k s
  else if n = 1 then fetchLost 0x56 c (fillI0 c k (fillI1 c k s))
  else fetchLost (if n = 2 then 0x57 else 0x58) c (fillI0 c k (fillI1 c k (fillI2 c k s)))

/-- The fetch buffer after a fetch at an address: the words of its line from there on, and older ones within 32 words of it
(04 R88). Log 10, DESIGN CHOICE, unsafe. -/
def bufferWords (va : Nat) (k : CodeLine) (b : AList Nat) : AList Nat :=
  let near := b.filter (fun e => decide (e.1 < va + 128) && decide (va < e.1 + 128))
  (List.range (32 - va % 128 / 4)).foldl (fun m i => AList.put (va + 4 * i) (k.words.getD (va % 128 / 4 + i) 0) m) near

/-- Why a fetch gives no word: a fault with its cause and TVAL, or a wait. -/
inductive FetchStop where
  | fault (cause : Nat) (tval : Word)
  | wait (s : State)

/-- Fetches the word at an address on core c (04 R88; 02 R25, R29, R38; 05 R96). A word that a cache or the buffer holds and
memory has changed is the old or the new one (04 R91; log 8). The fetch waits while the log is applied (02 R38), and where it
needs I2 while the partitions are resized (04 R84) or a home whose split changes (04 R73). Log 10, DESIGN CHOICE, unsafe. -/
def fetchWord (c va : Nat) (s : State) : Except FetchStop (Nat × State) :=
  if canonical va && inWindows va then .error (.fault (xlCause 7 0xF) (wd va))
  else
    match logGate c s with
    | (s0, false) => .error (.wait s0)
    | (s0, true) =>
      let w := whoCore s0 c
      match resolve w .exec .tile va s0 with
      | .error k => .error (.fault k (wd va))
      | .ok (r, t) =>
        let gen := (keyGenOf t r.key).getD 0
        let line := r.pa / 128
        let i := r.pa % 128 / 4
        let fresh := bytesAt t r.kind gen (r.pa / 4 * 4) 4
        let home := homeOf t w.tenant w.cl r
        let load (u : State) : Except FetchStop (Nat × State) :=
          if l2Busy u (dOf c) || readWaits u none home line then .error (.wait t)
          else
            let v := homeRead home r u
            if lineBad v r.kind r.pa then .error (.fault 0x601 (wd va))
            else
              let k := codeLine v r.kind r.pa gen
              .ok (k.words.getD i 0, modCore c (fun x => { x with fbuf := bufferWords va k x.fbuf }) (fillCode c 3 k v))
        let keep (old : Nat) (u : State) : Except FetchStop (Nat × State) :=
          if old = fresh then .ok (old, u)
          else if Config.coin t.free then .ok (old, { u with free := t.free + 1 })
          else load { t with free := t.free + 1 }
        match (coreOf t c).fbuf.find? va, heldLine t c line with
        | some old, _ => keep old t
        | none, some (n, k) =>
          if n = 2 && l2Busy t (dOf c) then .error (.wait t)
          else keep (k.words.getD i 0) (modCore c (fun x => { x with fbuf := bufferWords va k x.fbuf }) (fillCode c n k t))
        | none, none => load t

/-- Why the bytes at an address give no instruction: a fault of the fetch, or an illegal word with its detail (09 R190),
each with TVAL, or a wait. -/
inductive NoInstr where
  | fetch (cause : Nat) (tval : Word)
  | bad (detail : Nat) (tval : Word)
  | wait (s : State)

/-- A fetch that stops, as fetching an instruction sees it. -/
def FetchStop.noInstr : FetchStop → NoInstr
  | .fault k v => .fetch k v
  | .wait s => .wait s

/-- Fetches and decodes the instruction at an address: the instruction and its length (09 R190, R193, R195). -/
def fetchInstr (c va : Nat) (s : State) : Except NoInstr (Instr × Nat × State) :=
  match fetchWord c va s with
  | .error e => .error e.noInstr
  | .ok (w0, t) =>
    if isPfxWord w0 then
      match fetchWord c ((va + 4) % 2 ^ 64) t with
      | .error e => .error e.noInstr
      | .ok (w1, u) =>
        match decodeWords [w0, w1] with
        | .ok (i, n) => .ok (i, n, u)
        | .error d => .error (.bad d (wd w1))
    else
      match decodeWords [w0] with
      | .ok (i, n) => .ok (i, n, t)
      | .error d => .error (.bad d (wd w0))

end Sys2Proof.Machine

end
end

