-- ==== Sys2Proof/Machine/Fp.lean ====
section
/-!
DEFINITION. Scalar FP32 instructions (10 R227 to R235).
-/

noncomputable section

namespace Sys2Proof.Machine

open Sys2Proof

/-- fadd.s (10 R230): a + b rounded once. -/
def execFaddS (rd rs1 rs2 : Reg) (rm : Rm) (s : State) : Host.Outcome State Fault Refusal :=
  finish 4 s (fpBinary addNum rd rs1 rs2 rm s)

/-- fsub.s (10 R230): a - b rounded once. -/
def execFsubS (rd rs1 rs2 : Reg) (rm : Rm) (s : State) : Host.Outcome State Fault Refusal :=
  finish 4 s (fpBinary (fun a b m => addNum a (negNum b) m) rd rs1 rs2 rm s)

/-- fmul.s (10 R230): a times b rounded once. -/
def execFmulS (rd rs1 rs2 : Reg) (rm : Rm) (s : State) : Host.Outcome State Fault Refusal :=
  finish 4 s (fpBinary (fun a b _ => mulNum a b) rd rs1 rs2 rm s)

/-- fmin.s (10 R231). -/
def execFminS (rd rs1 rs2 : Reg) (s : State) : Host.Outcome State Fault Refusal :=
  finish 4 s (fpMinMax false rd rs1 rs2 s)

/-- fmax.s (10 R231). -/
def execFmaxS (rd rs1 rs2 : Reg) (s : State) : Host.Outcome State Fault Refusal :=
  finish 4 s (fpMinMax true rd rs1 rs2 s)

/-- fsgnj.s (10 R230): the sign of b. -/
def execFsgnjS (rd rs1 rs2 : Reg) (s : State) : Host.Outcome State Fault Refusal :=
  finish 4 s (fpSign (fun _ b => b) rd rs1 rs2 s)

/-- fsgnjn.s (10 R230): the inverted sign of b. -/
def execFsgnjnS (rd rs1 rs2 : Reg) (s : State) : Host.Outcome State Fault Refusal :=
  finish 4 s (fpSign (fun _ b => !b) rd rs1 rs2 s)

/-- fsgnjx.s (10 R230): the exclusive or of the signs. -/
def execFsgnjxS (rd rs1 rs2 : Reg) (s : State) : Host.Outcome State Fault Refusal :=
  finish 4 s (fpSign (fun a b => a != b) rd rs1 rs2 s)

/-- fle.s (10 R232). -/
def execFleS (rd rs1 rs2 : Reg) (s : State) : Host.Outcome State Fault Refusal :=
  finish 4 s (fpCompare false (fun c => decide (c ≤ 0)) rd rs1 rs2 s)

/-- flt.s (10 R232). -/
def execFltS (rd rs1 rs2 : Reg) (s : State) : Host.Outcome State Fault Refusal :=
  finish 4 s (fpCompare false (fun c => decide (c < 0)) rd rs1 rs2 s)

/-- feq.s (10 R232). -/
def execFeqS (rd rs1 rs2 : Reg) (s : State) : Host.Outcome State Fault Refusal :=
  finish 4 s (fpCompare true (fun c => decide (c = 0)) rd rs1 rs2 s)

/-- fclass.s (10 R232). -/
def execFclassS (rd rs1 : Reg) (s : State) : Host.Outcome State Fault Refusal :=
  finish 4 s (unary (fun a => wd (2 ^ classBit (a.toNat % 2 ^ 32))) rd rs1 s)

/-- fcvt.w.s (10 R233). -/
def execFcvtWS (rd rs1 : Reg) (rm : Rm) (s : State) : Host.Outcome State Fault Refusal :=
  finish 4 s (fpCvtInt 32 true rd rs1 rm s)

/-- fcvt.wu.s (10 R233). -/
def execFcvtWuS (rd rs1 : Reg) (rm : Rm) (s : State) : Host.Outcome State Fault Refusal :=
  finish 4 s (fpCvtInt 32 false rd rs1 rm s)

/-- fcvt.l.s (10 R233). -/
def execFcvtLS (rd rs1 : Reg) (rm : Rm) (s : State) : Host.Outcome State Fault Refusal :=
  finish 4 s (fpCvtInt 64 true rd rs1 rm s)

/-- fcvt.lu.s (10 R233). -/
def execFcvtLuS (rd rs1 : Reg) (rm : Rm) (s : State) : Host.Outcome State Fault Refusal :=
  finish 4 s (fpCvtInt 64 false rd rs1 rm s)

/-- fcvt.s.w (10 R233). -/
def execFcvtSW (rd rs1 : Reg) (rm : Rm) (s : State) : Host.Outcome State Fault Refusal :=
  finish 4 s (fpFromInt 32 true rd rs1 rm s)

/-- fcvt.s.wu (10 R233). -/
def execFcvtSWu (rd rs1 : Reg) (rm : Rm) (s : State) : Host.Outcome State Fault Refusal :=
  finish 4 s (fpFromInt 32 false rd rs1 rm s)

/-- fcvt.s.l (10 R233). -/
def execFcvtSL (rd rs1 : Reg) (rm : Rm) (s : State) : Host.Outcome State Fault Refusal :=
  finish 4 s (fpFromInt 64 true rd rs1 rm s)

/-- fcvt.s.lu (10 R233). -/
def execFcvtSLu (rd rs1 : Reg) (rm : Rm) (s : State) : Host.Outcome State Fault Refusal :=
  finish 4 s (fpFromInt 64 false rd rs1 rm s)

/-- fmadd.s (10 R234): a times b plus c. -/
def execFmaddS (rd rs1 rs2 rs3 : Reg) (rm : Rm) (s : State) : Host.Outcome State Fault Refusal :=
  finish 4 s (fpFused false false rd rs1 rs2 rs3 rm s)

/-- fmsub.s (10 R234): a times b minus c. -/
def execFmsubS (rd rs1 rs2 rs3 : Reg) (rm : Rm) (s : State) : Host.Outcome State Fault Refusal :=
  finish 4 s (fpFused false true rd rs1 rs2 rs3 rm s)

/-- fnmsub.s (10 R234): (-a) times b plus c. -/
def execFnmsubS (rd rs1 rs2 rs3 : Reg) (rm : Rm) (s : State) : Host.Outcome State Fault Refusal :=
  finish 4 s (fpFused true false rd rs1 rs2 rs3 rm s)

/-- fnmadd.s (10 R234): (-a) times b minus c. -/
def execFnmaddS (rd rs1 rs2 rs3 : Reg) (rm : Rm) (s : State) : Host.Outcome State Fault Refusal :=
  finish 4 s (fpFused true true rd rs1 rs2 rs3 rm s)

/-- fdiv.s (10 R235). -/
def execFdivS (rd rs1 rs2 : Reg) (rm : Rm) (la : La) (s : State) : Host.Outcome State Fault Refusal :=
  finish 4 s (fpDivide rd rs1 rs2 rm la s)

/-- fsqrt.s (10 R235). -/
def execFsqrtS (rd rs1 : Reg) (rm : Rm) (la : La) (s : State) : Host.Outcome State Fault Refusal :=
  finish 4 s (fpSqrt rd rs1 rm la s)

end Sys2Proof.Machine

end
end

