-- ==== Sys2Proof/Machine/Scalar.lean ====
section
/-!
DEFINITION. Integer, bit-manipulation, divide and control-transfer instructions (10 R210 to R226).
-/

noncomputable section

namespace Sys2Proof.Machine

open Sys2Proof

/-- add (10 R212): the sum modulo 2^64. -/
def execAdd (rd rs1 rs2 : Reg) (s : State) : Host.Outcome State Fault Refusal :=
  finish 4 s (binary (fun a b => a + b) rd rs1 rs2 s)

/-- sll (10 R212): left shift by x[rs2][5:0]. -/
def execSll (rd rs1 rs2 : Reg) (s : State) : Host.Outcome State Fault Refusal :=
  finish 4 s (binary (fun a b => a <<< (b.toNat % 64)) rd rs1 rs2 s)

/-- slt (10 R212): signed less than. -/
def execSlt (rd rs1 rs2 : Reg) (s : State) : Host.Outcome State Fault Refusal :=
  finish 4 s (binary (fun a b => boolW (a.slt b)) rd rs1 rs2 s)

/-- sltu (10 R212): unsigned less than. -/
def execSltu (rd rs1 rs2 : Reg) (s : State) : Host.Outcome State Fault Refusal :=
  finish 4 s (binary (fun a b => boolW (a.ult b)) rd rs1 rs2 s)

/-- xor (10 R212). -/
def execXor (rd rs1 rs2 : Reg) (s : State) : Host.Outcome State Fault Refusal :=
  finish 4 s (binary (fun a b => a ^^^ b) rd rs1 rs2 s)

/-- srl (10 R212): logical right shift by x[rs2][5:0]. -/
def execSrl (rd rs1 rs2 : Reg) (s : State) : Host.Outcome State Fault Refusal :=
  finish 4 s (binary (fun a b => a >>> (b.toNat % 64)) rd rs1 rs2 s)

/-- or (10 R212). -/
def execOr (rd rs1 rs2 : Reg) (s : State) : Host.Outcome State Fault Refusal :=
  finish 4 s (binary (fun a b => a ||| b) rd rs1 rs2 s)

/-- and (10 R212). -/
def execAnd (rd rs1 rs2 : Reg) (s : State) : Host.Outcome State Fault Refusal :=
  finish 4 s (binary (fun a b => a &&& b) rd rs1 rs2 s)

/-- sub (10 R212): the difference modulo 2^64. -/
def execSub (rd rs1 rs2 : Reg) (s : State) : Host.Outcome State Fault Refusal :=
  finish 4 s (binary (fun a b => a - b) rd rs1 rs2 s)

/-- sra (10 R212): arithmetic right shift by x[rs2][5:0]. -/
def execSra (rd rs1 rs2 : Reg) (s : State) : Host.Outcome State Fault Refusal :=
  finish 4 s (binary (fun a b => a.sshiftRight (b.toNat % 64)) rd rs1 rs2 s)

/-- mul (10 R212): the low 64 bits of the product. -/
def execMul (rd rs1 rs2 : Reg) (s : State) : Host.Outcome State Fault Refusal :=
  finish 4 s (binary (fun a b => a * b) rd rs1 rs2 s)

/-- mulh (10 R212): bits 127 to 64 of signed by signed. -/
def execMulh (rd rs1 rs2 : Reg) (s : State) : Host.Outcome State Fault Refusal :=
  finish 4 s (binary (fun a b => BitVec.ofInt 64 (a.toInt * b.toInt / 2 ^ 64)) rd rs1 rs2 s)

/-- mulhsu (10 R212): bits 127 to 64 of signed by unsigned. -/
def execMulhsu (rd rs1 rs2 : Reg) (s : State) : Host.Outcome State Fault Refusal :=
  finish 4 s (binary (fun a b => BitVec.ofInt 64 (a.toInt * b.toNat / 2 ^ 64)) rd rs1 rs2 s)

/-- mulhu (10 R212): bits 127 to 64 of unsigned by unsigned. -/
def execMulhu (rd rs1 rs2 : Reg) (s : State) : Host.Outcome State Fault Refusal :=
  finish 4 s (binary (fun a b => wd (a.toNat * b.toNat / 2 ^ 64)) rd rs1 rs2 s)

/-- addw (10 R213): the 32-bit sum, sign-extended. -/
def execAddw (rd rs1 rs2 : Reg) (s : State) : Host.Outcome State Fault Refusal :=
  finish 4 s (binary (fun a b => sext32 (a.toNat + b.toNat)) rd rs1 rs2 s)

/-- subw (10 R213): the 32-bit difference, sign-extended. -/
def execSubw (rd rs1 rs2 : Reg) (s : State) : Host.Outcome State Fault Refusal :=
  finish 4 s (binary (fun a b => sext32 (a - b).toNat) rd rs1 rs2 s)

/-- sllw (10 R213). -/
def execSllw (rd rs1 rs2 : Reg) (s : State) : Host.Outcome State Fault Refusal :=
  finish 4 s (binary (fun a b => sext32 (a.toNat * 2 ^ (b.toNat % 32))) rd rs1 rs2 s)

/-- srlw (10 R213). -/
def execSrlw (rd rs1 rs2 : Reg) (s : State) : Host.Outcome State Fault Refusal :=
  finish 4 s (binary (fun a b => sext32 (a.toNat % 2 ^ 32 / 2 ^ (b.toNat % 32))) rd rs1 rs2 s)

/-- sraw (10 R213). -/
def execSraw (rd rs1 rs2 : Reg) (s : State) : Host.Outcome State Fault Refusal :=
  finish 4 s (binary (fun a b => BitVec.ofInt 64 (sx 32 a.toNat / (2 ^ (b.toNat % 32) : Nat))) rd rs1 rs2 s)

/-- mulw (10 R213): the low 32 bits of the product, sign-extended. -/
def execMulw (rd rs1 rs2 : Reg) (s : State) : Host.Outcome State Fault Refusal :=
  finish 4 s (binary (fun a b => sext32 (a.toNat * b.toNat)) rd rs1 rs2 s)

/-- addi (10 R214). -/
def execAddi (rd rs1 : Reg) (imm : Int) (s : State) : Host.Outcome State Fault Refusal :=
  finish 4 s (unary (fun a => a + immW imm) rd rs1 s)

/-- slti (10 R214): signed less than the immediate. -/
def execSlti (rd rs1 : Reg) (imm : Int) (s : State) : Host.Outcome State Fault Refusal :=
  finish 4 s (unary (fun a => boolW (a.slt (immW imm))) rd rs1 s)

/-- sltiu (10 R214): unsigned less than the immediate as a dword. -/
def execSltiu (rd rs1 : Reg) (imm : Int) (s : State) : Host.Outcome State Fault Refusal :=
  finish 4 s (unary (fun a => boolW (a.ult (immW imm))) rd rs1 s)

/-- xori (10 R214). -/
def execXori (rd rs1 : Reg) (imm : Int) (s : State) : Host.Outcome State Fault Refusal :=
  finish 4 s (unary (fun a => a ^^^ immW imm) rd rs1 s)

/-- ori (10 R214). -/
def execOri (rd rs1 : Reg) (imm : Int) (s : State) : Host.Outcome State Fault Refusal :=
  finish 4 s (unary (fun a => a ||| immW imm) rd rs1 s)

/-- andi (10 R214). -/
def execAndi (rd rs1 : Reg) (imm : Int) (s : State) : Host.Outcome State Fault Refusal :=
  finish 4 s (unary (fun a => a &&& immW imm) rd rs1 s)

/-- addiw (10 R215): lo32 plus the immediate, sign-extended. -/
def execAddiw (rd rs1 : Reg) (imm : Int) (s : State) : Host.Outcome State Fault Refusal :=
  finish 4 s (unary (fun a => sext32 (a + immW imm).toNat) rd rs1 s)

/-- slli (10 R214). -/
def execSlli (rd rs1 : Reg) (sh : Fin 64) (s : State) : Host.Outcome State Fault Refusal :=
  finish 4 s (unary (fun a => a <<< sh.val) rd rs1 s)

/-- srli (10 R214). -/
def execSrli (rd rs1 : Reg) (sh : Fin 64) (s : State) : Host.Outcome State Fault Refusal :=
  finish 4 s (unary (fun a => a >>> sh.val) rd rs1 s)

/-- srai (10 R214). -/
def execSrai (rd rs1 : Reg) (sh : Fin 64) (s : State) : Host.Outcome State Fault Refusal :=
  finish 4 s (unary (fun a => a.sshiftRight sh.val) rd rs1 s)

/-- slliw (10 R215). -/
def execSlliw (rd rs1 : Reg) (sh : Fin 32) (s : State) : Host.Outcome State Fault Refusal :=
  finish 4 s (unary (fun a => sext32 (a.toNat * 2 ^ sh.val)) rd rs1 s)

/-- srliw (10 R215). -/
def execSrliw (rd rs1 : Reg) (sh : Fin 32) (s : State) : Host.Outcome State Fault Refusal :=
  finish 4 s (unary (fun a => sext32 (a.toNat % 2 ^ 32 / 2 ^ sh.val)) rd rs1 s)

/-- sraiw (10 R215). -/
def execSraiw (rd rs1 : Reg) (sh : Fin 32) (s : State) : Host.Outcome State Fault Refusal :=
  finish 4 s (unary (fun a => BitVec.ofInt 64 (sx 32 a.toNat / (2 ^ sh.val : Nat))) rd rs1 s)

/-- rori (10 R218): rotate right. -/
def execRori (rd rs1 : Reg) (sh : Fin 64) (s : State) : Host.Outcome State Fault Refusal :=
  finish 4 s (unary (fun a => a.rotateRight sh.val) rd rs1 s)

/-- modp (10 R222): x[rs1] modulo c, the field holding c - 1. -/
def execModp (rd rs1 : Reg) (c : Fin 64) (s : State) : Host.Outcome State Fault Refusal :=
  finish 4 s (unary (fun a => wd (a.toNat % (c.val + 1))) rd rs1 s)

/-- lui (10 R216): sext(imm20 << 12). -/
def execLui (rd : Reg) (imm : Fin 1048576) (s : State) : Host.Outcome State Fault Refusal :=
  finish 4 s (writeX rd (sext32 (imm.val * 2 ^ 12)) s)

/-- auipc (10 R216): the pc plus sext(imm20 << 12). -/
def execAuipc (rd : Reg) (imm : Fin 1048576) (s : State) : Host.Outcome State Fault Refusal :=
  finish 4 s (writeX rd (pcOf s + sext32 (imm.val * 2 ^ 12)) s)

/-- Signed division (10 R217): the quotient, or the remainder with the sign of the dividend; by zero the quotient is all ones
and the remainder the dividend; the most negative number by -1 gives itself and 0. -/
def divS (w : Nat) (q : Bool) (a b : Word) : Word :=
  let n := sx w a.toNat
  let m := sx w b.toNat
  if m = 0 then (if q then BitVec.ofInt 64 (-1) else BitVec.ofInt 64 n)
  else if n = -(2 ^ (w - 1) : Nat) ∧ m = -1 then (if q then BitVec.ofInt 64 n else 0)
  else BitVec.ofInt 64 (if q then n.tdiv m else n.tmod m)

/-- Unsigned division of w-bit operands (10 R217); the 32-bit result is sign-extended. -/
def divU (w : Nat) (q : Bool) (a b : Word) : Word :=
  let n := a.toNat % 2 ^ w
  let m := b.toNat % 2 ^ w
  let r := if m = 0 then (if q then 2 ^ w - 1 else n) else if q then n / m else n % m
  BitVec.ofInt 64 (sx w r)

/-- div (10 R217). -/
def execDiv (rd rs1 rs2 : Reg) (la : La) (s : State) : Host.Outcome State Fault Refusal :=
  finish 4 s (longBinary (divS 64 true) rd rs1 rs2 la s)

/-- divu (10 R217). -/
def execDivu (rd rs1 rs2 : Reg) (la : La) (s : State) : Host.Outcome State Fault Refusal :=
  finish 4 s (longBinary (divU 64 true) rd rs1 rs2 la s)

/-- rem (10 R217). -/
def execRem (rd rs1 rs2 : Reg) (la : La) (s : State) : Host.Outcome State Fault Refusal :=
  finish 4 s (longBinary (divS 64 false) rd rs1 rs2 la s)

/-- remu (10 R217). -/
def execRemu (rd rs1 rs2 : Reg) (la : La) (s : State) : Host.Outcome State Fault Refusal :=
  finish 4 s (longBinary (divU 64 false) rd rs1 rs2 la s)

/-- divw (10 R217). -/
def execDivw (rd rs1 rs2 : Reg) (la : La) (s : State) : Host.Outcome State Fault Refusal :=
  finish 4 s (longBinary (divS 32 true) rd rs1 rs2 la s)

/-- divuw (10 R217). -/
def execDivuw (rd rs1 rs2 : Reg) (la : La) (s : State) : Host.Outcome State Fault Refusal :=
  finish 4 s (longBinary (divU 32 true) rd rs1 rs2 la s)

/-- remw (10 R217). -/
def execRemw (rd rs1 rs2 : Reg) (la : La) (s : State) : Host.Outcome State Fault Refusal :=
  finish 4 s (longBinary (divS 32 false) rd rs1 rs2 la s)

/-- remuw (10 R217). -/
def execRemuw (rd rs1 rs2 : Reg) (la : La) (s : State) : Host.Outcome State Fault Refusal :=
  finish 4 s (longBinary (divU 32 false) rd rs1 rs2 la s)

/-- andn (10 R218). -/
def execAndn (rd rs1 rs2 : Reg) (s : State) : Host.Outcome State Fault Refusal :=
  finish 4 s (binary (fun a b => a &&& ~~~b) rd rs1 rs2 s)

/-- orn (10 R218). -/
def execOrn (rd rs1 rs2 : Reg) (s : State) : Host.Outcome State Fault Refusal :=
  finish 4 s (binary (fun a b => a ||| ~~~b) rd rs1 rs2 s)

/-- min (10 R218): signed. -/
def execMin (rd rs1 rs2 : Reg) (s : State) : Host.Outcome State Fault Refusal :=
  finish 4 s (binary (fun a b => if a.slt b then a else b) rd rs1 rs2 s)

/-- max (10 R218): signed. -/
def execMax (rd rs1 rs2 : Reg) (s : State) : Host.Outcome State Fault Refusal :=
  finish 4 s (binary (fun a b => if a.slt b then b else a) rd rs1 rs2 s)

/-- minu (10 R218): unsigned. -/
def execMinu (rd rs1 rs2 : Reg) (s : State) : Host.Outcome State Fault Refusal :=
  finish 4 s (binary (fun a b => if a.ult b then a else b) rd rs1 rs2 s)

/-- maxu (10 R218): unsigned. -/
def execMaxu (rd rs1 rs2 : Reg) (s : State) : Host.Outcome State Fault Refusal :=
  finish 4 s (binary (fun a b => if a.ult b then b else a) rd rs1 rs2 s)

/-- rol (10 R218): rotate left by x[rs2][5:0]. -/
def execRol (rd rs1 rs2 : Reg) (s : State) : Host.Outcome State Fault Refusal :=
  finish 4 s (binary (fun a b => a.rotateLeft (b.toNat % 64)) rd rs1 rs2 s)

/-- ror (10 R218): rotate right by x[rs2][5:0]. -/
def execRor (rd rs1 rs2 : Reg) (s : State) : Host.Outcome State Fault Refusal :=
  finish 4 s (binary (fun a b => a.rotateRight (b.toNat % 64)) rd rs1 rs2 s)

/-- The carry-less product of the low k bits of b with a (10 R220). -/
def clProd (a b : Nat) : Nat → Nat
  | 0 => 0
  | k + 1 => clProd a b k ^^^ (if bit b k then a * 2 ^ k else 0)

/-- Gathers the bits of a where the mask m holds 1, over k positions from i, to place p (10 R221). -/
def bextGo (a m : Nat) : Nat → Nat → Nat → Nat
  | 0, _, _ => 0
  | k + 1, i, p => if bit m i then b2n (bit a i) * 2 ^ p + bextGo a m k (i + 1) (p + 1) else bextGo a m k (i + 1) p

/-- Deposits the low bits of a where the mask m holds 1 (10 R221). -/
def bdepGo (a m : Nat) : Nat → Nat → Nat → Nat
  | 0, _, _ => 0
  | k + 1, i, p => if bit m i then b2n (bit a p) * 2 ^ i + bdepGo a m k (i + 1) (p + 1) else bdepGo a m k (i + 1) p

/-- Number of trailing zeros over k positions (10 R219). -/
def ctzGo (a : Nat) : Nat → Nat → Nat
  | 0, i => i
  | k + 1, i => if bit a i then i else ctzGo a k (i + 1)

/-- Leading zeros of a dword (10 R219). -/
def clz64 (n : Nat) : Nat := if n = 0 then 64 else 63 - Nat.log2 n

/-- Bit reversal of the low k bits (10 R219). -/
def brevGo (a : Nat) : Nat → Nat
  | 0 => 0
  | k + 1 => b2n (bit a k) * 2 ^ (63 - k) + brevGo a k

/-- Byte reversal of the low k bytes (10 R219). -/
def bswapGo (a : Nat) : Nat → Nat
  | 0 => 0
  | k + 1 => a / 256 ^ k % 256 * 256 ^ (7 - k) + bswapGo a k

/-- clmul (10 R220): P[63:0]. -/
def execClmul (rd rs1 rs2 : Reg) (s : State) : Host.Outcome State Fault Refusal :=
  finish 4 s (binary (fun a b => wd (clProd a.toNat b.toNat 64)) rd rs1 rs2 s)

/-- clmulh (10 R220): P[127:64]. -/
def execClmulh (rd rs1 rs2 : Reg) (s : State) : Host.Outcome State Fault Refusal :=
  finish 4 s (binary (fun a b => wd (clProd a.toNat b.toNat 64 / 2 ^ 64)) rd rs1 rs2 s)

/-- clmulr (10 R220): P[126:63]. -/
def execClmulr (rd rs1 rs2 : Reg) (s : State) : Host.Outcome State Fault Refusal :=
  finish 4 s (binary (fun a b => wd (clProd a.toNat b.toNat 64 / 2 ^ 63)) rd rs1 rs2 s)

/-- bext (10 R221). -/
def execBext (rd rs1 rs2 : Reg) (s : State) : Host.Outcome State Fault Refusal :=
  finish 4 s (binary (fun a b => wd (bextGo a.toNat b.toNat 64 0 0)) rd rs1 rs2 s)

/-- bdep (10 R221). -/
def execBdep (rd rs1 rs2 : Reg) (s : State) : Host.Outcome State Fault Refusal :=
  finish 4 s (binary (fun a b => wd (bdepGo a.toNat b.toNat 64 0 0)) rd rs1 rs2 s)

/-- clz (10 R219). -/
def execClz (rd rs1 : Reg) (s : State) : Host.Outcome State Fault Refusal :=
  finish 4 s (unary (fun a => wd (clz64 a.toNat)) rd rs1 s)

/-- ctz (10 R219): 64 for 0. -/
def execCtz (rd rs1 : Reg) (s : State) : Host.Outcome State Fault Refusal :=
  finish 4 s (unary (fun a => wd (ctzGo a.toNat 64 0)) rd rs1 s)

/-- popc (10 R219). -/
def execPopc (rd rs1 : Reg) (s : State) : Host.Outcome State Fault Refusal :=
  finish 4 s (unary (fun a => wd (popc 64 a.toNat)) rd rs1 s)

/-- brev (10 R219). -/
def execBrev (rd rs1 : Reg) (s : State) : Host.Outcome State Fault Refusal :=
  finish 4 s (unary (fun a => wd (brevGo a.toNat 64)) rd rs1 s)

/-- bswap (10 R219). -/
def execBswap (rd rs1 : Reg) (s : State) : Host.Outcome State Fault Refusal :=
  finish 4 s (unary (fun a => wd (bswapGo a.toNat 8)) rd rs1 s)

/-- sext.b (10 R219). -/
def execSextB (rd rs1 : Reg) (s : State) : Host.Outcome State Fault Refusal :=
  finish 4 s (unary (fun a => BitVec.ofInt 64 (sx 8 a.toNat)) rd rs1 s)

/-- sext.h (10 R219). -/
def execSextH (rd rs1 : Reg) (s : State) : Host.Outcome State Fault Refusal :=
  finish 4 s (unary (fun a => BitVec.ofInt 64 (sx 16 a.toNat)) rd rs1 s)

/-- sext.w (10 R219). -/
def execSextW (rd rs1 : Reg) (s : State) : Host.Outcome State Fault Refusal :=
  finish 4 s (unary (fun a => sext32 a.toNat) rd rs1 s)

/-- zext.b (10 R219). -/
def execZextB (rd rs1 : Reg) (s : State) : Host.Outcome State Fault Refusal :=
  finish 4 s (unary (fun a => wd (a.toNat % 2 ^ 8)) rd rs1 s)

/-- zext.h (10 R219). -/
def execZextH (rd rs1 : Reg) (s : State) : Host.Outcome State Fault Refusal :=
  finish 4 s (unary (fun a => wd (a.toNat % 2 ^ 16)) rd rs1 s)

/-- zext.w (10 R219). -/
def execZextW (rd rs1 : Reg) (s : State) : Host.Outcome State Fault Refusal :=
  finish 4 s (unary (fun a => wd (a.toNat % 2 ^ 32)) rd rs1 s)

/-- A conditional branch (10 R223; 09 R187): to pc + 4 * off when taken, else to pc + 4. -/
def branch (taken : Word → Word → Bool) (rs1 rs2 : Reg) (off : Int) (s : State) : Except Exc State := do
  let a ← readPlain rs1 s
  let b ← readPlain rs2 s
  pure (setPc (if taken a b then pcOf s + immW (4 * off) else pcOf s + 4) s)

/-- A register jump (10 R225, R226): a target that is no multiple of 4 faults with alignment on the jump itself. -/
def jumpTo (rd : Reg) (target : Word) (s : State) : Except Exc State :=
  if target.toNat % 4 ≠ 0 then .error (.trap 0x201 target)
  else do
    let t ← writeX rd (pcOf s + 4) s
    pure (setPc target t)

/-- beq (10 R223). -/
def execBeq (rs1 rs2 : Reg) (off : Int) (s : State) : Host.Outcome State Fault Refusal :=
  finish 0 s (branch (fun a b => a == b) rs1 rs2 off s)

/-- bne (10 R223). -/
def execBne (rs1 rs2 : Reg) (off : Int) (s : State) : Host.Outcome State Fault Refusal :=
  finish 0 s (branch (fun a b => a != b) rs1 rs2 off s)

/-- bbs (10 R223): bit x[rs2][5:0] of x[rs1] is 1. -/
def execBbs (rs1 rs2 : Reg) (off : Int) (s : State) : Host.Outcome State Fault Refusal :=
  finish 0 s (branch (fun a b => bit a.toNat (b.toNat % 64)) rs1 rs2 off s)

/-- bbc (10 R223): bit x[rs2][5:0] of x[rs1] is 0. -/
def execBbc (rs1 rs2 : Reg) (off : Int) (s : State) : Host.Outcome State Fault Refusal :=
  finish 0 s (branch (fun a b => !(bit a.toNat (b.toNat % 64))) rs1 rs2 off s)

/-- blt (10 R223): signed. -/
def execBlt (rs1 rs2 : Reg) (off : Int) (s : State) : Host.Outcome State Fault Refusal :=
  finish 0 s (branch (fun a b => a.slt b) rs1 rs2 off s)

/-- bge (10 R223): signed. -/
def execBge (rs1 rs2 : Reg) (off : Int) (s : State) : Host.Outcome State Fault Refusal :=
  finish 0 s (branch (fun a b => !(a.slt b)) rs1 rs2 off s)

/-- bltu (10 R223). -/
def execBltu (rs1 rs2 : Reg) (off : Int) (s : State) : Host.Outcome State Fault Refusal :=
  finish 0 s (branch (fun a b => a.ult b) rs1 rs2 off s)

/-- bgeu (10 R223). -/
def execBgeu (rs1 rs2 : Reg) (off : Int) (s : State) : Host.Outcome State Fault Refusal :=
  finish 0 s (branch (fun a b => !(a.ult b)) rs1 rs2 off s)

/-- jal (10 R224; 09 R187): pc + 4 to rd, and pc + 4 * off. -/
def execJal (rd : Reg) (off : Int) (s : State) : Host.Outcome State Fault Refusal :=
  finish 0 s (writeX rd (pcOf s + 4) s |>.map (setPc (pcOf s + immW (4 * off))))

/-- jalr (10 R225): to x[rs1] plus the immediate. -/
def execJalr (rd rs1 : Reg) (imm : Int) (s : State) : Host.Outcome State Fault Refusal :=
  finish 0 s (do let a ← readPlain rs1 s; jumpTo rd (a + immW imm) s)

/-- jalp (10 R225): to pc + x[rs1], modulo 2^64. -/
def execJalp (rd rs1 : Reg) (s : State) : Host.Outcome State Fault Refusal :=
  finish 0 s (do let a ← readPlain rs1 s; jumpTo rd (pcOf s + a) s)

end Sys2Proof.Machine

end
end

