-- ==== Sys2Proof/Machine/System.lean ====
section
/-!
DEFINITION. Supervisor calls, breakpoints, halting and returning from a trap (10 R239 to R242; 18 R416, R421 to R423).
-/

noncomputable section

namespace Sys2Proof.Machine

open Sys2Proof

/-- What a long-latency instruction does with a window of la instructions, without completing (09 R197; 18 R423); none for
any other instruction. -/
def longBody (i : Instr) (la : La) : Option (State → Except Exc State) :=
  match i with
  | .div rd rs1 rs2 _ => some (fun t => longBinary (divS 64 true) rd rs1 rs2 la t)
  | .divu rd rs1 rs2 _ => some (fun t => longBinary (divU 64 true) rd rs1 rs2 la t)
  | .rem rd rs1 rs2 _ => some (fun t => longBinary (divS 64 false) rd rs1 rs2 la t)
  | .remu rd rs1 rs2 _ => some (fun t => longBinary (divU 64 false) rd rs1 rs2 la t)
  | .divw rd rs1 rs2 _ => some (fun t => longBinary (divS 32 true) rd rs1 rs2 la t)
  | .divuw rd rs1 rs2 _ => some (fun t => longBinary (divU 32 true) rd rs1 rs2 la t)
  | .remw rd rs1 rs2 _ => some (fun t => longBinary (divS 32 false) rd rs1 rs2 la t)
  | .remuw rd rs1 rs2 _ => some (fun t => longBinary (divU 32 false) rd rs1 rs2 la t)
  | .fdivS rd rs1 rs2 rm _ => some (fun t => fpDivide rd rs1 rs2 rm la t)
  | .fsqrtS rd rs1 rm _ => some (fun t => fpSqrt rd rs1 rm la t)
  | .lb rd rs1 imm _ => some (fun t => loadBody rd rs1 (1 * imm) 1 (sextB 8) none la.val t)
  | .lh rd rs1 imm _ => some (fun t => loadBody rd rs1 (2 * imm) 2 (sextB 16) none la.val t)
  | .lw rd rs1 imm _ => some (fun t => loadBody rd rs1 (4 * imm) 4 (sextB 32) none la.val t)
  | .ld rd rs1 imm _ => some (fun t => loadBody rd rs1 (8 * imm) 8 wd none la.val t)
  | .lbu rd rs1 imm _ => some (fun t => loadBody rd rs1 (1 * imm) 1 wd none la.val t)
  | .lhu rd rs1 imm _ => some (fun t => loadBody rd rs1 (2 * imm) 2 wd none la.val t)
  | .lwu rd rs1 imm _ => some (fun t => loadBody rd rs1 (4 * imm) 4 wd none la.val t)
  | .loadAcquire rd rs1 size sc _ => some (fun t => loadBody rd rs1 0 (sizeOf size.val).1 (sizeOf size.val).2 (some sc) la.val t)
  | .ldfE rd rs1 imm _ => some (fun t => ldfBody true rd rs1 imm la.val t)
  | .ldfF rd rs1 imm _ => some (fun t => ldfBody false rd rs1 imm la.val t)
  | .amoswap rd rs1 dbl aq rl sc _ => some (fun t => amoBody 0 rd rs1 dbl aq rl sc la.val t)
  | .amoadd rd rs1 dbl aq rl sc _ => some (fun t => amoBody 1 rd rs1 dbl aq rl sc la.val t)
  | .amoand rd rs1 dbl aq rl sc _ => some (fun t => amoBody 2 rd rs1 dbl aq rl sc la.val t)
  | .amoor rd rs1 dbl aq rl sc _ => some (fun t => amoBody 3 rd rs1 dbl aq rl sc la.val t)
  | .amoxor rd rs1 dbl aq rl sc _ => some (fun t => amoBody 4 rd rs1 dbl aq rl sc la.val t)
  | .amomin rd rs1 dbl aq rl sc _ => some (fun t => amoBody 5 rd rs1 dbl aq rl sc la.val t)
  | .amomax rd rs1 dbl aq rl sc _ => some (fun t => amoBody 6 rd rs1 dbl aq rl sc la.val t)
  | .amominu rd rs1 dbl aq rl sc _ => some (fun t => amoBody 7 rd rs1 dbl aq rl sc la.val t)
  | .amomaxu rd rs1 dbl aq rl sc _ => some (fun t => amoBody 8 rd rs1 dbl aq rl sc la.val t)
  | .amofadd rd rs1 aq rl sc _ => some (fun t => amoBody 9 rd rs1 false aq rl sc la.val t)
  | .amocas rd rs1 dbl aq rl sc _ => some (fun t => amoBody 10 rd rs1 dbl aq rl sc la.val t)
  | .lr rd rs1 dbl aq sc _ => some (fun t => amoBody 11 rd rs1 dbl aq false sc la.val t)
  | .sc rd rs1 dbl rl sc _ => some (fun t => amoBody 12 rd rs1 dbl false rl sc la.val t)
  | .vfdivF32 vd vs1 vs2 _ pfx => some (fun t => fltLong (.vfdivF32 vd vs1 vs2 la pfx) divNum .f32 vd vs1 (some vs2) la pfx t)
  | .vfsqrtF32 vd vs1 _ pfx => some (fun t => fltLong (.vfsqrtF32 vd vs1 la pfx) (fun a _ => (sqrtNum a, false)) .f32 vd vs1 none la pfx t)
  | .vfdivBf16 vd vs1 vs2 _ pfx => some (fun t => fltLong (.vfdivBf16 vd vs1 vs2 la pfx) divNum .bf16 vd vs1 (some vs2) la pfx t)
  | .vfsqrtBf16 vd vs1 _ pfx => some (fun t => fltLong (.vfsqrtBf16 vd vs1 la pfx) (fun a _ => (sqrtNum a, false)) .bf16 vd vs1 none la pfx t)
  | .vfdivF16 vd vs1 vs2 _ pfx => some (fun t => fltLong (.vfdivF16 vd vs1 vs2 la pfx) divNum .f16 vd vs1 (some vs2) la pfx t)
  | .vfsqrtF16 vd vs1 _ pfx => some (fun t => fltLong (.vfsqrtF16 vd vs1 la pfx) (fun a _ => (sqrtNum a, false)) .f16 vd vs1 none la pfx t)
  | .vexp2 vd vs1 _ pfx => some (fun t => specialBody (.vexp2 vd vs1 la pfx) spExp2 vd vs1 la pfx t)
  | .vlog2 vd vs1 _ pfx => some (fun t => specialBody (.vlog2 vd vs1 la pfx) spLog2 vd vs1 la pfx t)
  | .vrcp vd vs1 _ pfx => some (fun t => specialBody (.vrcp vd vs1 la pfx) spRcp vd vs1 la pfx t)
  | .vrsqrt vd vs1 _ pfx => some (fun t => specialBody (.vrsqrt vd vs1 la pfx) spRsqrt vd vs1 la pfx t)
  | .vsqrt vd vs1 _ pfx => some (fun t => specialBody (.vsqrt vd vs1 la pfx) spSqrt vd vs1 la pfx t)
  | .vtanh vd vs1 _ pfx => some (fun t => specialBody (.vtanh vd vs1 la pfx) spTanh vd vs1 la pfx t)
  | .vsin vd vs1 _ pfx => some (fun t => specialBody (.vsin vd vs1 la pfx) (spTrig false) vd vs1 la pfx t)
  | .vcos vd vs1 _ pfx => some (fun t => specialBody (.vcos vd vs1 la pfx) (spTrig true) vd vs1 la pfx t)
  | .vld vd rs1 imm _ pfx => some (fun t => tileLoad vd rs1 (fun t => .ok (.block (32 * imm), t)) la pfx t)
  | .vldb vd rs1 imm _ pfx => some (fun t => tileLoad vd rs1 (fun t => .ok (.rows (32 * imm), t)) la pfx t)
  | .vlds vd rs1 rs2 _ pfx => some (fun t => tileLoad vd rs1 (strideAdr rs2) la pfx t)
  | .vldg vd rs1 vs2 _ pfx => some (fun t => tileLoad vd rs1 (indexAdr vs2) la pfx t)
  | _ => none

/-- Whether an instruction is long-latency (09 R197). Log 22, DESIGN CHOICE, unsafe. -/
def isLong (i : Instr) : Bool := (longBody i 0).isSome

/-- The pending scalar and tile destinations of a long-latency instruction (09 R197). -/
def longDest (i : Instr) : List Nat × List Nat :=
  match i with
  | .div rd _ _ _ => (destX rd, [])
  | .divu rd _ _ _ => (destX rd, [])
  | .rem rd _ _ _ => (destX rd, [])
  | .remu rd _ _ _ => (destX rd, [])
  | .divw rd _ _ _ => (destX rd, [])
  | .divuw rd _ _ _ => (destX rd, [])
  | .remw rd _ _ _ => (destX rd, [])
  | .remuw rd _ _ _ => (destX rd, [])
  | .fdivS rd _ _ _ _ => (destX rd, [])
  | .fsqrtS rd _ _ _ => (destX rd, [])
  | .lb rd _ _ _ => (destX rd, [])
  | .lh rd _ _ _ => (destX rd, [])
  | .lw rd _ _ _ => (destX rd, [])
  | .ld rd _ _ _ => (destX rd, [])
  | .lbu rd _ _ _ => (destX rd, [])
  | .lhu rd _ _ _ => (destX rd, [])
  | .lwu rd _ _ _ => (destX rd, [])
  | .loadAcquire rd _ _ _ _ => (destX rd, [])
  | .ldfE rd _ _ _ => (destX rd, [])
  | .ldfF rd _ _ _ => (destX rd, [])
  | .amoswap rd _ _ _ _ _ _ => (destX rd, [])
  | .amoadd rd _ _ _ _ _ _ => (destX rd, [])
  | .amoand rd _ _ _ _ _ _ => (destX rd, [])
  | .amoor rd _ _ _ _ _ _ => (destX rd, [])
  | .amoxor rd _ _ _ _ _ _ => (destX rd, [])
  | .amomin rd _ _ _ _ _ _ => (destX rd, [])
  | .amomax rd _ _ _ _ _ _ => (destX rd, [])
  | .amominu rd _ _ _ _ _ _ => (destX rd, [])
  | .amomaxu rd _ _ _ _ _ _ => (destX rd, [])
  | .amofadd rd _ _ _ _ _ => (destX rd, [])
  | .amocas rd _ _ _ _ _ _ => (if rd.val = 0 then [] else [rd.val, rd.val + 1], [])
  | .lr rd _ _ _ _ _ => (destX rd, [])
  | .sc rd _ _ _ _ _ => (destX rd, [])
  | .vfdivF32 vd _ _ _ _ => ([], [vd.val])
  | .vfsqrtF32 vd _ _ _ => ([], [vd.val])
  | .vfdivBf16 vd _ _ _ _ => ([], [vd.val])
  | .vfsqrtBf16 vd _ _ _ => ([], [vd.val])
  | .vfdivF16 vd _ _ _ _ => ([], [vd.val])
  | .vfsqrtF16 vd _ _ _ => ([], [vd.val])
  | .vexp2 vd _ _ _ => ([], [vd.val])
  | .vlog2 vd _ _ _ => ([], [vd.val])
  | .vrcp vd _ _ _ => ([], [vd.val])
  | .vrsqrt vd _ _ _ => ([], [vd.val])
  | .vsqrt vd _ _ _ => ([], [vd.val])
  | .vtanh vd _ _ _ => ([], [vd.val])
  | .vsin vd _ _ _ => ([], [vd.val])
  | .vcos vd _ _ _ => ([], [vd.val])
  | .vld vd _ _ _ _ => ([], [vd.val])
  | .vldb vd _ _ _ _ => ([], [vd.val])
  | .vlds vd _ _ _ _ => ([], [vd.val])
  | .vldg vd _ _ _ _ => ([], [vd.val])
  | _ => ([], [])

/-! Taking a trap that the instruction itself raises. -/

/-- Whether an open window still awaits an answer of the fabric, for which a trap waits (18 R422). -/
def windowAway (x : CoreSt) : Bool := x.windows.any (fun w => match w.st with | .waitTxn _ => true | _ => false)

/-- trap and brk complete, so they count in the open windows, and take their trap with EPC at themselves (18 R414, R422; 10
R240). A fault that a window carries is taken in their place. -/
def trapSelf (cause : Nat) (s : State) : State :=
  let x := me s
  if trapWaits x then setStall s.cur 12 0 s
  else if (windowFault x).isSome then takeTrap s.cur cause 0 x.pc s
  else takeTrap s.cur cause 0 x.pc (modCore s.cur (retireCore (!(isSup x)) 0) (clearStall s.cur s))

/-- trap (10 R240): a supervisor call, class 11. -/
def execTrap (imm : Fin 256) (s : State) : Host.Outcome State Fault Refusal := .next (trapSelf (0xB00 + imm.val) s)

/-- brk (10 R240): class 10, detail 0x01. -/
def execBrk (s : State) : Host.Outcome State Fault Refusal := .next (trapSelf 0xA01 s)

/-- halt (10 R242): the windows have their results, the combining buffer drains, and the core is halted after it. -/
def haltBody (s : State) : Except Exc State :=
  if isSup (me s) = false then illegal 0x07 .halt
  else do
    let t ← windowsDone s.cur s
    pure (setRun s.cur .halted (drainAll s.cur t))

/-- halt (10 R242). -/
def execHalt (s : State) : Host.Outcome State Fault Refusal := finish 4 s (haltBody s)

/-! Returning from a trap. -/

/-- STATUS after step 1 of eret (18 R416). -/
def eretStatus (st : Word) : Word :=
  let v := st.toNat
  wd (v / 32 * 32 + b2n (bit v 3) * 8 + b2n (bit v 3) * 4 + b2n (bit v 1) * 2 + b2n (bit v 1))

/-- The address of the instruction a record names (18 R421). -/
def lawPc (r : Nat) : Word := BitVec.ofInt 64 (sx 57 (r % 2 ^ 55 * 4))

/-- What reopening the windows came to: all of it is done, a record fails, or it waits, with the records that are left. -/
inductive Reopened where
  | done (s : State)
  | fail (cause : Nat) (tval : Word) (more : List Word) (s : State)
  | wait (more : List Word) (s : State)

/-- Counts one instruction off the windows from the k-th on. -/
def countOff (k : Nat) (x : CoreSt) : CoreSt :=
  { x with windows := x.windows.zipIdx.map (fun e => if k ≤ e.2 then { e.1 with remain := e.1.remain - 1 } else e.1) }

/-- Reopens the windows of a list of records (18 R423), each with the instructions its record still counts. A record whose
word is no long-latency instruction is dropped (log 22). Log 61, DEDUCED, unsafe. -/
def reopen (c : Nat) : List Word → State → Reopened
  | [], s => .done s
  | r :: rest, s =>
    let n := r.toNat
    if bit n 63 = false then reopen c rest s
    else
      let pcw := lawPc n
      let remain := bits n 61 58
      match fetchInstr c pcw.toNat s with
      | .error (.fetch k v) => .fail k v (r :: rest) s
      | .error (.bad d v) => if bit n 62 then .fail d v (r :: rest) s else reopen c rest s
      | .error (.wait t) => .wait (r :: rest) (setStall c 12 0 t)
      | .ok (i, _, t) =>
        if bit n 62 then
          match longBody i (Fin.ofNat 16 remain) with
          | none => reopen c rest t
          | some f =>
            let x := coreOf t c
            let back (u : State) : State := modCore c (fun y => { y with pc := x.pc, migcfg := x.migcfg }) u
            match f (setCore c { x with pc := pcw, migcfg := 0 } t) with
            | .ok u => reopen c rest (modCore c (countOff x.windows.length) (back u))
            | .error (.trap k v) => .fail k v (r :: rest) t
            | .error (.stall what v lost) => .wait (r :: rest) (setStallAs c what v lost t)
            | .error (.leave u) => .wait (r :: rest) (back u)
        else if (longBody i 0).isNone then reopen c rest t
        else
          let d := longDest i
          let w : Window :=
            { pcw := pcw.toNat, remain := remain, dx := d.1, dv := d.2, st := .arrived, xval := [], tval := [], flags := 0, txns := [] }
          reopen c rest (modCore c (fun y => { y with windows := y.windows ++ [w] }) t)

/-- What is left of eret once its windows are open again (18 R416, R418): with IDLE the core returns to its pick order, and
with ARRIVED a bar at its address goes on as barw. -/
def eretEnd (c : Nat) (s : State) : State :=
  let x := coreOf s c
  let u := modCore c (fun y => { y with ereting := false }) s
  if bit x.status.toNat 6 then
    modCore c (fun y =>
      { y with status := setBits y.status 6 6 0, haveTask := false, picking := true, stall := none, since := s.time
               run := if y.member = none then .idle else .reserved }) u
  else if bit x.status.toNat 7 then
    match fetchInstr c x.pc.toNat u with
    | .ok (.bar _, _, v) => modCore c (fun y => { y with status := setBits y.status 7 7 0, barArrived := true }) v
    | _ => u
  else u

/-- Core c reopens the windows whose records are left (18 R423): where it must wait it goes on later, and a fault leaves the
failing record and those after it in LAW behind the windows that are open. Log 61, DEDUCED, unsafe. -/
def reopenGo (c : Nat) (s : State) : State :=
  let x := coreOf s c
  let back (t : State) : State := { t with cur := s.cur }
  match reopen c x.redo { s with cur := c } with
  | .done t =>
    let u := modCore c (fun y => closeWins { y with redo := [], rpWait := false }) (clearStall c (back t))
    if x.ereting then eretEnd c u else u
  | .fail k v more t => takeTrap c k v x.pc (modCore c (fun y => { y with redo := more }) (clearStall c (back t)))
  | .wait more t => modCore c (fun y => { y with redo := more }) (back t)

/-- eret (18 R416, R423; 10 R241). It counts in the handler's own open windows, and in none that it reopens (R422). Log 22,
DESIGN CHOICE, unsafe; log 61, DEDUCED, unsafe. -/
def eretGo (s : State) : State :=
  let c := s.cur
  let x := me s
  reopenGo c (modCore c (fun y =>
    putLaws [] (closeWins (countOff 0
      { y with status := eretStatus y.status, pc := x.epc, resv := none, redo := [x.law0, x.law1, x.law2, x.law3], ereting := true }))) s)

/-- eret (18 R416): supervisor only. -/
def execEret (s : State) : Host.Outcome State Fault Refusal :=
  if isSup (me s) = false then finish 4 s (illegal 0x07 .eret) else .next (eretGo s)

end Sys2Proof.Machine

end
end

