-- ==== Sys2Proof/Machine/Graph.lean ====
section
/-!
DEFINITION. The dependence graph's decrements (15 R347, R352) and route tags: handler tasks, actions, firing and messages at
their target (08 R175 to R178; 16 R383 to R385).
-/

noncomputable section

namespace Sys2Proof.Machine

open Sys2Proof

/-- Replaces a node. -/
def putNode (cl id : Nat) (n : Node) (s : State) : State := modCluster cl (fun k => { k with nodes := k.nodes.put id n }) s
/-- A node, if the id is allocated. -/
def nodeOf (s : State) (cl id : Nat) : Option Node := (clusterOf s cl).nodes.find? id

/-- A node becomes ready, in a cycle of its die (15 R347, R349). -/
def makeReady (cl id : Nat) (n : Node) (s : State) : State :=
  modCluster cl (fun k => { k with nodes := k.nodes.put id { n with st := .ready, readyCyc := (dieOf s (clDie cl)).cyc } }) s

/-- The cluster's stamp moves on, at an event of its tenant (17 R410). -/
def tick (cl : Nat) (s : State) : State := modCluster cl (fun k => { k with stamp := k.stamp + 1, evAt := s.time }) s

/-- A decrement of a node (15 R347, R352): cause cancels it. Log 65, DEDUCED, unsafe. -/
def decNode (cl id : Nat) (cause : Option Nat) (s : State) : State :=
  match nodeOf s cl id with
  | none => countCluster 0xB0 1 cl s
  | some n =>
    if n.st = .waiting then
      let m := { n with count := n.count - 1, cancel := n.cancel.or cause }
      if m.count = 0 then makeReady cl id m s else putNode cl id m s
    else countCluster 0xB0 1 cl s

/-- The decrement that an action on a tag of MODE 1 makes (08 R176). Log 65, DEDUCED, unsafe. -/
def decTag (c node : Nat) (s : State) : State :=
  let t := match nodeOf s (clOf c) node with
    | some n => if n.st = .waiting then s else count 0x75 1 c s
    | none => count 0x75 1 c s
  tick (clOf c) (decNode (clOf c) node none t)

/-- The handler slot a new handler takes: the lowest-numbered free one of the core (08 R170, R176). Log 122, DESIGN CHOICE,
unsafe. -/
def freeHandler (x : CoreSt) : Option Nat := (List.range 256).find? (fun i => (x.hslots.find? i).isNone)

/-- A handler task is created for a tag (08 R176), which acquires scope acq before its first instruction (16 R382): refused
when there is no free slot or no room in its FIFO, and with true when a spill access faults (08 R170). Log 64, DEDUCED,
unsafe. -/
def makeHandler (c tag prio : Nat) (hpc : Word) (acq : Scope) (pl : List Word) (s : State) : Except Bool State :=
  let x := coreOf s c
  match freeHandler x with
  | none => .error false
  | some i =>
    if qRoom x prio 1 then
      let slot := wd (x.rqspill.toNat + 0x4000 + 64 * i)
      let (g, y) := newGtid c x
      let a (k : Nat) : Nat := (pl.getD k 0).toNat
      let r := mkRecord hpc.toNat g.toNat (mkCtl prio 0 0 tag 0 true false) 0 (a 0) (a 1) (a 2) (a 3)
      let s1 := setCore c { y with hslots := y.hslots.put i g } s
      match writeWords (whoSup s1 c) c slot.toNat r 8 s1 with
      | .error _ => .error true
      | .ok s2 =>
        match pushQE c prio c g hpc { slot := slot, cyc := (dieOf s (dOf c)).cyc, acq := acq } (drainAll c s2) with
        | .error e => .error (e == 0x504)
        | .ok s3 => .ok (tasksBorn (clOf c) 1 s3)
    else .error false

/-- The oldest registration that names a tag is woken with A0 = tag (16 R385), and acquires scope acq (R382); none while the read
of its record waits. -/
def wakeWaiter (c tag : Nat) (acq : Scope) (s : State) : Option State :=
  let x := coreOf s c
  match x.waits.find? (fun w => w.tags.contains tag) with
  | none => some (setCore c { x with seen := insertNat tag x.seen } s)
  | some w =>
    let s1 := setCore c { x with seen := removeNat tag x.seen, waits := x.waits.erase w } s
    let s2 := match writeWords (whoSup s1 c) c (w.slot.toNat + 32) tag 1 s1 with
      | .ok t => drainAll c t
      | .error _ => s1
    enqueueRecord c w.slot acq s2

/-- One action on a tag (08 R176; 16 R384, R385), and whether it was taken: one that cannot be, or whose woken task's record must
wait for its home, changes nothing. -/
def tagAct (c tag : Nat) (acq : Scope) (pl : List Word) (s : State) : State × Bool :=
  let (hpc, d1) := (coreOf s c).tags.get (0, 0) tag
  let woken (t : State) : State × Bool := match wakeWaiter c tag acq t with | some u => (u, true) | none => (s, false)
  if bit d1.toNat 61 then woken (decTag c (d1.toNat % 1024) s)
  else
    match makeHandler c tag (bits d1.toNat 60 59) hpc acq pl s with
    | .ok t => woken t
    | .error spill => (if spill then spillFault c s else s, false)

/-- Whether a core's inbox holds a message for a tag. -/
def inboxHas (x : CoreSt) (tag : Nat) : Bool := x.inbox.any (fun m => m.tag == tag)

/-- The messages held for a tag are acted on in arrival order, until one must stay (08 R177, R178); whether none stays. -/
def fireHeld (c tag : Nat) : Nat → State → State × Bool
  | 0, s => (s, !(inboxHas (coreOf s c) tag))
  | n + 1, s =>
    match (coreOf s c).inbox.find? (fun m => m.tag == tag) with
    | none => (s, true)
    | some m =>
      let (t, ok) := tagAct c tag m.scope m.payload s
      if ok then fireHeld c tag n (modCore c (fun x => { x with inbox := x.inbox.erase m }) t) else (t, false)

/-- Dword 1 of a tag's entry. -/
def tagWord (x : CoreSt) (tag : Nat) : Word := (x.tags.get (0, 0) tag).2
/-- Replaces dword 1 of a tag's entry. -/
def setTagWord (c tag : Nat) (d1 : Word) (s : State) : State :=
  modCore c (fun x => { x with tags := x.tags.put tag ((x.tags.get (0, 0) tag).1, d1) }) s

/-- A message with a zero payload, held for a tag (16 R383). -/
def zeroMsg (s : State) (c tag : Nat) : Msg :=
  { tenant := tenantOf (coreOf s c), src := c, mod := s.modIdx, core := c, tag := tag, payload := [], posted := true
    sup := false, scope := .c, gen := 0, nacks := 0, held := true }

/-- A message enters the inbox. -/
def holdMsg (c : Nat) (m : Msg) (s : State) : State := modCore c (fun x => { x with inbox := x.inbox ++ [{ m with held := true }] }) s

/-- A firing (08 R178): PEND clears unless a message for the tag stays; none where a zero-payload message finds the inbox
full. -/
def fireTag (c tag : Nat) (s : State) : Option State :=
  let done (r : State × Bool) : State :=
    if r.2 then setTagWord c tag (setBits (tagWord (coreOf r.1 c) tag) 62 62 0) r.1 else r.1
  if inboxHas (coreOf s c) tag then some (done (fireHeld c tag 64 s))
  else
    let r := tagAct c tag .c [] s
    if r.2 then some (done r)
    else if (coreOf s c).inbox.length < 64 then some (holdMsg c (zeroMsg s c tag) r.1)
    else none

/-- A message reaches its target core (08 R176, R177); false where the inbox is full and the message is refused. -/
def takeMsg (c : Nat) (m : Msg) (s : State) : State × Bool :=
  let x := coreOf s c
  let d1 := tagWord x m.tag
  let hold (t : State) : State × Bool :=
    if (coreOf t c).inbox.length < 64 then (holdMsg c m t, true) else (count 0x74 1 c t, false)
  if bit d1.toNat 63 = false then
    let r := hold s
    if r.2 then (setTagWord c m.tag (setBits d1 62 62 1) r.1, true) else r
  else if inboxHas x m.tag then hold s
  else
    let r := tagAct c m.tag m.scope m.payload s
    if r.2 then r else hold r.1

/-- Held messages of enabled tags are acted on as room appears (08 R177). -/
def actHeld (c : Nat) (s : State) : State :=
  (((coreOf s c).inbox.map (fun m => m.tag)).eraseDups).foldl (fun t tag =>
    if bit (tagWord (coreOf t c) tag).toNat 63 then
      let r := fireHeld c tag 64 t
      if r.2 then setTagWord c tag (setBits (tagWord (coreOf r.1 c) tag) 62 62 0) r.1 else r.1
    else t) s

end Sys2Proof.Machine

end
end

