-- ==== Sys2Proof/Machine/Links.lean ====
section
/-!
DEFINITION. Routes of the fabric (19 R431 to R441): electrical ports and their two-hop path, the planes that link this
module to another, relay through an intermediate, and the checks that a command's launch makes of them.
-/

namespace Sys2Proof.Machine

open Sys2Proof

/-- The port of module a of a yard that connects to module b (19 R431). -/
def yardPort (a b : Nat) : Nat := (b + 31 - a) % 32
/-- The key of a port of a module of the yard in State.portsDown. -/
def portKey (a k : Nat) : Nat := 31 * a + k
/-- Whether the link between two modules of the yard is up: both its ports are (19 R432). -/
def linkUp (s : State) (a b : Nat) : Bool :=
  !(s.portsDown.contains (portKey a (yardPort a b))) && !(s.portsDown.contains (portKey b (yardPort b a)))
/-- The lowest module through which a two-hop path leads (19 R432). -/
def twoHop (s : State) (a b : Nat) : Option Nat :=
  (List.range 32).find? (fun m => m != a && m != b && linkUp s a m && linkUp s m b)
/-- Whether a transaction to a module of this module's yard has a path (19 R432). -/
def electricalOk (s : State) (dst : Nat) : Bool :=
  let a := s.modIdx % 32
  let b := dst % 32
  a == b || linkUp s a b || (twoHop s a b).isSome

/-- Slots of a plane's rotation (19 R436). -/
def slotsOf (p : Plane) : Nat := bits p.cfg.toNat 37 32 + 1
/-- Whether a plane is enabled and in service (19 R436; 20 R462). -/
def planeOn (p : Plane) : Bool := bit p.cfg.toNat 63 && !p.lost
/-- The peer that a plane's calendar names in a slot (19 R435, R436). -/
def peerIn (p : Plane) (slot : Nat) : Option Nat :=
  let e := (p.cal.get 0 slot).toNat
  if bit e 63 then some (bits e 7 0) else none
/-- The planes that a command may use (19 R438). -/
def planesOf (mask : Nat) : List Nat := if mask = 0 then List.range 16 else (List.range 16).filter (fun p => mask.testBit p)
/-- Whether a plane names a module in some slot (19 R438). -/
def planeNames (s : State) (p dst : Nat) : Bool :=
  let q := planeOf s p
  planeOn q && (List.range (slotsOf q)).any (fun i => peerIn q i == some dst)
/-- Slots from the current one until a plane of the mask links this module to another; none where no plane does. Log 101,
DEDUCED, unsafe. -/
def slotsUntil (s : State) (mask dst : Nat) : Option Nat :=
  (List.range 65).find? (fun k => (planesOf mask).any (fun p =>
    let q := planeOf s p
    planeOn q && peerIn q ((q.slot + k) % slotsOf q) == some dst))
/-- Slots after the current one until another module's calendars link it to a module (19 R439; log 13). -/
def otherUntil (s : State) (mask i dst : Nat) : Option Nat :=
  (List.range 65).find? (fun k => k != 0 && (planesOf mask).any (fun p =>
    let q := planeOf s p
    planeOn q && q.others.find? (256 * ((q.slot + k) % slotsOf q) + i) == some dst))
/-- Whether this module relays (19 R441). -/
def relayOn (s : State) : Bool := bit s.relaycfg.toNat 63
/-- The modules that a plane of the mask links to this one in slot k from now. -/
def linkedIn (s : State) (mask k : Nat) : List Nat :=
  ((planesOf mask).filterMap (fun p =>
    let q := planeOf s p
    if planeOn q then peerIn q ((q.slot + k) % slotsOf q) else none)).eraseDups
/-- Whether a module is an intermediate for a destination from the slot that is k slots from now (19 R439), by its next slot
to the destination and this module's. Log 101, DEDUCED, unsafe. -/
def relayVia (s : State) (mask dst i : Nat) : Option Nat :=
  if i = dst then none
  else
    match otherUntil s mask i dst with
    | none => none
    | some k =>
      match slotsUntil s mask dst with
      | some j => if k < j then some k else none
      | none => some k
/-- Whether an intermediate exists in some slot (19 R438, R439). -/
def relayExists (s : State) (mask dst path : Nat) : Bool :=
  relayOn s && path != 1 &&
    (List.range 64).any (fun k => (linkedIn s mask k).any (fun i => (relayVia s mask dst i).isSome))

/-- The fabric's check at the launch of a command that reaches a module (19 R432, R438, R448). -/
def launchRoute (s : State) (mask path dst : Nat) : Option Nat :=
  if dst = s.modIdx then none
  else if sameYard s dst then (if electricalOk s dst then none else some 0x710)
  else if (slotsUntil s mask dst).isSome || relayExists s mask dst path then none
  else some 0x711

end Sys2Proof.Machine
end

