-- ==== Sys2Proof/Machine/Engines.lean ====
section
/-!
DEFINITION. What the engines of a cluster share (15 R347 to R358): the launch of a node, the checks of the ranges a command
names, reading and writing those ranges in granules of 16 bytes with poison (05 R96) and fill tags (03 R69), the yard range
(05 R102, R103), and remote transactions (19 R433, R434).
-/

noncomputable section

namespace Sys2Proof.Machine

open Sys2Proof

/-! Ranges. -/

/-- Whose accesses a node's are (15 R357): the pushing task's, through the root of the pushing core. Log 67, DEDUCED, unsafe.
-/
def nodeWho (s : State) (cl : Nat) (n : Node) : Who :=
  let r := (coreOf s n.core).vmroot.toNat
  { tenant := n.tenant, root := bits r 51 12 * 2 ^ 12, sup := n.sup, dom := !n.sup && n.dom != 0, en := bit r 0, cl := cl
    core := none }

/-- A range of addresses cut at boundaries of 64 KiB. Log 68, DESIGN CHOICE, unsafe. -/
def rangePieces : Nat → Nat → Nat → List (Nat × Nat)
  | 0, _, _ => []
  | k + 1, va, len =>
    if len = 0 then []
    else
      let n := min len (65536 - va % 65536)
      (va, n) :: rangePieces k (va + n) (len - n)

/-- Resolves the pieces of a range (15 R357): the first failure decides. Engines never use the scratchpad windows (02 R25): an address
there is not translated. -/
def resolveRange (w : Who) (acc : Acc) (f : Form) : List (Nat × Nat) → State → Except Nat (List (Ref × Nat) × State)
  | [], s => .ok ([], s)
  | (va, n) :: rest, s =>
    if inWindows va then .error (xlCause 7 0xF)
    else
      match resolve w acc f va s with
      | .error k => .error k
      | .ok (r, t) =>
        match resolveRange w acc f rest t with
        | .error k => .error k
        | .ok (l, u) => .ok ((r, n) :: l, u)

/-- A scratchpad range that a command names: its core, offset and length. -/
structure Span where
  core : Nat
  off : Nat
  len : Nat
  deriving DecidableEq, Repr

/-- The tiles of a span (03 R58). -/
def spanTiles (p : Span) : List (Nat × Nat) :=
  if p.len = 0 then []
  else (List.range (tileOf (p.off + p.len - 1) + 1 - tileOf p.off)).map (fun i => (p.core, tileOf p.off + i))

/-- The reference of a scratchpad byte. -/
def spRef (core off : Nat) : Ref := { kind := 6, pa := core * 2 ^ 22 + off, key := 0, home := core }

/-- A range of global memory that a command names: how it is accessed, its address and its length. -/
structure Named where
  acc : Acc
  form : Form
  va : Nat
  len : Nat
  deriving DecidableEq, Repr

/-- What a command names, as its launch checks it (15 R357, R366): the numbers that must be multiples of 16, the scratchpad
ranges, the destination core of another cluster, the global ranges, and the planes and path of its remote traffic. -/
structure Names where
  align : List Nat := []
  spans : List Span := []
  far : Option Nat := none
  globs : List Named := []
  planes : Nat := 0
  path : Nat := 0
  deriving DecidableEq, Repr

/-- The scratchpad checks of a launch (15 R357, R366; 03 R60, R63). Log 66, DEDUCED, unsafe. -/
def spanFault (s : State) (l : List Span) : Option Nat :=
  if l.any (fun p => p.len != 0 && decide (spSize (coreOf s p.core) < p.off + p.len)) then some 0x205
  else if l.any (fun p => (spanTiles p).any (fun t => t.2 == 0 || !((coreOf s t.1).owner.contains t.2))) then some 0x203
  else none

/-- The check of a destination in another cluster (02 R26; 15 R357). -/
def farFault (s : State) (cl : Nat) (n : Node) : Option Nat → Option Nat
  | none => none
  | some c =>
    if !(isLive s (dOf c)) then some (xlCause 7 0xF)
    else if clOf c != cl && !n.sup && !(inPaddock s n.tenant (clOf c)) then some 0x206
    else none

/-- Resolves the global ranges in order. -/
def resolveNamed (w : Who) : List Named → State → Except Nat (List (List (Ref × Nat)) × State)
  | [], s => .ok ([], s)
  | g :: rest, s =>
    match resolveRange w g.acc g.form (rangePieces (g.len / 65536 + 2) g.va g.len) s with
    | .error k => .error k
    | .ok (l, t) =>
      match resolveNamed w rest t with
      | .error k => .error k
      | .ok (m, u) => .ok (l :: m, u)

/-- What refuses a range of another module at its target, where the loopback makes that this one (02 R22, R43; 05 R102): poison is
met when the bytes are read. -/
def loopRefusal (s : State) (r : Ref) : Option Nat :=
  if modOf r.pa = s.modIdx then
    match loopFault s r.pa r.key with
    | some k => if k = 0x601 then none else some k
    | none => none
  else none

/-- The first failure of the fabric's checks on resolved ranges (19 R438, R432). -/
def routeFault (s : State) (planes path : Nat) (l : List (List (Ref × Nat))) : Option Nat :=
  l.flatten.findSome? (fun r => if r.1.kind = 4 then (launchRoute s planes path (modOf r.1.pa)).or (loopRefusal s r.1) else none)

/-- The launch checks (15 R357, R366): the resolved global ranges, or the cause. Log 50, DEDUCED, unsafe; log 66, DEDUCED,
unsafe. -/
def checkNames (cl : Nat) (n : Node) (j : Names) (s : State) : Except Nat (List (List (Ref × Nat)) × State) :=
  if j.align.any (fun a => a % 16 != 0) then .error 0x201
  else
    match spanFault s j.spans with
    | some k => .error k
    | none =>
      match farFault s cl n j.far with
      | some k => .error k
      | none =>
        match resolveNamed (nodeWho s cl n) j.globs s with
        | .error k => .error k
        | .ok (l, t) =>
          match routeFault t j.planes j.path l with
          | some k => .error k
          | none => .ok (l, t)

/-! Moving bytes. -/

/-- Sixteen bytes as a number, and whether they are poisoned. -/
structure Gran where
  v : Nat
  bad : Bool
  deriving DecidableEq, Repr

/-- The granules of n bytes at a reference. -/
def granRefs (r : Ref) (n : Nat) : List Ref := (List.range (n / 16)).map (fun i => { r with pa := r.pa + 16 * i })

/-- The lines of n bytes at an address. -/
def linesOf (pa n : Nat) : List Nat := if n = 0 then [] else (List.range ((pa + n - 1) / 128 + 1 - pa / 128)).map (fun i => pa / 128 + i)

/-- Whether a reference is another module's memory. -/
def isRemote (s : State) (r : Ref) : Bool := r.kind == 4 && modOf r.pa != s.modIdx

/-- A reference that the loopback reaches, as this module's own (02 R22). -/
def ownRef (r : Ref) : Ref := if r.kind = 4 then loopRef r else r

/-! The yard range. -/

/-- The module that holds shard k of a yard chunk (05 R102). -/
def yardHolder (s : State) (c k : Nat) : Nat := yardMod s ((k + c) % 6)
/-- The offset of a shard byte in its holder's interleaved window (05 R102). -/
def yardOff (s : State) (c j : Nat) : Nat := ysoff s * 2 ^ 30 + ypos s * (ysize s * 2 ^ 28) + 256 * c + j
/-- The chunk, shard and byte of a yard address. -/
def yardChunk (pa : Nat) : Nat × Nat × Nat := ((pa - yardBase) / 1024, (pa - yardBase) / 256 % 4, (pa - yardBase) % 256)
/-- The index of a yard line among the lines' keys and poison. Log 104, DEDUCED, unsafe. -/
def yardLine (pa : Nat) : Nat := 2 ^ 46 + pa / 128
/-- The yard address of byte j of data shard k of a chunk. -/
def yardPa (c k j : Nat) : Nat := yardBase + 1024 * c + 256 * k + j
/-- The local address of a shard byte that this module holds (05 R102). -/
def yardHere (s : State) (c j : Nat) : Nat := ilPlace s (ilBase + yardOff s c j)
/-- The address of a shard byte that another module holds (02 R22; 05 R102). -/
def yardThere (s : State) (c k j : Nat) : Nat := 2 ^ 50 + yardHolder s c k * 2 ^ 42 + ilBase + yardOff s c j
/-- The tag of a shard's line where this module holds it: the yard range's ciphertext, which the interleaved window decrypts as
another address (02 R42; 05 R97). Log 46, DEDUCED, unsafe. -/
def yardTag (c k j : Nat) : Nat := 2 ^ 700 + 2 * (6 * c + k) + j / 128
/-- Whether a byte of a shard depends on a line that reads as poisoned since the range was laid out (02 R46): its own, or
for parity any of the four it is formed from (05 R97). -/
def yardFresh (s : State) (c k j : Nat) : Bool :=
  if k < 4 then isPoison s (yardLine (yardPa c k j)) else (List.range 4).any (fun i => isPoison s (yardLine (yardPa c i j)))
/-- The bytes of another module's line as this module's transactions leave it, those on their way included. Log 69, DEDUCED,
unsafe. -/
def remSeen (s : State) (line : Nat) : AList Nat :=
  (s.txns.filter (fun t => t.src == s.modIdx && !t.performed)).foldl (fun bs t => txnBytes line t.addr t.op bs)
    ((List.range 128).map (fun i => (i, (s.remMem.read (remKey (line * 128 + i))).toNat)))
/-- The stored byte of a shard, where its module can be reached and returns no poison (05 R103). Log 124, DESIGN CHOICE,
unsafe. -/
def yardStored (s : State) (c k j : Nat) : Option Nat :=
  let m := yardHolder s c k
  let r := yardThere s c k j
  if yardFresh s c k j then none
  else if m = s.modIdx then
    let p := yardHere s c j
    let g := s.lineKey.get (yardTag c k j) (p / 128)
    let b := (s.mem.read p).toNat
    if isPoison s (p / 128) then none else some (if g = yardTag c k j then b else (Config.wrongKey g (yardTag c k j) p b).toNat)
  else if s.unreach.contains m || s.remBad.contains (remKey r / 128) then none
  else some (AList.get 0 (remSeen s (r / 128)) (r % 128))
/-- A byte of the yard range, rebuilt from any four of the other five shards where its own cannot be read (05 R103). Log 92,
DEDUCED, unsafe. -/
def yardByte (s : State) (pa : Nat) : Option Nat :=
  let (c, k, j) := yardChunk pa
  solveShard (fun i => yardStored s c i j) k
/-- Stores a byte of a shard that this module holds. -/
def yardStore (c k j v : Nat) (s : State) : State :=
  let p := yardHere s c j
  { s with mem := Memory.write p (BitVec.ofNat 8 v) s.mem, lineKey := AList.put (p / 128) (yardTag c k j) s.lineKey }
/-- Line h of a shard is read or written in this module's stacks, if it is held here (05 R102, R105): the yard range is in no cache. -/
def yardAccess (c k h : Nat) (s : State) : State :=
  let p := yardHere s c (128 * h)
  if yardHolder s c k = s.modIdx then dramAccess true (p / 2 ^ 37) p (spoilLine p (correctLine p s)) else s

/-- Who moves bytes: the cluster or hub engine whose stream carries remote ones, the node they belong to, its tenant, and
the flags and path of its command. -/
structure Mover where
  stream : Nat
  node : Option (Nat × Nat)
  tenant : Nat
  fill : Bool
  rack : Bool
  planes : Nat
  path : Nat
  deriving DecidableEq, Repr

/-- A transaction that a mover's stream carries to another module (19 R434). -/
def moverTxn (m : Mover) (key addr n : Nat) (ack : Bool) (op : TxnOp) (s : State) : State :=
  newTxn m.stream (modOf addr) m.tenant key addr op n m.path m.planes ack m.node none s

/-- Bytes of a shard's line from byte j on, given by offset, with the poisoned ones among them (05 R96), are written where the
shard is held: here, or by an acknowledged transaction (05 R103). Log 123, DESIGN CHOICE, unsafe. -/
def yardData (m : Mover) (c k j : Nat) (bs : AList Nat) (bad : List Nat) (s : State) : State :=
  let at_ := yardHolder s c k
  if at_ = s.modIdx then
    let t := bs.foldl (fun u e => yardStore c k (j + e.1) e.2 u) (yardAccess c k (j / 128) s)
    let line := yardHere t c j / 128
    let u := if bs.length = 128 then clearPoison line t else t
    if bad.isEmpty then u else poisonLine line u
  else if s.unreach.contains at_ then s
  else moverTxn m 0 (yardThere s c k j) bs.length true (.write bs bad) s

/-- The deltas of a line of a data shard, by byte of the shard, reach parity shard i with weight w (05 R100, R103): here, or by
transactions that combine a word each. Log 69, DEDUCED, unsafe. -/
def yardDelta (m : Mover) (c i w : Nat) (ds : AList Nat) (s : State) : State :=
  let at_ := yardHolder s c i
  let h := (ds.headD (0, 0)).1 / 128
  if (yardStored s c i (128 * h)).isNone then s
  else if at_ = s.modIdx then ds.foldl (fun t e => yardStore c i e.1 (((yardStored t c i e.1).getD 0) ^^^ gfMul w e.2) t) (yardAccess c i h s)
  else
    ((ds.map (fun e => e.1 / 8)).eraseDups).foldl (fun t q =>
      moverTxn m 0 (yardThere t c i (8 * q)) 8 true
        (.red .xor true ((List.range 8).foldr (fun b a => gfMul w (AList.get 0 ds (8 * q + b)) + 256 * a) 0)) t) s

/-- Line h of parity shard i is formed anew, where the chunk's four data shards can be read (05 R97; log 30). -/
def yardRemake (m : Mover) (c i h : Nat) (s : State) : State :=
  let byte (j : Nat) : Option Nat := solveShard (fun k => if k < 4 then yardStored s c k j else none) i
  if (List.range 4).all (fun k => (yardStored s c k (128 * h)).isSome) then
    yardData m c i (128 * h) ((List.range 128).map (fun j => (j, (byte (128 * h + j)).getD 0))) [] s
  else s

/-- Bytes of a yard line, given by offset in the line, with the poisoned ones among them, are written under a key pair (05 R96,
R100, R103): the data shard and both parity deltas. A line written whole loses its poison, and parity that could not be read is
formed anew. -/
def yardWrite (m : Mover) (gen line : Nat) (bs : AList Nat) (bad : List Nat) (s : State) : State :=
  let (c, k, j) := yardChunk (line * 128)
  let ds : AList Nat := bs.map (fun e => (j + e.1, (yardByte s (line * 128 + e.1)).getD 0 ^^^ e.2))
  let t := yardData m c k j bs bad (yardDelta m c 5 (shardWeight k) ds (yardDelta m c 4 1 ds s))
  let u : State := { t with lineKey := AList.put (2 ^ 46 + line) (lineTag gen (line * 128)) t.lineKey }
  if bs.length = 128 then
    let again (i : Nat) (v : State) : State := if (yardStored s c i j).isNone then yardRemake m c i (j / 128) v else v
    again 5 (again 4 (clearPoison (2 ^ 46 + line) u))
  else u

/-- Line of the yard range is read (05 R103, R105): its data shard, or four others for a rebuild, which the reading engine's die
counts (05 R109). Log 105, DEDUCED, unsafe. -/
def yardTouch (m : Mover) (line : Nat) (s : State) : State :=
  let (c, k, j) := yardChunk (line * 128)
  let h := j / 128
  let t := yardAccess c k h s
  if (yardStored t c k j).isSome then t
  else
    let src := ((List.range 6).filter (fun i => i != k && (yardStored t c i j).isSome)).take 4
    let u := src.foldl (fun v i => yardAccess c i h v) t
    if (yardByte u (line * 128)).isSome then countDie 0x67 1 (m.stream / 16) u else u

/-- The modules that a write of a yard range reaches (05 R103). -/
def yardModules (s : State) (pa n : Nat) : List Nat :=
  ((linesOf pa n).flatMap (fun l =>
    let (c, k, _) := yardChunk (l * 128)
    [yardHolder s c k, yardHolder s c 4, yardHolder s c 5])).eraseDups
/-- Sixteen bytes of the yard range under a key slot. -/
def yardGran (s : State) (r : Ref) : Gran :=
  let t := lineTag ((keyGenOf s r.key).getD 0) r.pa
  let g := s.lineKey.get t (yardLine r.pa)
  let b (i : Nat) : Nat :=
    let v := (yardByte s (r.pa + i)).getD 0
    if g = t then v else (Config.wrongKey g t (r.pa + i) v).toNat
  { v := (List.range 16).foldr (fun i a => b i + 256 * a) 0, bad := (yardByte s r.pa).isNone }

/-! Reading and writing. -/

/-- Sixteen bytes as an engine reads them at the owning memory. -/
def readGran (s : State) (r : Ref) : Gran :=
  if r.kind = 6 then
    { v := spRead s (r.pa / 2 ^ 22) (r.pa % 2 ^ 22) 16, bad := spBadAt (coreOf s (r.pa / 2 ^ 22)) (r.pa % 2 ^ 22) 16 }
  else if r.kind = 3 then { v := Memory.readN s.hostMem (r.pa % 2 ^ 50) 16, bad := false }
  else if r.kind = 2 ∧ inYard r.pa then yardGran s r
  else
    let o := ownRef r
    { v := bytesAt s o.kind ((keyGenOf s o.key).getD 0) o.pa 16, bad := lineBad s o.kind o.pa }

/-- The cause that poison in n bytes of a source gives (05 R96; 15 R366; 20 R452). -/
def badCause (s : State) (r : Ref) (n : Nat) : Nat :=
  if r.kind = 6 then (spFault (coreOf s (r.pa / 2 ^ 22)) (r.pa % 2 ^ 22) n).getD 0x601 else 0x601

/-- The home of a line of a range as an engine's access finds it (02 R34; 04 R73): the hub's engine lies in no cluster. -/
def engHome (s : State) (tenant cl : Nat) (r : Ref) (line : Nat) : Option Nat := homeOf s tenant cl { r with pa := line * 128 }

/-- Whether a range of a command must wait: the home of one of its lines changes its split, or holds earlier stores (04 R73). -/
def rangeWaits (s : State) (tenant cl : Nat) (p : Ref × Nat) : Bool :=
  s.cores.any (fun e => spBusy s e.1 || !(e.2.remq.isEmpty)) && decide (p.1.kind ≤ 2) && !(inYard p.1.pa && p.1.kind == 2) &&
    (linesOf p.1.pa p.2).any (fun l => readWaits s none (engHome s tenant cl p.1 l) l)

/-- What reading a range does beside moving bytes (03 R55; 04 R72, R81, R87; 05 R95, R101, R105). -/
def touchRange (m : Mover) (r : Ref) (n : Nat) (s : State) : State :=
  if r.kind = 6 then count 0x40 (n / 16) (r.pa / 2 ^ 22) s
  else if r.kind = 3 then hlcRange r.pa n false false s
  else if r.kind = 2 ∧ inYard r.pa then (linesOf r.pa n).foldl (fun t l => yardTouch m l t) s
  else
    let o := ownRef r
    (linesOf o.pa n).foldl (fun t l => homeRead (engHome t m.tenant m.stream o l) { o with pa := l * 128 } t) s

/-- A range is read. -/
def readRange (m : Mover) (r : Ref) (n : Nat) (s : State) : List Gran × State :=
  let t := touchRange m r n s
  ((granRefs r n).map (readGran t), t)

/-- The bytes of granules, by offset from the first. -/
def granBytes (l : List Gran) : AList Nat := (l.zipIdx.map (fun e => bytesOf (16 * e.2) e.1.v 16)).flatten
/-- The offsets of poisoned granules from the first. -/
def badOffs (l : List Gran) : List Nat := (l.zipIdx.filter (fun e => e.1.bad)).map (fun e => 16 * e.2)

/-- Bytes that an engine derived from poison leave poison where they are written in this module (05 R96): in a bank word, or on the
line. In protected memory it is the data shard's line alone, which a later read rebuilds (R101); host memory takes no poison (log
123). Log 123, DESIGN CHOICE, unsafe. -/
def poisonGran (r : Ref) (s : State) : State :=
  if r.kind = 6 then modCore (r.pa / 2 ^ 22) (fun x => { x with spPois := insertNat (r.pa % 2 ^ 22 / 16) x.spPois }) s
  else if r.kind = 3 then s
  else
    let o := ownRef r
    poisonLine (place s o.kind o.pa / 128) s

/-- The bytes of one line among bytes given by offset from an address, as offsets in the line. -/
def lineBytes (pa line : Nat) (bs : AList Nat) : AList Nat :=
  (bs.filter (fun e => (pa + e.1) / 128 == line)).map (fun e => ((pa + e.1) % 128, e.2))

/-- Bytes given by offset from an address are written line by line to this module's memory of kind 0 to 2 (04 R72, R81; 06
R134). -/
def storeOwn (m : Mover) (r : Ref) (bs : AList Nat) (s : State) : State :=
  let gen := (keyGenOf s r.key).getD 0
  (linesOf r.pa ((bs.getLast?.map (fun e => e.1 + 1)).getD 0)).foldl (fun t l =>
    breakResv none l (homeWrite (engHome t m.tenant m.stream r l) r.kind l gen (lineBytes r.pa l bs) t)) s

/-- Bytes are written to host memory from an address (04 R87; 06 R134). -/
def storeHost (pa : Nat) (bs : AList Nat) (s : State) : State :=
  let n := (bs.getLast?.map (fun e => e.1 + 1)).getD 0
  let t : State := { s with hostMem := bs.foldl (fun h e => Memory.write ((pa + e.1) % 2 ^ 50) (BitVec.ofNat 8 e.2) h) s.hostMem }
  (linesOf pa n).foldl (fun u k => breakResv none k u) (hlcRange pa n true true t)

/-- The tags of a scratchpad range become full (03 R69). -/
def fillTags (home off n : Nat) (s : State) : State :=
  (List.range (n / 8)).foldl (fun t i => tagChange home (off + 8 * i) true t) s

/-- Bytes are written to a scratchpad by an engine (03 R55, R68), in another cluster an event there (17 R410). -/
def storePad (m : Mover) (r : Ref) (bs : AList Nat) (s : State) : State :=
  let home := r.pa / 2 ^ 22
  let off := r.pa % 2 ^ 22
  let t := if clOf home = m.stream then s else trafficAt (clOf home) s
  spWrite none home (bs.map (fun e => (off + e.1, e.2))) (count 0x40 (bs.length / 16) home t)

/-- Granules are written at a reference (03 R68, R69; 04 R87; 05 R96, R103; 15 R361; 19 R433). Log 68, DESIGN CHOICE, unsafe.
-/
def writeRange (m : Mover) (r : Ref) (l : List Gran) (s : State) : State :=
  let n := 16 * l.length
  let bs := granBytes l
  let mark (t : State) : State := (l.zip (granRefs r n)).foldl (fun v e => if e.1.bad then poisonGran e.2 v else v) t
  if r.kind = 6 then
    let t := mark (storePad m r bs s)
    if m.fill then fillTags (r.pa / 2 ^ 22) (r.pa % 2 ^ 22) n t else t
  else if r.kind = 3 then storeHost r.pa bs s
  else if isRemote s r then moverTxn m r.key r.pa n m.rack (.write bs (badOffs l)) s
  else if r.kind = 4 then mark ((linesOf r.pa n).foldl (fun u k => remWrite k r.key (lineBytes r.pa k bs) u) s)
  else if r.kind = 2 ∧ inYard r.pa then
    (linesOf r.pa n).foldl (fun u k =>
      yardWrite m ((keyGenOf u r.key).getD 0) k (lineBytes r.pa k bs) ((badOffs l).filter (fun o => (r.pa + o) / 128 == k)) u) s
  else mark (storeOwn m r bs s)

/-- A transfer: from one reference to another, some bytes. -/
structure Xfer where
  src : Ref
  dst : Ref
  n : Nat
  deriving DecidableEq, Repr

/-- Source and destination pieces in parallel. -/
def zipPieces : Nat → List (Ref × Nat) → List (Ref × Nat) → List Xfer
  | 0, _, _ => []
  | _, [], _ => []
  | _, _, [] => []
  | k + 1, (a, m) :: as, (b, n) :: bs =>
    let l := min m n
    let rest (r : Ref) (i : Nat) (l2 : List (Ref × Nat)) : List (Ref × Nat) := if i = l then l2 else ({ r with pa := r.pa + l }, i - l) :: l2
    ⟨a, b, l⟩ :: zipPieces k (rest a m as) (rest b n bs)

/-- Pairs the pieces of two ranges. -/
def pairUp (a b : List (Ref × Nat)) : List Xfer := zipPieces (a.length + b.length) a b

/-- A transfer's source is read here, or is another module's. -/
structure Read where
  x : Xfer
  data : Option (List Gran)

/-- Every source that lies here is read (15 R361: before any write). -/
def readAll (m : Mover) : List Xfer → State → List Read × State
  | [], s => ([], s)
  | x :: rest, s =>
    if isRemote s x.src then
      let (l, t) := readAll m rest s
      (⟨x, none⟩ :: l, t)
    else
      let (d, t) := readRange m x.src x.n s
      let (l, u) := readAll m rest t
      (⟨x, some d⟩ :: l, u)

/-- The transfers of a copy are made: every source here is read, then every destination written; a source in another module
is pulled by a transaction. The cause that poison gives comes with the state. -/
def moveAll (m : Mover) (xs : List Xfer) (s : State) : State × Option Nat :=
  let (l, t) := readAll m xs s
  let u := l.foldl (fun u e =>
    match e.data with
    | some d => writeRange m e.x.dst d u
    | none => newTxn m.stream (modOf e.x.src.pa) m.tenant e.x.src.key e.x.src.pa
        (.pull e.x.n e.x.dst.kind e.x.dst.pa e.x.dst.key e.x.dst.home m.fill) 0 m.path m.planes true m.node none u) t
  (u, l.findSome? (fun e => match e.data with
    | some d => if d.any (fun g => g.bad) then some (badCause s e.x.src e.x.n) else none
    | none => none))

/-! Launching. -/

/-- The engine that a command goes to: 0 copy, 1 the matrix array, 2 histogram, and by stack and kind of base-die engine
(15 R349, R364). -/
def engineKey (n : Node) : Nat :=
  match n.cmd with
  | .bdGath _ _ _ _ _ _ _ st => 16 + 3 * b2n st
  | .bdRed _ _ _ _ _ _ _ _ _ st => 17 + 3 * b2n st
  | .bdCvt _ _ _ _ _ _ _ _ st => 18 + 3 * b2n st
  | .bdCopy _ _ _ _ st => 18 + 3 * b2n st
  | _ => n.port

/-- Commands of an engine that may be launched and not complete (15 R349). -/
def engineRoom (key : Nat) : Nat := if key = 0 then 16 else 1

/-- Whether a base-die engine is busy with a command of another cluster of its die, or has one that became ready in an earlier
cycle (15 R349, R364). Log 110, DEDUCED, unsafe. -/
def stackBusy (s : State) (cl key cyc : Nat) : Bool :=
  decide (16 ≤ key) && s.clusters.any (fun e =>
    clDie e.1 == clDie cl && e.2.nodes.any (fun m =>
      engineKey m.2 == key && (m.2.st == .launched || (e.1 != cl && m.2.st == .ready && decide (m.2.readyCyc < cyc)))))

/-- Whether node id is the next that its engine launches (15 R349): the one ready in the earliest cycle, the lowest id among equals.
Log 110, DEDUCED, unsafe. -/
def firstReady (k : ClusterSt) (id : Nat) (n : Node) : Bool :=
  !(k.nodes.any (fun e =>
    e.2.st == .ready && engineKey e.2 == engineKey n && (decide (e.2.readyCyc < n.readyCyc) || (e.2.readyCyc == n.readyCyc && decide (e.1 < id)))))

/-- Whether the pushing core's buffer still holds a store allocated before the push, or a store of the core waits at a home or at the
remote partition (07 R145; 04 R73, R84). -/
def pushBuffered (s : State) (n : Node) : Bool := (coreOf s n.core).scb.any (fun e => decide (e.cyc ≤ n.pushCyc)) || parked s n.core

/-- Whether a node was launched before its tenant's preemption, which abandoned it, and starts again (15 R353). -/
def restarts (n : Node) : Bool := n.st == .launched && !n.done

/-- Whether an engine can launch node id of cluster cl now (15 R349; 07 R145), or start an abandoned one again (R353). -/
def canLaunch (s : State) (cl id : Nat) (n : Node) : Bool :=
  let k := clusterOf s cl
  let key := engineKey n
  (AList.find? s.dead (clDie cl)).isNone && !(pushBuffered s n) &&
    (restarts n ||
      (n.st == .ready && firstReady k id n && !(stackBusy s cl key n.readyCyc) &&
        decide ((k.nodes.filter (fun e => e.2.st == .launched && engineKey e.2 == key)).length < engineRoom key)))

/-- Whether an address lies in a kind 4 piece of resolved ranges. -/
def inKind4 (l : List (Ref × Nat)) (line : Nat) : Bool :=
  l.any (fun r => r.1.kind == 4 && decide (r.1.pa / 128 ≤ line) && decide (line ≤ (r.1.pa + r.2 - 1) / 128))

/-- The remote partition gives up what it holds of the ranges a command names (15 R358): dirty bytes are written back, and
where a write-back awaits its acknowledgement, or a store waits for a resize (04 R84), the command waits (false). Lines that the
command writes are invalidated. -/
def partitionGate (cl : Nat) (n : Node) (all written : List (Ref × Nat)) (s : State) : State × Bool :=
  let d := clDie cl
  let hit := (dieOf s d).rp.filter (fun l => inKind4 all l.line)
  let t := hit.foldl (fun u l => rpWriteback n.core l u) s
  let u := modDie d (fun x => { x with rp := x.rp.map (fun l => if inKind4 all l.line then { l with dirty := [] } else l) }) t
  if u.txns.any (fun t => t.src == u.modIdx && t.core.any (fun c => dOf c == d) && inKind4 all (t.addr / 128)) ||
      (dieOf u d).rpStores.any (fun e => inKind4 all e.line) then (u, false)
  else (modDie d (fun x => { x with rp := x.rp.filter (fun l => !(inKind4 written l.line)) }) u, true)

/-- The modules that a command's remote traffic goes to (19 R434). -/
def remoteMods (s : State) (l : List (Ref × Nat)) : List Nat :=
  ((l.filter (fun r => isRemote s r.1)).map (fun r => modOf r.1.pa) ++
    (l.filter (fun r => r.1.kind == 2 && inYard r.1.pa)).flatMap (fun r => yardModules s r.1.pa r.2)).eraseDups

/-- The pages of 64 KiB of the ranges a command names, which an invalidation log may name (02 R39): page numbers, with 2^41 added
where a global page translates it. -/
def namedPages (s : State) (cl tenant : Nat) (j : Names) : List Nat :=
  let glob (v : Nat) : Nat := match tlbFind (dieOf s (clDie cl)).dtlb tenant (v * 2 ^ 16) with
    | some e => b2n (bit e.leaf.toNat 5)
    | none => 0
  ((j.globs.flatMap (fun g => (rangePieces (g.len / 65536 + 2) g.va g.len).map (fun p => bits p.1 56 16))).eraseDups).map
    (fun v => v + 2 ^ 41 * glob v)

/-- A node as its launch leaves it. -/
def launched (k : ClusterSt) (j : Names) (n : Node) : Node :=
  { n with st := .launched, done := true, order := if n.st = .launched then n.order else k.stamp, tiles := (j.spans.flatMap spanTiles).eraseDups }

/-- Replaces the error of a node that has none. -/
def noteErr (cl id : Nat) (e : Option Nat) (s : State) : State :=
  modCluster cl (fun k => { k with nodes := k.nodes.map (fun p => if p.1 = id then (id, { p.2 with err := p.2.err.or e }) else p) }) s

/-- A node's command is launched and its accesses are made (15 R347, R351, R352, R357): can says whether its engine takes it
now, names gives what it names, fail is what else a failure does, and act makes its accesses on the resolved ranges. A command
that cannot be launched yet changes nothing. Log 16, DESIGN CHOICE, unsafe. -/
def launchNode (can : State → Nat → Nat → Node → Bool) (names : State → Nat → Names) (fail : Nat → Nat → State → State)
    (act : Nat → Nat → Node → List (List (Ref × Nat)) → State → State × Option Nat) (s : State) : State :=
  match s.curNode with
  | none => s
  | some (cl, id) =>
    match nodeOf s cl id with
    | none => s
    | some n =>
      if !(can s cl id n) then s
      else
        let j := names s cl
        let m := launched (clusterOf s cl) j n
        match n.cancel with
        | some k => fail k cl (tick cl (putNode cl id { m with err := some k } s))
        | none =>
          match checkNames cl n j s with
          | .error k => fail k cl (tick cl (putNode cl id { m with err := some k } s))
          | .ok (l, t) =>
            let w := ((j.globs.zip l).filter (fun e => e.1.acc == .store)).flatMap (fun e => e.2)
            match partitionGate cl n l.flatten w t with
            | (u, false) => u
            | (u, true) =>
              if l.flatten.any (rangeWaits u n.tenant cl) then u
              else
              let m2 := { m with dsts := remoteMods u l.flatten, vpns := namedPages u cl n.tenant j }
              let (v, e) := act cl id m2 l (tick cl (putNode cl id m2 u))
              noteErr cl id e v

/-- Who moves a node's bytes. -/
def nodeMover (cl id : Nat) (n : Node) (planes path : Nat) : Mover :=
  let h := cmdHdr n.cmd
  { stream := cl, node := some (cl, id), tenant := n.tenant, fill := h.fill, rack := h.rack, planes := planes, path := path }

end Sys2Proof.Machine

end
end

