-- ==== Sys2Proof/Machine/Names.lean ====
section
/-!
DEFINITION. What each engine command names (15 R356 to R366; 14 R327 to R339): its scratchpad spans, its global ranges, and
the numbers that its launch checks for alignment.
-/

noncomputable section

namespace Sys2Proof.Machine

open Sys2Proof

/-- Lists cut in runs of n. -/
def chunksOf {α : Type} (n : Nat) : Nat → List α → List (List α)
  | 0, _ => []
  | k + 1, l => if l.isEmpty then [] else l.take n :: chunksOf n k (l.drop n)

/-- What a copy of length 0 has checked (07 R155): the offset of its scratchpad span. -/
def emptyNames (offs : List Nat) : Names := { align := offs }

/-- A scratchpad span of the cluster. -/
def ownSpan (cl : Nat) (sp : Spx) : Span := ⟨8 * cl + sp.core, sp.off, sp.len⟩
/-- The piece of a span. -/
def spanPiece (p : Span) : List (Ref × Nat) := [(spRef p.core p.off, p.len)]

/-- The names of a copy between a global range and a scratchpad span. -/
def spanNames (acc : Acc) (f : Form) (va : Nat) (sp : Spx) (planes path cl : Nat) : Names :=
  if sp.len = 0 then emptyNames [sp.off]
  else
    { align := [sp.off, sp.len, va], spans := [ownSpan cl sp], globs := [⟨acc, f, va, sp.len⟩], planes := planes, path := path }

/-- The destination span of cp.s2s (15 R360). -/
def farSpan (ddie dclus dcore doff len : Nat) : Span := ⟨128 * ddie + 8 * dclus + dcore, doff, len⟩

/-- The address of row i of cp.2d (15 R361). -/
def rowVa (va : Nat) (gstride : Int) (i : Nat) : Nat := ux 64 ((va : Int) + gstride * (i : Int))
/-- The span of row i of cp.2d (15 R361). -/
def rowSpan (cl : Nat) (sp : Spx) (sstride i : Nat) : Span := ⟨8 * cl + sp.core, sp.off + sstride * i, sp.len⟩

/-- The span of cnt 16-bit entries from an offset, in whole granules. -/
def idxSpan (cl core off cnt : Nat) : Span := ⟨8 * cl + core, off, (2 * cnt + 15) / 16 * 16⟩

/-- The 16-bit entries of a scratchpad range, each with its granule's poison. -/
def entries16 (s : State) (core off cnt : Nat) : List (Nat × Bool) :=
  (((granRefs (spRef core off) ((2 * cnt + 15) / 16 * 16)).flatMap (fun r =>
    let g := readGran s r
    (List.range 8).map (fun i => (bits g.v (16 * i + 15) (16 * i), g.bad))))).take cnt

/-- Whether an index entry names a row: padding and an entry of a poisoned granule name none. -/
def rowNamed (e : Nat × Bool) : Bool := !e.2 && e.1 != 0xFFFF

/-- The address or offset of a location. -/
def locAddr : Loc → Nat
  | .glob va => va
  | .spad _ off => off

/-- The scratchpad spans and global ranges of len bytes at each of some distances from a location. -/
def locNames (acc : Acc) (cl : Nat) (l : Loc) (dists : List Nat) (len : Nat) : List Span × List Named :=
  match l with
  | .glob va => ([], dists.map (fun d => ⟨acc, .local_, (va + d) % 2 ^ 64, len⟩))
  | .spad core off => (dists.map (fun d => ⟨8 * cl + core, off + d, len⟩), [])

/-- Whether a location is global. -/
def isGlob : Loc → Bool
  | .glob _ => true
  | .spad _ _ => false

/-- The names of a base-die command with one source range and one destination range. -/
def pairNames (cl : Nat) (src dst : Loc) (slen dlen : Nat) (more : List Nat) : Names :=
  let a := locNames .load cl src [0] slen
  let b := locNames .store cl dst [0] dlen
  { align := [locAddr src, locAddr dst] ++ more, spans := a.1 ++ b.1, globs := a.2 ++ b.2 }

/-- Elements of a format in a slot (12 R266). -/
def perSlot (f : Fmt) : Nat := 32 / f.width
/-- Bytes of n elements in whole granules (15 R365). -/
def elemBytes (f : Fmt) (n : Nat) : Nat := ((n + perSlot f - 1) / perSlot f * 4 + 15) / 16 * 16
/-- The elements of granules, each with its poison (12 R266). -/
def unpackGrans (f : Fmt) (l : List Gran) : List (Nat × Bool) :=
  l.flatMap (fun g => (List.range 4).flatMap (fun i =>
    let w := bits g.v (32 * i + 31) (32 * i)
    (List.range (perSlot f)).map (fun k => (bits w (f.width * k + f.width - 1) (f.width * k), g.bad))))
/-- Granules of packed elements; the bytes past the last element are 0 (12 R266; 15 R365). -/
def packGrans (f : Fmt) (l : List (Nat × Bool)) : List Gran :=
  let slots := (chunksOf (perSlot f) l.length l).map (fun c =>
    (c.zipIdx.foldl (fun a e => a + e.1.1 % 2 ^ f.width * 2 ^ (f.width * e.2)) 0, c.any (fun e => e.2)))
  (chunksOf 4 slots.length slots).map (fun c =>
    (⟨c.zipIdx.foldl (fun a e => a + e.1.1 * 2 ^ (32 * e.2)) 0, c.any (fun e => e.2)⟩ : Gran))

/-- The entries before the first that selects a row outside a scratchpad source (15 R366). -/
def rowsInside (s : State) (cl : Nat) (src : Loc) (len : Nat) (es : List (Nat × Bool)) : List (Nat × Bool) :=
  match src with
  | .glob _ => es
  | .spad core off => es.takeWhile (fun e => !(rowNamed e) || decide (off + e.1 * len + len ≤ spSize (coreOf s (8 * cl + core))))

/-- The names of a base-die command on cnt rows of len bytes chosen by an index vector. -/
def bdGathNames (s : State) (cl : Nat) (src dst : Loc) (icore ioff cnt len : Nat) : Names :=
  let es := rowsInside s cl src len (entries16 s (8 * cl + icore) ioff cnt)
  let a := locNames .load cl src ((es.filter rowNamed).map (fun e => e.1 * len)) len
  let b := locNames .store cl dst [0] (cnt * len)
  { align := [locAddr src, locAddr dst, ioff], spans := idxSpan cl icore ioff cnt :: a.1 ++ b.1, globs := a.2 ++ b.2 }

/-- Elements of a format in 16 bytes (14 R325). -/
def perGran (f : Fmt) : Nat := 4 * perSlot f

/-- The numbers of a matrix load that must be aligned (14 R327, R341): the third is 0 exactly where KOFF is a multiple of the
elements per 16 bytes. -/
def loadAlign (ld : MxLoad) : List Nat := [ld.off, ld.stride, b2n (ld.koff % perGran ld.fmt != 0)]

/-- The source spans of a matrix load (14 R327, R328), by source line. -/
def loadSpans (cl : Nat) (ld : MxLoad) (lines : List Nat) : List Span :=
  lines.map (fun i => ⟨8 * cl + ld.core, ld.off + i * ld.stride, elemBytes ld.fmt ld.kcnt⟩)

/-- The core and offset of a drain to a scratchpad (14 R337). -/
def drainCore (cl addr : Nat) : Nat := 8 * cl + bits addr 24 22
/-- The span of a row drained to a scratchpad (14 R338). -/
def drainSpan (cl : Nat) (d : MxDrain) (i : Nat) : Span := ⟨drainCore cl d.addr, bits d.addr 21 0 + i * d.stride, (4 * d.n + 15) / 16 * 16⟩
/-- The address of a row drained to global memory (14 R338). -/
def drainVa (d : MxDrain) (i : Nat) : Nat := (d.addr + i * d.stride) % 2 ^ 64

/-- What a command of cluster cl names (15 R356 to R366; 14 R327 to R339). Log 50, DEDUCED, unsafe. -/
def cmdNames (s : State) (cl : Nat) : Instr → Names
  | .mxLdb _ ld => { align := loadAlign ld, spans := loadSpans cl ld (List.range ld.cnt) }
  | .mxDensa _ ld => { align := loadAlign ld, spans := loadSpans cl ld (List.range ld.cnt) }
  | .mxGatha _ ld icore ioff =>
    { align := ioff :: loadAlign ld
      spans := idxSpan cl icore ioff ld.cnt ::
        loadSpans cl ld (((entries16 s (8 * cl + icore) ioff ld.cnt).filter rowNamed).map (fun e => e.1)) }
  | .mxCsrb _ rowptr _ _ kcnt _ _ _ => { globs := [⟨.load, .matrix, rowptr, (4 * (kcnt + 1) + 15) / 16 * 16⟩] }
  | .mxDrain _ d =>
    if d.dst then
      { align := [4 * d.addr, 4 * d.stride], globs := (List.range d.m).map (fun i => ⟨.store, .matrix, drainVa d i, 4 * d.n⟩) }
    else { align := [d.addr, d.stride], spans := (List.range d.m).map (drainSpan cl d) }
  | .mxStat _ _ core off => { align := [off], spans := [⟨8 * cl + core, off, 800⟩] }
  | .cpG2s _ va sp => spanNames .load .copy va sp 0 0 cl
  | .cpS2g _ va sp => spanNames .store .copy va sp 0 0 cl
  | .cpRget _ va sp planes path => spanNames .load .remote va sp planes path.val cl
  | .cpRput _ va sp planes path => spanNames .store .remote va sp planes path.val cl
  | .cpRred _ va sp planes path _ _ => spanNames .store .remote va sp planes path.val cl
  | .cpS2s _ sp ddie dclus dcore doff =>
    let d := farSpan ddie dclus dcore doff sp.len
    if sp.len = 0 then emptyNames [sp.off, doff]
    else { align := [sp.off, sp.len, doff], spans := [ownSpan cl sp, d], far := some d.core }
  | .cp2d _ va dir sp gstride sstride rows =>
    if sp.len = 0 then emptyNames [sp.off]
    else
      { align := [sp.off, sp.len, va, gstride.natAbs, sstride]
        spans := (List.range rows).map (rowSpan cl sp sstride)
        globs := (List.range rows).map (fun i => ⟨if dir then .store else .load, .copy, rowVa va gstride i, sp.len⟩) }
  | .cpGath _ va sp icore ioff cnt =>
    if sp.len = 0 then emptyNames [sp.off, ioff]
    else
      { align := [sp.off, sp.len, va, ioff]
        spans := [idxSpan cl icore ioff cnt, ⟨8 * cl + sp.core, sp.off, cnt * sp.len⟩]
        globs := ((entries16 s (8 * cl + icore) ioff cnt).filter rowNamed).map (fun e =>
          ⟨.load, .copy, (va + e.1 * sp.len) % 2 ^ 64, sp.len⟩) }
  | .cpCk _ src dst len =>
    if len = 0 then {} else { align := [src, dst, len], globs := [⟨.load, .copy, src, len⟩, ⟨.store, .copy, dst, len⟩] }
  | .hgCount _ core off cnt => if cnt = 0 then emptyNames [off] else { align := [off], spans := [idxSpan cl core off cnt] }
  | .hgLatch _ _ n _ wr _ core off => if wr then { align := [off], spans := [⟨8 * cl + core, off, (n + 1) / 2 * 16⟩] } else {}
  | .bdGath _ src dst icore ioff cnt rowu _ => bdGathNames s cl src dst icore ioff cnt (16 * rowu)
  | .bdRed _ src dst n vstr ecnt fmt _ _ _ =>
    let a := locNames .load cl src ((List.range n).map (fun i => 16 * vstr * i)) (elemBytes fmt ecnt)
    let b := locNames .store cl dst [0] (elemBytes fmt ecnt)
    { align := [locAddr src, locAddr dst], spans := a.1 ++ b.1, globs := a.2 ++ b.2 }
  | .bdCvt _ src dst sfmt dfmt _ _ ecnt _ => pairNames cl src dst (elemBytes sfmt ecnt) (elemBytes dfmt ecnt) []
  | .bdCopy _ src dst len _ =>
    if len = 0 then emptyNames (([src, dst].filter (fun l => !(isGlob l))).map locAddr) else pairNames cl src dst len len [len]
  | _ => {}

/-- A command of the copy engine, the histogram unit or a base die: it is launched as soon as its engine takes it (15 R349).
Log 16, DESIGN CHOICE, unsafe. -/
def runNode (i : Instr) (act : Nat → Nat → Node → List (List (Ref × Nat)) → State → State × Option Nat) (s : State) :
    Host.Outcome State Fault Refusal :=
  .next (launchNode canLaunch (fun t cl => cmdNames t cl i) (fun _ _ t => t) act s)

end Sys2Proof.Machine

end
end

