-- ==== Sys2Proof/Machine/Copy.lean ====
section
/-!
DEFINITION. The copy engine's commands (15 R359 to R361; 07 R155).
-/

noncomputable section

namespace Sys2Proof.Machine

open Sys2Proof

/-- A copy's transfers are made and its bytes counted (15 R361, R370). -/
def copyMove (cl id : Nat) (n : Node) (planes path : Nat) (xs : List Xfer) (s : State) : State × Option Nat :=
  let here := (xs.filter (fun x => !(isRemote s x.src))).foldl (fun a x => a + x.n) 0
  moveAll (nodeMover cl id n planes path) xs (countCluster 0xB1 here cl s)

/-- A copy from a global range to a scratchpad span. -/
def copyIn (i : Instr) (sp : Spx) (planes path : Nat) (s : State) : Host.Outcome State Fault Refusal :=
  runNode i (fun cl id n l => copyMove cl id n planes path (pairUp l.flatten (spanPiece (ownSpan cl sp)))) s

/-- A copy from a scratchpad span to a global range. -/
def copyOut (i : Instr) (sp : Spx) (planes path : Nat) (s : State) : Host.Outcome State Fault Refusal :=
  runNode i (fun cl id n l => copyMove cl id n planes path (pairUp (spanPiece (ownSpan cl sp)) l.flatten)) s

/-- cp.g2s (15 R361). -/
def execCpG2s (h : Hdr) (va : Nat) (sp : Spx) (s : State) : Host.Outcome State Fault Refusal := copyIn (.cpG2s h va sp) sp 0 0 s

/-- cp.s2g (15 R361). -/
def execCpS2g (h : Hdr) (va : Nat) (sp : Spx) (s : State) : Host.Outcome State Fault Refusal := copyOut (.cpS2g h va sp) sp 0 0 s

/-- cp.rget (15 R361). -/
def execCpRget (h : Hdr) (va : Nat) (sp : Spx) (planes : Nat) (path : Fin 3) (s : State) : Host.Outcome State Fault Refusal :=
  copyIn (.cpRget h va sp planes path) sp planes path.val s

/-- cp.rput (15 R361). -/
def execCpRput (h : Hdr) (va : Nat) (sp : Spx) (planes : Nat) (path : Fin 3) (s : State) : Host.Outcome State Fault Refusal :=
  copyOut (.cpRput h va sp planes path) sp planes path.val s

/-- cp.s2s (15 R361). -/
def execCpS2s (h : Hdr) (sp : Spx) (ddie dclus dcore doff : Nat) (s : State) : Host.Outcome State Fault Refusal :=
  let d := farSpan ddie dclus dcore doff sp.len
  runNode (.cpS2s h sp ddie dclus dcore doff)
    (fun cl id n _ => copyMove cl id n 0 0 (pairUp (spanPiece (ownSpan cl sp)) (spanPiece d))) s

/-- cp.2d (15 R361): rows between global memory and a scratchpad, out of the scratchpad when dir is set. -/
def execCp2d (h : Hdr) (va : Nat) (dir : Bool) (sp : Spx) (gstride : Int) (sstride rows : Nat) (s : State) :
    Host.Outcome State Fault Refusal :=
  runNode (.cp2d h va dir sp gstride sstride rows)
    (fun cl id n l =>
      copyMove cl id n 0 0 (l.zipIdx.flatMap (fun e =>
        let p := spanPiece (rowSpan cl sp sstride e.2)
        if dir then pairUp p e.1 else pairUp e.1 p))) s

/-! Gathers. -/

/-- n bytes of zeros, poisoned or not. -/
def zeroGrans (n : Nat) (bad : Bool) : List Gran := List.replicate (n / 16) ⟨0, bad⟩

/-- The destination pieces of a range, cut in rows of len bytes. -/
def rowsOf_ (len : Nat) : Nat → List (Ref × Nat) → List (List (Ref × Nat))
  | 0, _ => []
  | k + 1, l =>
    let rec cut : Nat → List (Ref × Nat) → List (Ref × Nat) × List (Ref × Nat)
      | _, [] => ([], [])
      | n, (r, m) :: rest =>
        if n = 0 then ([], (r, m) :: rest)
        else if m ≤ n then
          let (a, b) := cut (n - m) rest
          ((r, m) :: a, b)
        else ([(r, n)], ({ r with pa := r.pa + n }, m - n) :: rest)
    let (a, b) := cut len l
    a :: rowsOf_ len k b

/-- The transfers and the rows of zeros of a gather: entries, the pieces of the rows they name, and the destination rows. -/
def gatherPlan : List (Nat × Bool) → List (List (Ref × Nat)) → List (List (Ref × Nat)) → List Xfer × List ((Ref × Nat) × Bool)
  | e :: es, src, d :: ds =>
    if rowNamed e then
      let (xs, zs) := gatherPlan es (src.drop 1) ds
      (pairUp (src.headD []) d ++ xs, zs)
    else
      let (xs, zs) := gatherPlan es src ds
      (xs, d.map (fun p => (p, e.2)) ++ zs)
  | _, _, _ => ([], [])

/-- A gather's transfers are made (15 R361): rows of padding are written 0, and rows whose index is poisoned are written
poisoned. idx is the range of the index vector. Log 70, DEDUCED, unsafe. -/
def gatherMove (m : Mover) (idx : Span) (es : List (Nat × Bool)) (src dst : List (List (Ref × Nat))) (s : State) : State × Option Nat :=
  let (xs, zs) := gatherPlan es src dst
  let (t, e) := moveAll m xs (touchRange m (spRef idx.core idx.off) idx.len s)
  let u := zs.foldl (fun v z => writeRange m z.1.1 (zeroGrans z.1.2 z.2) v) t
  (u, (spFault (coreOf s idx.core) idx.off idx.len).or e)

/-- cp.gath (15 R361). -/
def execCpGath (h : Hdr) (va : Nat) (sp : Spx) (icore ioff cnt : Nat) (s : State) : Host.Outcome State Fault Refusal :=
  runNode (.cpGath h va sp icore ioff cnt)
    (fun cl id n l t =>
      if sp.len = 0 then (t, none)
      else
        let d := rowsOf_ sp.len cnt [(spRef (8 * cl + sp.core) sp.off, cnt * sp.len)]
        let far := ((l.flatten.filter (fun p => isRemote t p.1)).map (fun p => p.2)).sum
        gatherMove (nodeMover cl id n 0 0) (idxSpan cl icore ioff cnt) (entries16 t (8 * cl + icore) ioff cnt) l d
          (countCluster 0xB1 (cnt * sp.len - far) cl t)) s

/-! Remote reductions and global copies. -/

/-- One element of cp.rred is combined at its target (15 R361; 04 R79; 06 R133): at once through the loopback, else by a
transaction. -/
def redRemote (m : Mover) (r : Ref) (op : RedOp) (dbl : Bool) (v : Nat) (s : State) : State :=
  let n := if dbl then 8 else 4
  if modOf r.pa = s.modIdx then combineHome none none (ownRef r) op n v (recallLine ((ownRef r).pa / 128) s)
  else moverTxn m r.key r.pa n m.rack (.red op dbl v) s

/-- A poisoned granule's elements leave the line that they were combined into poisoned (05 R96). -/
def redPoison (m : Mover) (r : Ref) (s : State) : State :=
  if modOf r.pa = s.modIdx then poisonGran r s else moverTxn m r.key r.pa 0 m.rack (.write [] [0]) s

/-- The elements of a transfer are combined at its destination (15 R361), with the cause of poison among them. Log 70,
DEDUCED, unsafe. -/
def redXfer (m : Mover) (op : RedOp) (dbl : Bool) (x : Xfer) (s : State) : State × Option Nat :=
  let n := if dbl then 8 else 4
  let (gs, t) := readRange m x.src x.n s
  (gs.zipIdx.foldl (fun t e =>
    let r : Ref := { x.dst with pa := x.dst.pa + 16 * e.2 }
    let u := (List.range (16 / n)).foldl (fun u i =>
      redRemote m { r with pa := r.pa + n * i } op dbl (bits e.1.v (8 * n * i + 8 * n - 1) (8 * n * i)) u) t
    if e.1.bad then redPoison m r u else u) t,
    if gs.any (fun g => g.bad) then some (badCause s x.src x.n) else none)

/-- cp.rred (15 R361). -/
def execCpRred (h : Hdr) (va : Nat) (sp : Spx) (planes : Nat) (path : Fin 3) (op : RedOp) (dbl : Bool) (s : State) :
    Host.Outcome State Fault Refusal :=
  runNode (.cpRred h va sp planes path op dbl)
    (fun cl id n l t =>
      (pairUp (spanPiece (ownSpan cl sp)) l.flatten).foldl (fun u x =>
        let r := redXfer (nodeMover cl id n planes path.val) op dbl x u.1
        (r.1, u.2.or r.2)) (countCluster 0xB1 sp.len cl t, none)) s

/-- cp.ck (15 R361). -/
def execCpCk (h : Hdr) (src dst len : Nat) (s : State) : Host.Outcome State Fault Refusal :=
  runNode (.cpCk h src dst len)
    (fun cl id n l => copyMove cl id n 0 0 (pairUp (l.getD 0 []) (l.getD 1 []))) s

/-- cp.nop (07 R155). -/
def execCpNop (h : Hdr) (s : State) : Host.Outcome State Fault Refusal :=
  runNode (.cpNop h) (fun _ _ _ _ t => (t, none)) s

end Sys2Proof.Machine

end
end

