-- ==== Sys2Proof/Machine/Histogram.lean ====
section
/-!
DEFINITION. The histogram unit's commands (15 R362, R363).
-/

noncomputable section

namespace Sys2Proof.Machine

open Sys2Proof

/-- One id meets the unit (15 R363): its bin, or OUTR; 0xFFFF is padding. -/
def countId (k : ClusterSt) (id : Nat) : ClusterSt :=
  if id < 1024 then { k with hcount := k.hcount.put id ((k.hcount.get 0 id + 1) % 2 ^ 32) }
  else if id = 0xFFFF then k
  else { k with outr := (k.outr + 1) % 2 ^ 32 }

/-- hg.count (15 R363): ids of poisoned granules are not counted. -/
def execHgCount (h : Hdr) (core off cnt : Nat) (s : State) : Host.Outcome State Fault Refusal :=
  runNode (.hgCount h core off cnt)
    (fun cl id d _ t =>
      let l := entries16 t (8 * cl + core) off cnt
      let p := idxSpan cl core off cnt
      let ids := (l.filter (fun e => !e.2)).map (fun e => e.1)
      let out := (ids.filter (fun i => decide (1024 ≤ i) && i != 0xFFFF)).length
      (countCluster 0xB2 out cl (modCluster cl (fun k => ids.foldl countId k) (touchRange (nodeMover cl id d 0 0) (spRef p.core off) p.len t)),
        spFault (coreOf t p.core) off p.len)) s

/-- The entries that hg.latch writes from bin b on, with the running prefix p (15 R363). -/
def latchEntries (k : ClusterSt) : Nat → Nat → Nat → List (Nat × Nat)
  | 0, _, _ => []
  | n + 1, b, p => (b, p * 2 ^ 32 + k.hcount.get 0 b) :: latchEntries k n (b + 1) ((p + k.hcount.get 0 b) % 2 ^ 32)

/-- hg.latch (15 R363). -/
def execHgLatch (h : Hdr) (first n : Nat) (clr wr : Bool) (base core off : Nat) (s : State) : Host.Outcome State Fault Refusal :=
  runNode (.hgLatch h first n clr wr base core off)
    (fun cl id d _ t =>
      let l := latchEntries (clusterOf t cl) n first (base % 2 ^ 32)
      let u := modCluster cl (fun k =>
        { k with
          latch := l.foldl (fun m e => AList.put e.1 (wd e.2) m) k.latch
          hcount := if clr then k.hcount.filter (fun e => !(decide (first ≤ e.1) && decide (e.1 < first + n))) else k.hcount }) t
      let gs := (chunksOf 2 n l).map (fun p => (⟨(p.getD 0 (0, 0)).2 + 2 ^ 64 * (p.getD 1 (0, 0)).2, false⟩ : Gran))
      (if wr then writeRange (nodeMover cl id d 0 0) (spRef (8 * cl + core) off) gs u else u, none)) s

/-- hg.clear (15 R363). -/
def execHgClear (h : Hdr) (s : State) : Host.Outcome State Fault Refusal :=
  runNode (.hgClear h) (fun cl _ _ _ t => (modCluster cl (fun k => { k with hcount := [], outr := 0 }) t, none)) s

end Sys2Proof.Machine

end
end

