-- ==== Sys2Proof/Machine/BaseDie.lean ====
section
/-!
DEFINITION. The base-die engines' commands (15 R364, R365; 05 R104; 12 R266, R285).
-/

noncomputable section

namespace Sys2Proof.Machine

open Sys2Proof

/-- The pieces of len bytes at distance d from a location, from the resolved global ranges where it is global. -/
def locPieces (cl : Nat) (l : Loc) (d len : Nat) (g : List (Ref × Nat)) : List (Ref × Nat) :=
  match l with
  | .glob _ => g
  | .spad core off => [(spRef (8 * cl + core) (off + d), len)]

/-- The source and destination pieces of such a command. -/
def pairPieces (cl : Nat) (src dst : Loc) (slen dlen : Nat) (l : List (List (Ref × Nat))) : List (Ref × Nat) × List (Ref × Nat) :=
  let k := if isGlob src then 1 else 0
  (locPieces cl src 0 slen (l.getD 0 []), locPieces cl dst 0 dlen (l.getD k []))

/-- Writes granules over pieces in order. -/
def writePieces (m : Mover) : List (Ref × Nat) → List Gran → State → State
  | [], _, s => s
  | (r, n) :: rest, l, s => writePieces m rest (l.drop (n / 16)) (writeRange m r (l.take (n / 16)) s)

/-- Reads the granules of pieces in order, with the cause of the first poison. -/
def readPieces (m : Mover) : List (Ref × Nat) → State → List Gran × Option Nat × State
  | [], s => ([], none, s)
  | (r, n) :: rest, s =>
    let (a, t) := readRange m r n s
    let (b, e, u) := readPieces m rest t
    (a ++ b, (if a.any (fun g => g.bad) then some (badCause s r n) else none).or e, u)

/-! Elements. -/

/-- The rounding mode of a command: DYN is FRM at its push (15 R364). -/
def rmOf (n : Node) (rm : Rm) : Nat := if rm.val = 7 then n.frm else rm.val

/-- One addition of bd.red (12 R285). -/
def redStep (f : Fmt) (mode : Nat) (sat : Bool) (u a b : Nat) : Nat :=
  if isFloat f then (roundF (addNum (decodeF f a) (decodeF f b) mode) f mode sat u).1
  else
    let i := decodeI f a + decodeI f b
    ux f.width (if sat then clampInt (intRange f.width (isSigned f)) i else i)

/-- The sum of vectors element by element in ascending order (12 R285); u gives the draw of SR from the counter of free
values (log 8). -/
def redVectors (f : Fmt) (mode : Nat) (sat : Bool) (u : Nat → Nat) : List (List (Nat × Bool)) → List (Nat × Bool)
  | [] => []
  | v :: vs => (vs.zipIdx).foldl (fun a w =>
      ((a.zip w.1).zipIdx).map (fun e => (redStep f mode sat (u (w.2 * a.length + e.2)) e.1.1.1 e.1.2.1, e.1.1.2 || e.1.2.2))) v

/-- The draw of a rounding under SR that no rule gives. -/
def engineDraw (s : State) (i : Nat) : Nat := (Config.word (s.free + i)).toNat

/-- bd.copy (15 R365). -/
def execBdCopy (h : Hdr) (src dst : Loc) (len : Nat) (stack : Bool) (s : State) : Host.Outcome State Fault Refusal :=
  runNode (.bdCopy h src dst len stack)
    (fun cl id n l t =>
      if len = 0 then (t, none)
      else
        let (a, b) := pairPieces cl src dst len len l
        moveAll (nodeMover cl id n 0 0) (pairUp a b) t) s

/-- bd.cvt (15 R365; 13 R303). -/
def execBdCvt (h : Hdr) (src dst : Loc) (sfmt dfmt : Fmt) (rm : Rm) (sat : Bool) (ecnt : Nat) (stack : Bool) (s : State) :
    Host.Outcome State Fault Refusal :=
  runNode (.bdCvt h src dst sfmt dfmt rm sat ecnt stack)
    (fun cl id n l t =>
      let (a, b) := pairPieces cl src dst (elemBytes sfmt ecnt) (elemBytes dfmt ecnt) l
      let (gs, e, u) := readPieces (nodeMover cl id n 0 0) a t
      let els := (unpackGrans sfmt gs).take ecnt
      let out := els.zipIdx.map (fun x => ((cvtElem dfmt sfmt (rmOf n rm) sat (engineDraw t x.2) x.1.1).1, x.1.2))
      (writePieces (nodeMover cl id n 0 0) b (packGrans dfmt out) { u with free := u.free + ecnt }, e)) s

/-- bd.red (15 R365; 12 R285). -/
def execBdRed (h : Hdr) (src dst : Loc) (n vstr ecnt : Nat) (fmt : Fmt) (rm : Rm) (sat stack : Bool) (s : State) :
    Host.Outcome State Fault Refusal :=
  let len := elemBytes fmt ecnt
  let dists := (List.range n).map (fun i => 16 * vstr * i)
  runNode (.bdRed h src dst n vstr ecnt fmt rm sat stack)
    (fun cl id d l t =>
      let g := if isGlob src then l.take n else []
      let out := locPieces cl dst 0 len (l.getD g.length [])
      let r := dists.zipIdx.foldl (fun (acc : List (List (Nat × Bool)) × Option Nat × State) e =>
        let (gs, k, u) := readPieces (nodeMover cl id d 0 0) (locPieces cl src e.1 len (g.getD e.2 [])) acc.2.2
        (acc.1 ++ [(unpackGrans fmt gs).take ecnt], acc.2.1.or k, u)) ([], none, t)
      let sum := redVectors fmt (rmOf d rm) sat (engineDraw t) r.1
      (writePieces (nodeMover cl id d 0 0) out (packGrans fmt sum) { r.2.2 with free := r.2.2.free + n * ecnt }, r.2.1)) s

/-- bd.gath (15 R365). -/
def execBdGath (h : Hdr) (src dst : Loc) (icore ioff cnt rowu : Nat) (stack : Bool) (s : State) : Host.Outcome State Fault Refusal :=
  let len := 16 * rowu
  runNode (.bdGath h src dst icore ioff cnt rowu stack)
    (fun cl id n l t =>
      let all := entries16 t (8 * cl + icore) ioff cnt
      let es := rowsInside t cl src len all
      let rows := es.filter rowNamed
      let from_ := if isGlob src then l.take rows.length else rows.map (fun e => locPieces cl src (e.1 * len) len [])
      let out := locPieces cl dst 0 (cnt * len) (l.getD (if isGlob src then rows.length else 0) [])
      let (u, e) := gatherMove (nodeMover cl id n 0 0) (idxSpan cl icore ioff cnt) es from_ (rowsOf_ len cnt out) t
      (u, if es.length < all.length then some 0x205 else e)) s

end Sys2Proof.Machine

end
end

