-- ==== Sys2Proof/Machine/Turns.lean ====
section
/-!
DEFINITION. The turns of the matrix array (14 R321): who is a candidate, when a turn ends, and the marking of turns that have
ended, which happens at every move.
-/

namespace Sys2Proof.Machine

open Sys2Proof

/-- The oldest matrix command of a lessee that has not launched (14 R324). -/
def mxNext (k : ClusterSt) (core : Nat) (gtid : Word) : Option (Nat × Node) :=
  (k.nodes.filter (fun e => e.2.port == 1 && e.2.core == core && e.2.gtid == gtid && e.2.st != .launched)).foldl
    (fun (a : Option (Nat × Node)) e => match a with
      | none => some e
      | some b => if e.2.pushedAt < b.2.pushedAt then some e else a) none

/-- The lease held on a core, whichever task runs there. -/
def leaseAt (k : ClusterSt) (core : Nat) : Option Lease := k.leases.find? (fun l => l.core == core)

/-- Whether a core's lessee has a ready matrix command (14 R321). -/
def lesseeReady (k : ClusterSt) (core : Nat) : Bool :=
  match leaseAt k core with
  | some l => (mxNext k core l.gtid).any (fun e => e.2.st == .ready)
  | none => false

/-- Whether a core is a candidate for a turn (14 R321). -/
def isCandidate (k : ClusterSt) (core : Nat) : Bool :=
  lesseeReady k core || ((leaseAt k core).isNone && k.leaseReqs.any (fun r => r.core == core))

/-- Whether another core than a turn's is a candidate (14 R321). -/
def otherCandidate (k : ClusterSt) (cl core : Nat) : Bool :=
  (List.range 8).any (fun i => 8 * cl + i != core && isCandidate k (8 * cl + i))

/-- 64 microseconds of TIME (14 R321). -/
def turnLimit : Nat := 64000

/-- Whether a turn has ended, or must before its lessee's next launch (14 R321). -/
def turnOver (s : State) (cl : Nat) (t : Turn) : Bool :=
  let k := clusterOf s cl
  t.ending || (otherCandidate k cl t.core &&
    (decide (16 ≤ t.launched) || decide (t.since + turnLimit ≤ s.time) || !(lesseeReady k t.core)))

/-- Whether a turn's end is the 64 microseconds' alone (14 R321, R342). -/
def limitEnds (s : State) (cl : Nat) (t : Turn) : Bool :=
  !t.ending && decide (t.launched < 16) && lesseeReady (clusterOf s cl) t.core && otherCandidate (clusterOf s cl) cl t.core &&
    decide (t.since + turnLimit ≤ s.time)

/-- A turn ends at the first event that ends it (14 R321): it is marked, and one that the limit ends is counted (R342). -/
def endDue (cl : Nat) (s : State) : State :=
  match (clusterOf s cl).turn with
  | none => s
  | some t =>
    if t.ending || !(turnOver s cl t) then s
    else
      let u := modCluster cl (fun k => { k with turn := some { t with ending := true } }) s
      if limitEnds s cl t then count 0xA5 1 t.core u else u

/-- The turns that have ended are marked, in every cluster (14 R321). -/
def endTurns (s : State) : State := s.clusters.foldl (fun t k => if k.2.turn.isSome then endDue k.1 t else t) s

end Sys2Proof.Machine
end

