-- ==== Sys2Proof/Machine/Matrix.lean ====
section
/-!
DEFINITION. The matrix array (14 R318 to R342; 12 R277 to R283): turns, leases and accumulator sets, operand latches, runs
with their timing counters, drains with the residue check, and the counters.
-/

noncomputable section

namespace Sys2Proof.Machine

open Sys2Proof

/-! Turns. -/

/-- Whether mx.csrb waits for the homes that change their split, whichever lines its structure will name (04 R73). Log 71, DEDUCED,
unsafe. -/
def csrHeld (s : State) : Instr → Bool
  | .mxCsrb _ _ _ _ _ _ _ _ => s.cores.any (fun e => spBusy s e.1 || !(e.2.remq.isEmpty))
  | _ => false

/-- Whether the array takes matrix node id of cluster cl now (14 R321, R324; 07 R145): in its lessee's turn; a cancelled one
of a task that holds no lease at any time. -/
def canLaunchMx (s : State) (cl id : Nat) (n : Node) : Bool :=
  let k := clusterOf s cl
  let held := k.leases.any (fun l => l.core == n.core && l.gtid == n.gtid)
  let mine := match k.turn with
    | some t => t.core == n.core && held && !(turnOver s cl t)
    | none => false
  (AList.find? s.dead (clDie cl)).isNone && n.st == .ready && ((mxNext k n.core n.gtid).map (fun e => e.1)) == some id && !(pushBuffered s n) &&
    (mine || (n.cancel.isSome && !held)) && !(csrHeld s n.cmd)

/-- Whether a node is launched. -/
def isLaunched (s : State) (cl id : Nat) : Bool := (nodeOf s cl id).any (fun n => n.st == .launched)

/-- Whether node id belongs to the lessee whose turn it is. -/
def inTurnOf (k : ClusterSt) (id : Nat) : Bool :=
  match k.turn, k.nodes.find? id with
  | some t, some n => n.core == t.core && k.leases.any (fun l => l.core == n.core && l.gtid == n.gtid)
  | _, _ => false

/-- A matrix command: it is launched in its lessee's turn, which counts it (14 R321). -/
def runMx (i : Instr) (fail : Nat → Nat → State → State)
    (act : Nat → Nat → Node → List (List (Ref × Nat)) → State → State × Option Nat) (s : State) : Host.Outcome State Fault Refusal :=
  let t := launchNode canLaunchMx (fun t cl => cmdNames t cl i) fail act s
  match s.curNode with
  | none => .next t
  | some (cl, id) =>
    if isLaunched t cl id && !(isLaunched s cl id) && inTurnOf (clusterOf s cl) id then
      .next (modCluster cl (fun k => { k with turn := k.turn.map (fun u => { u with launched := u.launched + 1 }) }) t)
    else .next t

/-- A range of scratchpad bytes takes free values (14 R320: the format of a spill is not architectural; log 8). -/
def freeRange (lo n free : Nat) (m : Memory) : Memory :=
  let cells : Memory := ((List.range n).map (fun i =>
    (lo + i, (BitVec.ofNat 8 ((Config.word (free + i / 8)).toNat / 2 ^ (8 * (i % 8))) : Byte)))).filter (fun e => e.2 != 0)
  m.filter (fun e => decide (e.1 < lo)) ++ cells ++ m.filter (fun e => decide (lo + n ≤ e.1))

/-- Bytes of a tile (03 R58). -/
def tileBytes : Nat := 17408

/-- Adds to a lessee's counter (14 R339). -/
def bumpCtr (d n : Nat) (l : Lease) : Lease := { l with ctrs := l.ctrs.put d ((l.ctrs.get 0 d + n) % 2 ^ 64) }

/-- Changes a core's lease. -/
def modLease (cl core : Nat) (f : Lease → Lease) (s : State) : State :=
  modCluster cl (fun k => { k with leases := k.leases.map (fun l => if l.core = core then f l else l) }) s

/-- A lessee's set is spilled to its tiles (14 R320, R322). -/
def spillSet (cl : Nat) (l : Lease) (s : State) : State :=
  let t := modLease cl l.core (fun m => bumpCtr 3 1 { m with phys := none, spilled := true }) (count 0xA3 1 l.core s)
  let u := modCore l.core (fun x => { x with sp := freeRange (l.sb * tileBytes) (16 * tileBytes) t.free x.sp }) t
  { u with free := u.free + 16 * tileBytes / 8 }

/-- The lessee whose set leaves a physical set: the one whose last turn ended earliest (14 R322). -/
def spillVictim (k : ClusterSt) (core : Nat) : Option Lease :=
  (k.leases.filter (fun l => l.phys.isSome && l.core != core)).foldl
    (fun (a : Option Lease) l => match a with
      | none => some l
      | some b => if l.lastEnd < b.lastEnd then some l else a) none

/-- A lessee's set becomes resident (14 R322). -/
def makeResident (cl core : Nat) (s : State) : State :=
  match leaseAt (clusterOf s cl) core with
  | none => s
  | some l =>
    if l.phys.isSome then s
    else
      let used := (clusterOf s cl).leases.filterMap (fun m => m.phys)
      let bind (p : Nat) (t : State) : State :=
        let u := if l.spilled then count 0xA4 1 core t else t
        modLease cl core (fun m => { m with phys := some p, spilled := false }) u
      if !(used.contains 0) then bind 0 s
      else if !(used.contains 1) then bind 1 s
      else
        match spillVictim (clusterOf s cl) core with
        | none => s
        | some v => bind (v.phys.getD 0) (spillSet cl v s)

/-- A core's turn begins (14 R321, R322). -/
def beginTurn (cl core : Nat) (s : State) : State :=
  let t := makeResident cl core s
  modCluster cl (fun k => { k with turn := some { core := core, since := t.time, launched := 0 } }) t

/-- A waiting mlease is taken (14 R320, R321; 16 R387): granted where every spill tile is engine-owned, which begins the
lessee's first turn; refused else. -/
def takeLease (cl : Nat) (r : LeaseReq) (s : State) : State :=
  let t := modCluster cl (fun k => { k with leaseReqs := k.leaseReqs.filter (fun q => q.core != r.core) }) s
  let x := coreOf t r.core
  if (List.range 16).all (fun i => x.owner.contains (r.sb + i)) then
    let u := count 0xA0 ((dieOf t (clDie cl)).cyc - r.since) r.core t
    let v := modCluster cl (fun k => { k with leases := k.leases ++ [{ core := r.core, gtid := r.gtid, sb := r.sb }] }) u
    beginTurn cl r.core (modCore r.core (fun x => { x with leaseReq := .result 0 }) v)
  else modCore r.core (fun x => { x with leaseReq := .result 1 }) t

/-- The array picks the next candidate (14 R321). -/
def nextTurn (cl : Nat) (s : State) : State :=
  let k := clusterOf s cl
  match ((List.range 8).map (fun i => 8 * cl + (k.lastTurn + 1 + i) % 8)).find? (isCandidate k) with
  | none => s
  | some c =>
    if lesseeReady k c then beginTurn cl c s
    else
      match k.leaseReqs.find? (fun r => r.core == c) with
      | some r => takeLease cl r s
      | none => s

/-- A turn ends (14 R321). -/
def endTurn (cl : Nat) (t : Turn) (s : State) : State :=
  tick cl (modCluster cl (fun k => { k with
    turn := none, lastTurn := t.core % 8
    leases := k.leases.map (fun l => if l.core = t.core then { l with lastEnd := k.stamp } else l) }) s)

/-- MX_TURN_START (14 R321). -/
def execMxTurnStart (cl : Nat) (s : State) : Host.Outcome State Fault Refusal :=
  .next (match (clusterOf s cl).turn with
    | none => nextTurn cl s
    | some t =>
      let busy := (clusterOf s cl).nodes.any (fun e => e.2.port == 1 && e.2.core == t.core && e.2.st == .launched)
      if turnOver s cl t && !busy then nextTurn cl (endTurn cl t s) else s)

/-- MX_TURN_TIMEOUT (14 R321, R342): the turn that the limit has ended is marked, as it is at every move. -/
def execMxTurnTimeout (cl : Nat) (s : State) : Host.Outcome State Fault Refusal := .next (endDue cl s)

/-! Latches. -/

/-- The key of an A bank among the latches. -/
def aBank (b : Bool) : Nat := b2n b
/-- The key of a B bank among the latches. -/
def bBank (b : Bool) : Nat := 2 + b2n b
/-- Elements that a line can hold (14 R325). -/
def capacity (f : Fmt) : Nat := 128 * perSlot f
/-- An operand bank. -/
def latchOf (s : State) (cl b : Nat) : Latch := (clusterOf s cl).latches.get {} b
/-- Replaces an operand bank. -/
def putLatch (cl b : Nat) (l : Latch) (s : State) : State := modCluster cl (fun k => { k with latches := k.latches.put b l }) s
/-- An element of a bank (14 R326): one that no load has written is +0. -/
def latchElem (l : Latch) (line k : Nat) : Nat := AList.get 0 (l.lines.get [] line) k
/-- The tag is invalidated (14 R326). Log 72, DEDUCED, unsafe. -/
def dropTag (cl b : Nat) (s : State) : State := putLatch cl b { latchOf s cl b with valid := false } s
/-- A load that fails leaves its bank's tag invalid, unless it met poison (14 R326). Log 72, DEDUCED, unsafe. -/
def loadFail (b cause cl : Nat) (s : State) : State := if cause = 0x601 ∨ cause = 0x605 then s else dropTag cl b s
/-- The bank as a load's tag handling leaves it (14 R326). -/
def tagged (core : Nat) (f : Fmt) (l : Latch) : Latch :=
  if l.valid && l.core == core && l.fmt == f then l else { valid := true, core := core, fmt := f }
/-- Elements are written to a line (14 R326): a poisoned source poisons it, and a whole line of sound elements clears it. -/
def writeLatch (f : Fmt) (line koff : Nat) (els : List (Nat × Bool)) (l : Latch) : Latch :=
  let old := l.lines.get [] line
  { l with
    lines := l.lines.put line (els.zipIdx.foldl (fun m e => AList.put (koff + e.2) e.1.1 m) old)
    bad := if els.any (fun e => e.2) then insertNat line l.bad
      else if koff = 0 ∧ els.length = capacity f then removeNat line l.bad else l.bad }

/-- The source of a line: a scratchpad offset, or none for zeros, poisoned or not. -/
structure LineSrc where
  off : Option Nat
  bad : Bool
  deriving DecidableEq, Repr

/-- A line's elements (14 R327, R328). -/
def lineElems (s : State) (core : Nat) (ld : MxLoad) (src : LineSrc) : List (Nat × Bool) :=
  match src.off with
  | none => List.replicate ld.kcnt (0, src.bad)
  | some o => (unpackGrans ld.fmt ((granRefs (spRef core o) (elemBytes ld.fmt ld.kcnt)).map (readGran s))).take ld.kcnt

/-- The first cause of poison in the sources of a load (14 R326; 05 R96; 20 R452). -/
def srcFault (s : State) (core : Nat) (ld : MxLoad) (srcs : List LineSrc) : Option Nat :=
  srcs.findSome? (fun e => e.off.bind (fun o => spFault (coreOf s core) o (elemBytes ld.fmt ld.kcnt)))

/-- A dense or gathering load (14 R326 to R328): idx is the cause that its index vector gives. -/
def loadBank (cl b : Nat) (m : Mover) (n : Node) (ld : MxLoad) (idx : Option Nat) (srcs : List LineSrc) (s : State) : State × Option Nat :=
  if capacity ld.fmt < ld.koff + ld.kcnt then (dropTag cl b s, some 0x424)
  else
    let core := 8 * cl + ld.core
    let rows := srcs.map (lineElems s core ld)
    let t := srcs.foldl (fun u e => match e.off with | some o => touchRange m (spRef core o) (elemBytes ld.fmt ld.kcnt) u | none => u) s
    let l := rows.zipIdx.foldl (fun m e => writeLatch ld.fmt (ld.row0 + e.2) ld.koff e.1 m) (tagged n.core ld.fmt (latchOf s cl b))
    (putLatch cl b l t, idx.or (srcFault s core ld srcs))

/-- The sources of a dense load (14 R327). -/
def denseSrcs (ld : MxLoad) : List LineSrc := (List.range ld.cnt).map (fun i => ⟨some (ld.off + i * ld.stride), false⟩)

/-- mx.densa (14 R327). -/
def execMxDensa (h : Hdr) (ld : MxLoad) (s : State) : Host.Outcome State Fault Refusal :=
  runMx (.mxDensa h ld) (loadFail (aBank ld.bank)) (fun cl id n _ => loadBank cl (aBank ld.bank) (nodeMover cl id n 0 0) n ld none (denseSrcs ld)) s

/-- mx.ldb (14 R327). -/
def execMxLdb (h : Hdr) (ld : MxLoad) (s : State) : Host.Outcome State Fault Refusal :=
  runMx (.mxLdb h ld) (loadFail (bBank ld.bank)) (fun cl id n _ => loadBank cl (bBank ld.bank) (nodeMover cl id n 0 0) n ld none (denseSrcs ld)) s

/-- mx.gatha (14 R328). -/
def execMxGatha (h : Hdr) (ld : MxLoad) (icore ioff : Nat) (s : State) : Host.Outcome State Fault Refusal :=
  runMx (.mxGatha h ld icore ioff) (loadFail (aBank ld.bank))
    (fun cl id n _ t =>
      let es := entries16 t (8 * cl + icore) ioff ld.cnt
      let p := idxSpan cl icore ioff ld.cnt
      let m := nodeMover cl id n 0 0
      loadBank cl (aBank ld.bank) m n ld (spFault (coreOf t p.core) ioff p.len)
        (es.map (fun e => ⟨if rowNamed e then some (ld.off + e.1 * ld.stride) else none, e.2⟩)) (touchRange m (spRef p.core ioff) p.len t)) s

/-! Compressed rows. -/

/-- The n elements of w bits from an offset of granules, each with its poison. -/
def fieldsAt (w first n : Nat) (l : List Gran) : List (Nat × Bool) :=
  ((l.flatMap (fun g => (List.range (128 / w)).map (fun i => (bits g.v (w * i + w - 1) (w * i), g.bad)))).drop first).take n

/-- A range of global memory from an address below the first entry wanted: the named range in whole granules, and the bytes
before the first. -/
def aroundVa (va skip len : Nat) : Named × Nat :=
  let a := va + skip / 16 * 16
  (⟨.load, .matrix, a % 2 ^ 64, (skip % 16 + len + 15) / 16 * 16⟩, skip % 16)

/-- The rows of K that the row pointers give, as (row, entry) pairs in order (14 R329). Log 71, DEDUCED, unsafe. -/
def csrPairs : Nat → List Nat → List (Nat × Nat)
  | k, a :: b :: rest => (List.range (b - a)).map (fun i => (k, a + i)) ++ csrPairs (k + 1) (b :: rest)
  | _, _ => []

/-- Whether row pointers rise (14 R329). -/
def risingPtrs : List Nat → Bool
  | a :: b :: rest => decide (a ≤ b) && risingPtrs (b :: rest)
  | _ => true

/-- The bank after an assembly (14 R329): every line's elements are +0, then each value in order; values of poisoned source
poison their line, and a poisoned pointer or column number every line. -/
def csrFill (f : Fmt) (kcnt koff : Nat) (allBad : Bool) (vals : List (Nat × Nat × Nat × Bool)) (l : Latch) : Latch :=
  let z := (List.range 128).foldl (fun m j => writeLatch f j koff (List.replicate kcnt (0, allBad)) m) l
  vals.foldl (fun m v =>
    let (k, j, x, bad) := v
    { m with
      lines := m.lines.put j (AList.put (koff + k) x (m.lines.get [] j))
      bad := if bad then insertNat j m.bad else m.bad }) z

/-- mx.csrb reads the structure and assembles the bank (14 R329). -/
def csrAct (colidx vals kcnt koff b : Nat) (f : Fmt) (cl id : Nat) (n : Node) (l : List (List (Ref × Nat))) (s : State) :
    State × Option Nat :=
  if capacity f < koff + kcnt then (dropTag cl b s, some 0x424)
  else
    let mv := nodeMover cl id n 0 0
    let (rg, e1, s1) := readPieces mv (l.getD 0 []) s
    let ptrs := fieldsAt 32 0 (kcnt + 1) rg
    let ps := ptrs.map (fun e => e.1)
    let lo := ps.headD 0
    let cnt := ps.getLastD 0 - lo
    if !(risingPtrs ps) || decide (131072 < cnt) then (dropTag cl b s1, some 0x425)
    else
      let (cn, cskip) := aroundVa colidx (2 * lo) (2 * cnt)
      let (vn, vskip) := aroundVa vals (lo / perSlot f * 4) ((lo % perSlot f + cnt + perSlot f - 1) / perSlot f * 4)
      let names := if cnt = 0 then [] else [cn, vn]
      match resolveNamed (nodeWho s1 cl n) names s1 with
      | .error k => (dropTag cl b s1, some k)
      | .ok (m, s2) =>
        let (cg, e2, s3) := readPieces mv (m.getD 0 []) s2
        let (vg, e3, s4) := readPieces mv (m.getD 1 []) s3
        let cols := fieldsAt 16 (cskip / 2) cnt cg
        if cols.any (fun e => decide (128 ≤ e.1)) then (dropTag cl b s4, some 0x425)
        else
          let els := ((unpackGrans f vg).drop (vskip / 4 * perSlot f + lo % perSlot f)).take cnt
          let rows := csrPairs 0 (ps.map (fun p => p - lo))
          let put := (rows.zip (cols.zip els)).map (fun e => (e.1.1, e.2.1.1, e.2.2.1, e.2.2.2))
          let allBad := ptrs.any (fun e => e.2) || cols.any (fun e => e.2)
          let t := putLatch cl b (csrFill f kcnt koff allBad put (tagged n.core f (latchOf s4 cl b))) s4
          (modCluster cl (fun k => { k with nodes := k.nodes.map (fun p =>
            if p.1 = id then (id, { p.2 with vpns := p.2.vpns ++ namedPages s2 cl n.tenant { globs := names } }) else p) }) t,
            (e1.or e2).or e3)

/-- mx.csrb (14 R329). -/
def execMxCsrb (h : Hdr) (rowptr colidx vals kcnt koff : Nat) (bank : Bool) (fmt : Fmt) (s : State) : Host.Outcome State Fault Refusal :=
  runMx (.mxCsrb h rowptr colidx vals kcnt koff bank fmt) (loadFail (bBank bank)) (csrAct colidx vals kcnt koff (bBank bank) fmt) s

/-! Sets and runs. -/

/-- A set as mx.zero leaves it (14 R333). -/
def zeroSet (negz fp32 : Bool) : MxSet :=
  { fp32 := fp32, start := { fp := if negz then 0x80000000 else 0, negz := negz } }

/-- mx.zero (14 R333). -/
def execMxZero (h : Hdr) (negz acls : Bool) (s : State) : Host.Outcome State Fault Refusal :=
  runMx (.mxZero h negz acls) (fun _ _ t => t)
    (fun cl _ n _ t => (modLease cl n.core (fun l => { l with set := zeroSet negz acls }) t, none)) s

/-- A cell of a set. -/
def cellOf (m : MxSet) (i j : Nat) : Cell := (m.cells.find? (128 * i + j)).getD m.start

/-- Whether a format pair may run (14 R325). -/
def pairOk (a b : Fmt) : Bool :=
  let narrow (f : Fmt) : Bool := decide (f.width ≤ 8)
  (narrow a && narrow b) || (a == .bf16 && b == .bf16) || (a == .f16 && b == .f16)

/-- The class of a format pair (14 R325). -/
def pairFp32 (a : Fmt) : Bool := decide (a.width = 16)

/-- A finite product of two narrow operands in units of 2^-40 (12 R280). -/
def prodUnits : Exact → Int
  | .fin s m e _ =>
    let v : Int := ((m * 2 ^ (e + 40).toNat : Nat) : Int)
    if s then -v else v
  | _ => 0

/-- One product enters a cell of exact class (12 R280, R282). -/
def addExact (floats : Bool) (p : Exact) (c : Cell) : Cell :=
  match p with
  | .nan _ => { c with nan := true, negz := false }
  | .inf false => { c with pinf := true, negz := false }
  | .inf true => { c with ninf := true, negz := false }
  | .fin s m _ _ =>
    if m = 0 then (if floats && s then c else { c with negz := false })
    else { c with acc := sx 96 (ux 96 (c.acc + prodUnits p)), negz := false }

/-- One product enters a cell of FP32 class (12 R283). -/
def addFp (p : Exact) (c : Cell) : Cell := { c with fp := (roundF (addNum p (decodeF .f32 c.fp) 0) .f32 0 false 0).1 }

/-- The products of a cell in ascending k. -/
def cellProds (a b : Latch) (i j koff kcnt : Nat) : List Exact :=
  (List.range kcnt).map (fun k => mulNum (decodeNum a.fmt (latchElem a i (koff + k))) (decodeNum b.fmt (latchElem b j (koff + k))))

/-- A cell after a run (14 R335). -/
def runCell (fp32 : Bool) (a b : Latch) (i j koff kcnt : Nat) (c : Cell) : Cell :=
  let ps := cellProds a b i j koff kcnt
  let floats := isFloat a.fmt && isFloat b.fmt
  let d := if fp32 then ps.foldl (fun x p => addFp p x) c else ps.foldl (fun x p => addExact floats p x) c
  if a.bad.contains i || b.bad.contains j then { d with bad := true } else d

/-- The active cells of a run, row by row. -/
def activeCells (m n : Nat) : List (Nat × Nat) := (List.range m).flatMap (fun i => (List.range n).map (fun j => (i, j)))

/-- The set after a run (14 R335, R336). -/
def runSet (a b : Latch) (koff kcnt m n : Nat) (t : MxSet) : MxSet :=
  (activeCells m n).foldl (fun u e =>
    let (i, j) := e
    let add : Int := ((cellProds a b i j koff kcnt).map prodUnits).foldl (fun x y => x + y) 0
    { u with
      cells := u.cells.put (128 * i + j) (runCell t.fp32 a b i j koff kcnt (cellOf u i j))
      residue := if t.fp32 then u.residue else u.residue.put (j / 4) ((((u.residue.get 0 (j / 4) : Nat) : Int) + add) % 7).toNat })
    { t with ktotal := if t.fp32 then t.ktotal else t.ktotal + kcnt }

/-! Timing counters. -/

/-- Term pairs of a cell by window (14 R330). -/
def cellPairs (a b : Latch) (i j koff kcnt : Nat) : List Nat :=
  (chunksOf 8 kcnt ((List.range kcnt).map (fun k =>
    termsOf a.fmt (latchElem a i (koff + k)) * termsOf b.fmt (latchElem b j (koff + k))))).map (fun c => c.foldl (fun x y => x + y) 0)

/-- Sums and largest values by window over the active cells of a group (14 R330). -/
def groupPairs (a b : Latch) (koff kcnt m n g : Nat) : List Nat × List Nat :=
  let cells := (activeCells m n).filter (fun e => e.2 / 4 == g)
  let w := (kcnt + 7) / 8
  cells.foldl (fun acc e =>
    let p := cellPairs a b e.1 e.2 koff kcnt
    (List.zipWith (fun x y => x + y) acc.1 p, List.zipWith max acc.2 p)) (List.replicate w 0, List.replicate w 0)

/-- The skew recurrence over windows (14 R331): costs by window of every taking part group; ends and skews of the groups and
the times T of the windows done, the newest first. -/
def skewGo : List (List Nat) → List Nat → List Nat → List Nat → List Nat × List Nat
  | [], ends, skews, _ => (ends, skews)
  | cs :: rest, ends, skews, ts =>
    let lim := ts.getD 15 0
    let starts := ends.map (fun e => max e lim)
    let ends2 := List.zipWith (fun x y => x + y) starts cs
    let skews2 := List.zipWith (fun k e => k + (max e lim - e)) skews ends
    skewGo rest ends2 skews2 (ends2.foldl max 0 :: ts)

/-- What a run adds to its lessee's counters (14 R332), by dword of R339. -/
def runCounts (a b : Latch) (koff kcnt m n : Nat) : List (Nat × Nat) :=
  let w := (kcnt + 7) / 8
  let gs := List.range ((n + 3) / 4)
  let ps := gs.map (groupPairs a b koff kcnt m n)
  let costs := ps.map (fun p => p.2.map (fun v => (v + 15) / 16))
  let cols := (List.range w).map (fun i => costs.map (fun c => c.getD i 0))
  let r := skewGo cols (gs.map (fun _ => 0)) (gs.map (fun _ => 0)) []
  [(0, w), (1, (cols.filter (fun c => c.all (fun x => x == 0))).length), (2, 8 + r.1.foldl max 0)] ++
    gs.flatMap (fun g =>
      [(4 + 3 * g, (ps.getD g ([], [])).1.foldl (fun x y => x + y) 0), (5 + 3 * g, (costs.getD g []).foldl (fun x y => x + y) 0),
       (6 + 3 * g, r.2.getD g 0)])

/-- The first failing check of a run (14 R335). -/
def runFault (core koff kcnt : Nat) (a b : Latch) (m : MxSet) : Option Nat :=
  if !(a.valid && a.core == core && b.valid && b.core == core) then some 0x421
  else if !(pairOk a.fmt b.fmt) then some 0x422
  else if pairFp32 a.fmt != m.fp32 then some 0x423
  else if decide (capacity a.fmt < koff + kcnt) || decide (capacity b.fmt < koff + kcnt) then some 0x424
  else if !m.fp32 && decide (65536 < m.ktotal + kcnt) then some 0x424
  else none

/-- mx.run (14 R335). -/
def runAct (kcnt koff : Nat) (abank bbank : Bool) (m n cl : Nat) (d : Node) (s : State) : State × Option Nat :=
  let a := latchOf s cl (aBank abank)
  let b := latchOf s cl (bBank bbank)
  match leaseAt (clusterOf s cl) d.core with
  | none => (s, none)
  | some l =>
    match runFault d.core koff kcnt a b l.set with
    | some k => (s, some k)
    | none =>
      let cs := runCounts a b koff kcnt m n
      let bad := (List.range m).any (fun i => a.bad.contains i) || (List.range n).any (fun j => b.bad.contains j)
      let cyc := (cs.find? (fun e => e.1 == 2)).map (fun e => e.2)
      let skew := (cs.filter (fun e => decide (6 ≤ e.1) && e.1 % 3 == 0)).foldl (fun x e => x + e.2) 0
      let t := modLease cl d.core (fun l =>
        cs.foldl (fun l e => bumpCtr e.1 e.2 l) { l with set := runSet a b koff kcnt m n l.set }) s
      (count 0xA2 skew d.core (count 0xA1 (cyc.getD 0) d.core t), if bad then some 0x601 else none)

/-- mx.run (14 R334, R335). -/
def execMxRun (h : Hdr) (kcnt koff : Nat) (abank bbank : Bool) (m n : Nat) (s : State) : Host.Outcome State Fault Refusal :=
  runMx (.mxRun h kcnt koff abank bbank m n) (fun _ _ t => t) (fun cl _ d _ => runAct kcnt koff abank bbank m n cl d) s

/-! Drains. -/

/-- The lowest group whose residue differs from its register (14 R336, R338). -/
def residueFault (m : MxSet) : Option Nat :=
  if m.fp32 then none
  else
    (List.range 32).find? (fun g =>
      let sum : Int := (List.range 128).foldl (fun a i =>
        (List.range 4).foldl (fun b j => b + (cellOf m i (4 * g + j)).acc) a) 0
      (sum % 7).toNat != m.residue.get 0 g)

/-- What a cell drains to (12 R281 to R283; 14 R338). -/
def cellOut (fp32 : Bool) (d : MxDrain) (mode u : Nat) (c : Cell) : Nat :=
  if fp32 then
    if d.int32 then ux 32 (cvtInt (decodeF .f32 c.fp) 32 true mode u).1 else c.fp
  else if c.nan || (c.pinf && c.ninf) then (if d.int32 then 0 else 0x7FC00000)
  else if c.pinf then (if d.int32 then 0x7FFFFFFF else if d.sat then 0x7F7FFFFF else 0x7F800000)
  else if c.ninf then (if d.int32 then 0x80000000 else if d.sat then 0xFF7FFFFF else 0xFF800000)
  else if c.acc = 0 then (if d.int32 then 0 else if mode = 2 ∨ c.negz then 0x80000000 else 0)
  else
    let v : Exact := .fin (decide (c.acc < 0)) c.acc.natAbs (-40) false
    if d.int32 then ux 32 (cvtInt v 32 true mode u).1 else (roundF v .f32 mode false u).1

/-- The words of an output row, each with its poison (14 R338). -/
def drainRow (m : MxSet) (d : MxDrain) (mode : Nat) (u : Nat → Nat) (i : Nat) : List (Nat × Bool) :=
  (List.range d.n).map (fun j => (cellOut m.fp32 d mode (u (128 * i + j)) (cellOf m i j), (cellOf m i j).bad))

/-- Words are written at a reference of global memory (14 R338). -/
def writeWordsAt (m : Mover) (r : Ref) (ws : List (Nat × Bool)) (s : State) : State :=
  let bs : AList Nat := (ws.zipIdx.map (fun e => bytesOf (4 * e.2) e.1.1 4)).flatten
  let t := if r.kind = 3 then storeHost r.pa bs s else storeOwn m r bs s
  ws.zipIdx.foldl (fun v e => if e.1.2 then poisonGran { r with pa := r.pa + 4 * e.2 } v else v) t

/-- Words are written over the pieces of a global row. -/
def writeRow (m : Mover) : List (Ref × Nat) → List (Nat × Bool) → State → State
  | [], _, s => s
  | (r, n) :: rest, ws, s => writeRow m rest (ws.drop (n / 4)) (writeWordsAt m r (ws.take (n / 4)) s)

/-- The granules of a row of words: the bytes past the last word are 0 (14 R338). -/
def rowGrans (ws : List (Nat × Bool)) : List Gran :=
  (chunksOf 4 ws.length ws).map (fun c => ⟨c.zipIdx.foldl (fun a e => a + e.1.1 * 2 ^ (32 * e.2)) 0, c.any (fun e => e.2)⟩)

/-- mx.drain (14 R338). -/
def drainAct (d : MxDrain) (cl id : Nat) (n : Node) (l : List (List (Ref × Nat))) (s : State) : State × Option Nat :=
  match leaseAt (clusterOf s cl) n.core with
  | none => (s, none)
  | some lease =>
    match residueFault lease.set with
    | some g => (s, some (0x640 + g))
    | none =>
      let row := drainRow lease.set d (rmOf n d.rm) (engineDraw s)
      let t := (List.range d.m).foldl (fun u i =>
        if d.dst then writeRow (nodeMover cl id n 0 0) (l.getD i []) (row i) u
        else
          let p := drainSpan cl d i
          writeRange (nodeMover cl id n 0 0) (spRef p.core p.off) (rowGrans (row i)) u) s
      let v := if d.clr then modLease cl n.core (fun k => { k with set := zeroSet false k.set.fp32 }) t else t
      let bad := (List.range d.m).any (fun i => (row i).any (fun e => e.2))
      ({ v with free := v.free + 16384 }, if bad then some 0x601 else none)

/-- mx.drain (14 R337, R338). -/
def execMxDrain (h : Hdr) (dr : MxDrain) (s : State) : Host.Outcome State Fault Refusal :=
  runMx (.mxDrain h dr) (fun _ _ t => t) (drainAct dr) s

/-- mx.stat (14 R339). -/
def execMxStat (h : Hdr) (clr : Bool) (core off : Nat) (s : State) : Host.Outcome State Fault Refusal :=
  runMx (.mxStat h clr core off) (fun _ _ t => t)
    (fun cl id n _ t =>
      match leaseAt (clusterOf t cl) n.core with
      | none => (t, none)
      | some l =>
        let gs := (List.range 50).map (fun i => (⟨l.ctrs.get 0 (2 * i) + 2 ^ 64 * l.ctrs.get 0 (2 * i + 1), false⟩ : Gran))
        let u := writeRange (nodeMover cl id n 0 0) (spRef (8 * cl + core) off) gs t
        (if clr then modLease cl n.core (fun m => { m with ctrs := [] }) u else u, none)) s

end Sys2Proof.Machine

end
end

