-- ==== Sys2Proof/Machine/Complete.lean ====
section
/-!
DEFINITION. The completion of a node (15 R350, R352, R354, R355; 07 R148, R149; 19 R434).
-/

noncomputable section

namespace Sys2Proof.Machine

open Sys2Proof

/-- The tiles a node named become thread-owned (03 R62). -/
def giveBack (tiles : List (Nat × Nat)) (s : State) : State :=
  tiles.foldl (fun t e => modCore e.1 (fun x => { x with owner := removeNat e.2 x.owner }) t) s

/-- A completion word after an arrival (15 R354, R355). -/
def arriveWord (err : Option Nat) (w : Nat) : Nat :=
  let n := min (w % 2 ^ 24 + 1) (2 ^ 24 - 1)
  let v := w / 2 ^ 24 * 2 ^ 24 + n
  match err with
  | some k => if bit w 63 then v else (setBits (wd v) 59 48 k).toNat + 2 ^ 63
  | none => v

/-- An arrival at a completion word (15 R355; 03 R55, R70). -/
def arrive (core idx : Nat) (err : Option Nat) (s : State) : State :=
  let off := 8 * idx
  let w := arriveWord err (spRead s core off 8)
  let t := spWrite none core (bytesOf off w 8) (count 0x40 1 core s)
  if w % 2 ^ 24 = bits w 47 24 then tagChange core off true t else t

/-- The message that raises a node's route tag (15 R350). -/
def rtagMsg (s : State) (id : Nat) (n : Node) (tag : Nat) : Msg :=
  let v := match n.err with
    | some k => 2 ^ 63 + k % 2 ^ 12 * 2 ^ 48 + id
    | none => id
  { tenant := n.tenant, src := n.core, mod := s.modIdx, core := n.core, tag := tag, payload := [wd v], posted := true
    sup := n.sup, scope := .c, gen := 0, nacks := 0, held := false }

/-- Whether an earlier command of a stream this node used is not complete (19 R434). -/
def streamHeld (k : ClusterSt) (n : Node) : Bool :=
  k.nodes.any (fun e => e.2.st == .launched && decide (e.2.order < n.order) && e.2.dsts.any (fun d => n.dsts.contains d))

/-- An engine trap becomes pending on a core (15 R350; 18 R418): a ninth is dropped and sets ELOST. -/
def pendTrap (c cause id : Nat) (s : State) : State :=
  modCore c (fun x =>
    if x.trapQ.length < 8 then { x with trapQ := x.trapQ ++ [⟨cause, id⟩] } else { x with status := x.status ||| 0x100 }) s

/-- A class 6 error of a command in a containment domain is the domain's (20 R454). -/
def cmdDomError (dom cause : Nat) (s : State) : State :=
  { s with doms := s.doms.map (fun e => if e.2.id = dom ∧ e.2.err = none then (e.1, { e.2 with err := some cause }) else e) }

/-- The first two completion steps (15 R350): the tiles are returned and the successors decremented, once. -/
def giveSteps (cl : Nat) (n : Node) (s : State) : State :=
  if n.given then s
  else
    let s1 := if (cmdHdr n.cmd).giveback then giveBack n.tiles s else s
    tick cl (n.succs.foldl (fun t i => decNode cl i n.err t) s1)

/-- The last completion steps (15 R350): the arrival, the release of the node, and what an error brings. -/
def endSteps (cl id : Nat) (n : Node) (s : State) : State :=
  let h := cmdHdr n.cmd
  let s4 := if h.cidx = 0 then s else arrive n.core h.cidx n.err s
  let s5 := modCluster cl (fun k => { k with nodes := k.nodes.del id }) s4
  let s6 : State := { s5 with txns := s5.txns.map (fun t => if t.node = some (cl, id) then { t with node := none } else t) }
  match n.err with
  | none => s6
  | some k =>
    let s7 := if h.traperr then pendTrap n.core k id s6 else s6
    if h.cdscoped && k / 256 == 6 then cmdDomError n.dom k s7 else s7

/-- The completion steps of a node (15 R350), in order: where the message that raises its route tag is refused, the steps before
stand and the rest waits (08 R177). -/
def completeSteps (cl id : Nat) (n : Node) (s : State) : State :=
  let h := cmdHdr n.cmd
  let s2 := giveSteps cl n s
  if h.rtag = 0 then endSteps cl id n s2
  else
    match takeMsg n.core (rtagMsg s2 id n h.rtag) s2 with
    | (t, true) => endSteps cl id n t
    | (t, false) => putNode cl id { n with given := true } t

/-- The pipe of a matrix command and what it shares (14 R324): the latch banks it writes or reads, and whether it touches the
accumulator set. -/
structure MxUse where
  pipe : Nat
  banks : List Nat := []
  set : Bool := false
  pad : Option Nat := none
  deriving DecidableEq, Repr

/-- What a matrix command uses (14 R324). -/
def mxUse : Instr → Option MxUse
  | .mxDensa _ ld => some { pipe := 0, banks := [aBank ld.bank], pad := some ld.core }
  | .mxGatha _ ld _ _ => some { pipe := 0, banks := [aBank ld.bank], pad := some ld.core }
  | .mxLdb _ ld => some { pipe := 0, banks := [bBank ld.bank], pad := some ld.core }
  | .mxCsrb _ _ _ _ _ _ b _ => some { pipe := 0, banks := [bBank b] }
  | .mxRun _ _ _ a b _ _ => some { pipe := 1, banks := [aBank a, bBank b], set := true }
  | .mxZero _ _ _ => some { pipe := 2, set := true }
  | .mxDrain _ _ => some { pipe := 2, set := true }
  | .mxStat _ _ _ _ => some { pipe := 2, set := true }
  | _ => none

/-- Whether a matrix command waits for an earlier-launched one (14 R324): they share a latch bank, the set of a lessee, the run or
set pipe, or a load's scratchpad. -/
def mxMeets (a b : MxUse) (mine : Bool) : Bool :=
  a.banks.any (fun k => b.banks.contains k) || (a.set && b.set && mine) || (a.pipe == b.pipe && a.pipe != 0) ||
    (a.pipe == 0 && b.pipe == 0 && a.pad.isSome && a.pad == b.pad)

/-- Whether a launched matrix node cannot have completed (14 R324): an earlier-launched one that it waits for has not, or eight
earlier loads are in flight. -/
def mxHeld (k : ClusterSt) (n : Node) : Bool :=
  match mxUse n.cmd with
  | none => false
  | some u =>
    let before := k.nodes.filterMap (fun e => if e.2.st == .launched && decide (e.2.order < n.order) then (mxUse e.2.cmd).map (fun v => (e.2, v)) else none)
    before.any (fun e => mxMeets u e.2 (e.1.core == n.core && e.1.gtid == n.gtid)) ||
      (u.pipe == 0 && decide (8 ≤ (before.filter (fun e => e.2.pipe == 0)).length))

/-- Whether a node's accesses are performed and acknowledged (07 R149), with every earlier command of its stream (19 R434) and every
matrix command that it waits for complete (14 R324). -/
def nodeDone (s : State) (cl id : Nat) (n : Node) : Bool :=
  n.st == .launched && n.done && (AList.find? s.dead (clDie cl)).isNone && !(nodeBusy s cl id) && !(streamHeld (clusterOf s cl) n) &&
    !(mxHeld (clusterOf s cl) n)

/-- Whether a node's release of scope .s must still wait (07 R148): for the write-backs of its die, for stores that wait there, and
for the pushing task's atomics and reductions at other modules. -/
def relWaits (s : State) (cl : Nat) (n : Node) : Bool := rpBusy s (clDie cl) || parked s n.core || gtidOut s n.gtid

/-- A node completes (15 R350): with a release of scope .s not before the remote partition is written back (07 R148). -/
def completeNode (cl id : Nat) (s : State) : State :=
  match nodeOf s cl id with
  | none => s
  | some n =>
    if !(nodeDone s cl id n) then s
    else
      let h := cmdHdr n.cmd
      if h.cscope = .s ∧ h.cidx ≠ 0 ∧ n.rel = false then putNode cl id { n with rel := true } (rpSend n.core s)
      else if n.rel && relWaits s cl n then s
      else completeSteps cl id n s

/-- NODE_COMPLETE (15 R350). -/
def execNodeComplete (cl node : Nat) (s : State) : Host.Outcome State Fault Refusal := .next (completeNode cl node s)

end Sys2Proof.Machine

end
end

