-- ==== Sys2Proof/Machine/Fabric.lean ====
section
/-!
DEFINITION. Fabric transactions after they have left their source (19 R433 to R449; 04 R86; 07 R149): arrival, in stream
order, acknowledgement, failure, stale die maps, rotor slots, and the loss of wavelengths, fibres, planes, ports and modules.
-/

noncomputable section

namespace Sys2Proof.Machine

open Sys2Proof

/-- A fabric transaction by its number. -/
def txnOf (s : State) (k : Nat) : Option Txn := s.txns.find? (fun t => t.id == k)
/-- A transaction leaves the list. -/
def dropTxn (k : Nat) (s : State) : State := { s with txns := s.txns.filter (fun t => t.id != k) }
/-- Replaces a transaction. -/
def setTxn (t : Txn) (s : State) : State := { s with txns := s.txns.map (fun u => if u.id = t.id then t else u) }

/-- Whether every earlier transaction of a stream has been performed (19 R434). -/
def inTurn (s : State) (t : Txn) : Bool :=
  !(s.txns.any (fun u => u.src == t.src && u.dst == t.dst && u.stream == t.stream && decide (u.num < t.num) && !u.performed))

/-! Arrival at another module. -/

/-- Sixteen bytes of another module's memory. -/
def remGran (s : State) (pa : Nat) : Gran :=
  { v := Memory.readN s.remMem (remKey pa) 16, bad := s.remBad.contains (remKey pa / 128) }

/-- The result of a remote atomic, or what an sc answers, reaches its window (04 R86; 11 R255; 18 R422). Log 52, DEDUCED,
unsafe. -/
def amoArrive (c k op : Nat) (dbl : Bool) (old : Nat) (s : State) : State :=
  let v := if op = 12 then wd old else amoResult op dbl old
  modCore c (fun x =>
    match x.windows.findIdx? (fun w => w.st == .waitTxn k) with
    | none => x
    | some i =>
      match x.windows[i]? with
      | none => x
      | some w =>
        let w2 := { w with xval := (w.dx.take 1).map (fun r => (r, v)) }
        closeWins { deliverWin w2 x with windows := setAt i (arrivedWin w2) x.windows }) (clearStall c s)

/-- Writes of a transaction reach the lines of its target (19 R434; 06 R134). -/
def putRemote (t : Txn) (addr : Nat) (bs : AList Nat) (s : State) : State :=
  (linesOf addr ((bs.getLast?.map (fun e => e.1 + 1)).getD 0)).foldl (fun u l =>
    breakResv t.core l (remWrite l t.key (lineBytes addr l bs) u)) s

/-- Poisoned bytes of a write, by offset from its address, poison their lines at another module (05 R96). -/
def spoilRemote (addr : Nat) (bad : List Nat) (s : State) : State :=
  { s with remBad := bad.foldl (fun l o => insertNat (remKey (addr + o) / 128) l) s.remBad }

/-- Whether an address of another module lies on a poisoned line there (05 R96). -/
def remSpoiled (s : State) (addr : Nat) : Bool := s.remBad.contains (remKey addr / 128)

/-- A window that awaits transaction k receives a fault (18 R422). -/
def faultWindow (k cause : Nat) (w : Window) : Window :=
  match w.txns.find? (fun e => e.1 == k) with
  | none => w
  | some e =>
    let bad : Window := { w with st := .faulty cause (wd e.2), xval := [], tval := [], flags := 0 }
    match w.st with
    | .flying => bad
    | .waitTxn _ => bad
    | _ => w

/-- The window of core c that awaits transaction k receives a fault (18 R422). -/
def amoFault (c k cause : Nat) (s : State) : State :=
  modCore c (fun x => { x with windows := x.windows.map (faultWindow k cause) }) (clearStall c s)

/-- Who moves the bytes that a pull brings. -/
def pullMover (t : Txn) (fill : Bool) : Mover :=
  { stream := t.stream, node := t.node, tenant := t.tenant, fill := fill, rack := true, planes := t.planes, path := t.path }

/-- The cause of a failed transaction reaches its command, or the hub copy of queue cl - 128 (15 R366; 17 R395). -/
def noteFail (cl id cause : Nat) (s : State) : State :=
  if cl < 128 then noteErr cl id (some cause) s
  else modQ (cl - 128) (fun q => { q with copies := q.copies.map (fun e =>
    if e.1 = id then (id, e.2.1, e.2.2.or (some cause)) else e) }) s

/-- What a transaction of this module does at its target (19 R434; 15 R361; 11 R255; 04 R79); an atomic that meets poison there has a
fault and no effect (05 R96). Whether the target still holds the reservation of an sc is its own (06 R135): a free value. Log 8, DESIGN
CHOICE. Log 13, DESIGN CHOICE, unsafe. -/
def performOut (t : Txn) (s : State) : State :=
  match t.op with
  | .fetch => s
  | .write bs bad => spoilRemote t.addr bad (putRemote t t.addr bs s)
  | .red op dbl v =>
    let n := if dbl then 8 else 4
    putRemote t t.addr (bytesOf 0 (combine op (8 * n) (Memory.readN s.remMem (remKey t.addr) n) v) n) s
  | .amo op dbl v new =>
    let n := if dbl then 8 else 4
    let lost := op == 12 && Config.coin s.free
    let old := if op = 12 then (if lost then 1 else 0) else Memory.readN s.remMem (remKey t.addr) n
    let s1 : State := if op = 12 then { s with free := s.free + 1 } else s
    let u := match amoNew op (8 * n) v new old with
      | some w => if lost then s1 else putRemote t t.addr (bytesOf 0 w n) s1
      | none => s1
    match t.core with
    | some c => if remSpoiled s t.addr then amoFault c t.id 0x601 s else amoArrive c t.id op dbl old u
    | none => u
  | .pull n kind pa key home fill =>
    let l := (List.range (n / 16)).map (fun i => remGran s (t.addr + 16 * i))
    let u := writeRange (pullMover t fill) { kind := kind, pa := pa, key := key, home := home } l s
    match t.node with
    | some (cl, id) =>
      let v := if cl < 128 then countCluster 0xB1 n cl u else u
      if l.any (fun g => g.bad) then noteFail cl id 0x601 v else v
    | none => u
  | .msg _ => s
  | .notify _ => s

/-- A transaction of this module is performed at its target: a posted one is done with (07 R149). -/
def arriveOut (t : Txn) (s : State) : State :=
  let u := performOut t s
  if t.ack then setTxn { t with performed := true } u else dropTxn t.id u

/-! Arrival at this module. -/

/-- The logical die that a transaction names (19 R446). -/
def targetDie (t : Txn) : Option Nat :=
  match t.op with
  | .msg m => some (dOf m.core)
  | .notify n => some (dOf n.dst)
  | _ => if kindOfPa (t.addr % 2 ^ 42) = some 0 then some (t.addr % 2 ^ 42 / 2 ^ 37) else none

/-- GEN of a die's entry in the die's own routers (19 R445). -/
def dieGen (s : State) (d : Nat) : Nat := (dieMapOf (clusterOf s (16 * d)) d).toNat % 65536
/-- MAPGEN of a die's own routers (19 R445). -/
def dieMapgen (s : State) (d : Nat) : Nat := (clusterOf s (16 * d)).mapgen

/-- What another module's transaction does here (19 R434; 02 R22, R43): one whose target cannot be accessed does nothing here,
and its module learns of it. Log 13, DESIGN CHOICE, unsafe; log 90, DEDUCED, unsafe. -/
def performIn (t : Txn) (s : State) : State :=
  let addr := 2 ^ 50 + s.modIdx * 2 ^ 42 + t.addr % 2 ^ 42
  let fits (pa : Nat) : Bool :=
    match loopFault s pa t.key with
    | none => true
    | some k => k == 0x601
  let own : Ref := { kind := (kindOfPa (addr % 2 ^ 42)).getD 0, pa := addr % 2 ^ 42, key := t.key, home := 0xFF }
  let gen := (keyGenOf s t.key).getD 0
  match t.op with
  | .fetch => if loopFault s addr t.key = none then homeRead none own s else s
  | .pull n _ _ _ _ _ => (linesOf addr n).foldl (fun u l => if fits (l * 128) then homeRead none { own with pa := l * 128 % 2 ^ 42 } u else u) s
  | .write bs bad =>
    let u := (linesOf addr ((bs.getLast?.map (fun e => e.1 + 1)).getD 0)).foldl (fun u l =>
      if fits (l * 128) then remWrite l t.key (lineBytes addr l bs) u else u) s
    bad.foldl (fun u o => if fits (addr + o) then poisonLine (place u own.kind (own.pa + o) / 128) u else u) u
  | .red op dbl v => if fits addr then combineHome none none own op (if dbl then 8 else 4) v (recallLine (own.pa / 128) s) else s
  | .amo op dbl v new =>
    let n := if dbl then 8 else 4
    if loopFault s addr t.key = none then
      let u := homeRead none own s
      match amoNew op (8 * n) v new (bytesAt u own.kind gen own.pa n) with
      | none => u
      | some w => breakResv none (own.pa / 128) (homeWrite none own.kind (own.pa / 128) gen (bytesOf (own.pa % 128) w n) u)
    else s
  | .msg m => modCluster (clOf m.core) (fun k => { k with msgs := k.msgs ++ [m] }) s
  | .notify n => modCluster (clOf n.dst) (fun k => { k with notes := k.notes ++ [n] }) s

/-- A transaction of another module arrives (19 R446): one with a stale generation is refused, and its module sends it again
under the new generation, up to 64 times; one with a newer generation waits. Log 90, DEDUCED, unsafe. -/
def arriveIn (t : Txn) (s : State) : State :=
  match targetDie t with
  | none => dropTxn t.id (performIn t s)
  | some d =>
    if newer (dieGen s d) t.gen then
      countAll 0xC7 1 (if 63 ≤ t.nacks then dropTxn t.id s else setTxn { t with gen := dieGen s d, nacks := t.nacks + 1 } s)
    else if newer t.gen (dieMapgen s d) then s
    else dropTxn t.id (performIn t s)

/-- A transaction to be relayed enters the relay buffer while credit lasts (19 R440, R441); left is its number of flits. -/
def arriveRelay (t : Txn) (s : State) : State :=
  let used := AList.get 0 s.relayCredit t.src
  if relayOn s && decide (used + t.left ≤ 4096) then
    let u := dropTxn t.id s
    { u with relayBuf := u.relayBuf ++ [t], relayCredit := AList.put t.src (used + t.left) u.relayCredit }
  else s

/-! Answers. -/

/-- A send has its result, or a posted message is lost (16 R381; 19 R449): result 0 is acceptance. -/
def sendResult (m : Msg) (v : Nat) (s : State) : State :=
  if m.mod ≠ s.modIdx then s
  else if m.posted then (if v = 0 then s else countAll 0xC8 1 s)
  else if (coreOf s m.src).sendReq = .waiting then
    modCore m.src (fun x => { x with sendReq := .result v }) s
  else s

/-- An acknowledgement reaches this module (19 R440). -/
def ackReceive (k : Nat) (s : State) : State :=
  match txnOf s k with
  | none => s
  | some t =>
    if t.src = s.modIdx ∧ t.performed = true then
      let u := dropTxn k s
      match t.op with
      | .msg m => sendResult m 0 u
      | _ => u
    else s

/-- FABRIC_ACK_RECEIVE (19 R440). -/
def execFabricAckReceive (k : Nat) (s : State) : Host.Outcome State Fault Refusal := .next (ackReceive k s)

/-- A fetch of core c's die fails (04 R86): its load receives the fault, and the line keeps only bytes that were stored. -/
def failFetch (c k cause line : Nat) (s : State) : State :=
  modDie (dOf c) (fun x =>
    { x with rp := x.rp.filterMap (fun l =>
        if l.line = line then
          (if l.dirty.isEmpty then none else some { l with bytes := l.bytes.filter (fun e => l.dirty.contains e.1) })
        else some l) }) (amoFault c k cause s)

/-- A write-back of core c's die fails (04 R86): it is lost, and what waits for it with scope .s receives the cause. -/
def failWriteback (c cause line : Nat) (s : State) : State :=
  let d := dOf c
  let t := countAll 0xC9 1 (modDie d (fun x => { x with rp := x.rp.filter (fun l => l.line != line) }) s)
  let waiting := (List.range 128).filter (fun i => (coreOf t (128 * d + i)).rpWait && (coreOf t (128 * d + i)).run == .running)
  let u := waiting.foldl (fun v i =>
    let k := 128 * d + i
    takeTrap k cause (wd (line * 128)) (coreOf v k).pc (clearStall k v)) t
  forN 16 (fun i v =>
    modCluster (16 * d + i) (fun k =>
      { k with nodes := k.nodes.map (fun e => if e.2.rel then (e.1, { e.2 with err := e.2.err.or (some cause) }) else e) }) v) u

/-- A transaction of this module fails (04 R86; 07 R149; 15 R366; 16 R381). -/
def failTxn (t : Txn) (cause : Nat) (s : State) : State :=
  let u := dropTxn t.id s
  let plain (v : State) : State :=
    match t.node with
    | some (cl, id) => if t.ack then noteFail cl id cause v else countAll 0xC9 1 v
    | none => countAll 0xC9 1 v
  match t.op with
  | .msg m => sendResult m (if cause / 256 = 7 then 2 else 1) u
  | .notify _ => u
  | .fetch =>
    match t.core with
    | some c => failFetch c t.id cause (t.addr / 128) u
    | none => plain u
  | .amo _ _ _ _ =>
    match t.core with
    | some c => amoFault c t.id cause u
    | none => plain u
  | .write _ _ =>
    match t.core with
    | some c => failWriteback c cause (t.addr / 128) u
    | none => plain u
  | .red _ _ _ => plain u
  | .pull _ _ _ _ _ _ => plain u

/-- Whether a cause is one that a transaction can fail with: its target's refusal, poison there, or the fabric's (04 R86; 19
R448). Log 91, DEDUCED, unsafe. -/
def failCause (cause : Nat) : Bool := [2, 3, 6, 7].contains (cause / 256)

/-- A transaction of this module that has not been performed fails. Log 91, DEDUCED, unsafe. -/
def txnFail (k cause : Nat) (s : State) : State :=
  match txnOf s k with
  | none => s
  | some t => if t.src = s.modIdx ∧ t.performed = false ∧ failCause cause = true then failTxn t cause s else s

/-- REMOTE_TXN_FAIL (04 R86). -/
def execRemoteTxnFail (k cause : Nat) (s : State) : Host.Outcome State Fault Refusal := .next (txnFail k cause s)

/-- FABRIC_RESEND_TIMEOUT (19 R448): 1 s of resends. -/
def execFabricResendTimeout (k : Nat) (s : State) : Host.Outcome State Fault Refusal :=
  .next (if (txnOf s k).any (fun t => decide (t.since + 10 ^ 9 ≤ s.time)) then txnFail k 0x702 s else s)

/-! Die maps. -/

/-- A message that an NI carries meets a stale generation (19 R446): it is resolved again, and fails after 64 such answers. -/
def mapNack (cl k : Nat) (s : State) : State :=
  match (clusterOf s cl).msgs[k]? with
  | none => s
  | some m =>
    if newer (dieGen s (dOf m.core)) m.gen then
      let t := countAll 0xC7 1 s
      if 63 ≤ m.nacks then sendResult m 2 (modCluster cl (fun x => { x with msgs := dropAt k x.msgs }) t)
      else modCluster cl (fun x => { x with msgs := setAt k { m with gen := x.mapgen, nacks := m.nacks + 1 } x.msgs }) t
    else s

/-- MAP_NACK_RECEIVE (19 R446). -/
def execMapNackReceive (cl k : Nat) (s : State) : Host.Outcome State Fault Refusal := .next (mapNack cl k s)

/-- MAP_PREPARE (19 R447): a router receives a new entry and keeps its current map. -/
def execMapPrepare (cl e : Nat) (v : Word) (s : State) : Host.Outcome State Fault Refusal :=
  .next (if e < 16 then
      modCluster cl (fun k => { k with mapNext := k.mapNext.put e (fieldWrite 0xFFFC00000000FFFF 0 0 v.toNat 0) }) s
    else s)

/-- A router switches its entries and MAPGEN (19 R447), and the list of live dies follows the module's map (01 R15; 02 R28). -/
def mapCommit (cl : Nat) (s : State) : State :=
  let k := clusterOf s cl
  match k.mapNext.getLast? with
  | none => s
  | some last =>
    setLive (setCluster cl { k with
      diemap := k.mapNext.foldl (fun m e => AList.put e.1 e.2 m) k.diemap
      mapgen := last.2.toNat % 65536
      mapNext := [] } s)

/-- MAP_COMMIT (19 R447). -/
def execMapCommit (cl : Nat) (s : State) : Host.Outcome State Fault Refusal := .next (mapCommit cl s)

/-! Wavelengths, fibres and planes. -/

/-- The number of a wavelength (02 R45). -/
def wlIdx (p f w : Nat) : Nat := 64 * p + 8 * f + w
/-- STATE of a wavelength (19 R444). -/
def wlState (s : State) (i : Nat) : Nat := bits (AList.get 0 s.wlstat i).toNat 63 62
/-- Sets STATE of a wavelength. -/
def setWlState (i st : Nat) (s : State) : State := { s with wlstat := AList.put i (setBits (AList.get 0 s.wlstat i) 63 62 st) s.wlstat }
/-- Whether a wavelength of a fibre retrains. -/
def fibreRetrains (s : State) (p f : Nat) : Bool := (List.range 8).any (fun w => wlState s (wlIdx p f w) == 1)

/-- A wavelength whose count has reached the threshold retrains, or waits its turn (19 R443, R444). Log 87, DEDUCED, unsafe.
-/
def wlCheck (p f w : Nat) (s : State) : State :=
  let i := wlIdx p f w
  if wlState s i = 0 ∧ s.wlthr.toNat ≤ bits (AList.get 0 s.wlstat i).toNat 31 0 then
    (if fibreRetrains s p f then setWlState i 2 s else countAll 0xC5 1 (setWlState i 1 s))
  else s

/-- The symbols a wavelength has corrected in its window (19 R443): a free value, for what the fibre suffers is not the
module's. Log 111, DESIGN CHOICE. -/
def symbolsSeen (i : Nat) (s : State) : State :=
  { s with wlstat := AList.put i (setBits (AList.get 0 s.wlstat i) 31 0 (Config.word s.free).toNat) s.wlstat, free := s.free + 1 }

/-- Every wavelength of a plane has its count compared with the threshold. Log 87, DEDUCED, unsafe; log 111, DESIGN CHOICE,
safe. -/
def planeCheck (p : Nat) (s : State) : State := forN 64 (fun i t => wlCheck p (i / 8) (i % 8) (symbolsSeen (64 * p + i) t)) s

/-- A retrained wavelength rejoins, and the next that waits on its fibre begins (19 R443). -/
def wlDone (p f w : Nat) (s : State) : State :=
  let i := wlIdx p f w
  if wlState s i = 1 then
    let v := (AList.get 0 s.wlstat i).toNat
    let n := min (bits v 61 32 + 1) (2 ^ 30 - 1)
    let t : State := { s with
      wlstat := AList.put i (wd (n * 2 ^ 32)) s.wlstat
      lifetime := { s.lifetime with retrain := AList.put i (AList.get 0 s.lifetime.retrain i + 1) s.lifetime.retrain } }
    match (List.range 8).find? (fun k => wlState t (wlIdx p f k) == 2) with
    | some k => countAll 0xC5 1 (setWlState (wlIdx p f k) 1 t)
    | none => t
  else s

/-- WL_RETRAIN_DONE (19 R443). -/
def execWlRetrainDone (plane fibre wl : Nat) (s : State) : Host.Outcome State Fault Refusal := .next (wlDone plane fibre wl s)

/-- FLIT_CHECK_FAILURE (19 R432, R442): the flit is sent again from a replay buffer; the electrical links stand above the 16
planes. -/
def execFlitCheckFailure (plane fibre wl : Nat) (s : State) : Host.Outcome State Fault Refusal :=
  let t := countAll 0xC6 1 s
  .next (if plane < 16 ∧ fibre < 8 ∧ wl < 8 then wlCheck plane fibre wl t else t)

/-- Two wavelengths of a fibre fail together (19 R443, R444): which two is a free value. Log 111, DESIGN CHOICE. -/
def failTwo (p f : Nat) (s : State) : State :=
  let a := (Config.word s.free).toNat % 8
  let b := (a + 1 + (Config.word (s.free + 1)).toNat % 7) % 8
  setWlState (wlIdx p f b) 3 (setWlState (wlIdx p f a) 3 { s with free := s.free + 2 })

/-- FIBRE_LOSS (19 R443): the fibre leaves service. -/
def execFibreLoss (plane fibre : Nat) (s : State) : Host.Outcome State Fault Refusal :=
  .next (if plane < 16 ∧ fibre < 8 then
      modPlane plane (fun p => { p with fibresLost := insertNat fibre p.fibresLost }) (failTwo plane fibre s)
    else s)

/-- PLANE_LOSS (20 R462; 19 R438): the queued flits find other planes, or none. -/
def execPlaneLoss (k : Nat) (s : State) : Host.Outcome State Fault Refusal :=
  .next (if k < 16 then modPlane k (fun p => { p with lost := true }) s else s)

/-! Rotor slots. -/

/-- The rate of a plane in sixty-fourths (19 R443): a fibre in service counts 8, or 7 while a wavelength retrains. -/
def planeRate (s : State) (p : Nat) : Nat :=
  ((List.range 8).map (fun f =>
    if (planeOf s p).fibresLost.contains f then 0 else if fibreRetrains s p f then 7 else 8)).sum
/-- Flits that a slot of a plane carries (19 R435, R443). -/
def slotFlits (s : State) (p : Nat) : Nat := (bits (planeOf s p).cfg.toNat 31 27 * 1000 - 250) * 7 * planeRate s p / 128

/-- A send queue's flits that go directly (19 R438), in order: a transaction that the plane may not carry keeps its stream
back. The transactions, and the flits of room left. Log 89, DEDUCED, unsafe. -/
def drawDirect (s : State) (p peer : Nat) : Nat → List Nat → List Txn → List Txn × Nat
  | room, _, [] => ([], room)
  | room, held, t :: rest =>
    if t.src != s.modIdx || t.dst != peer || t.left == 0 || sameYard s t.dst then
      let r := drawDirect s p peer room held rest
      (t :: r.1, r.2)
    else if held.contains t.stream || !((planesOf t.planes).contains p) then
      let r := drawDirect s p peer room (t.stream :: held) rest
      (t :: r.1, r.2)
    else
      let n := min t.left room
      let r := drawDirect s p peer (room - n) (if n = t.left then held else t.stream :: held) rest
      ({ t with left := t.left - n } :: r.1, r.2)

/-- Whether the peer of the current slot is the intermediate for a transaction (19 R439, R441). -/
def relayHere (s : State) (p peer : Nat) (t : Txn) : Bool :=
  let far := match slotsUntil s t.planes t.dst with
    | some k => decide (bits s.relaycfg.toNat 42 36 < k)
    | none => true
  let best (k : Nat) : Bool := (linkedIn s t.planes 0).all (fun i =>
    match relayVia s t.planes t.dst i with
    | none => true
    | some j => decide (k < j) || (k == j && decide (peer ≤ i)))
  relayOn s && t.path != 1 && (planesOf t.planes).contains p && (t.path == 2 || far) &&
    (match relayVia s t.planes t.dst peer with
      | none => false
      | some k => best k)

/-- A send queue's flits that go to the peer for relay (19 R439); ok is whether the peer grants credit. -/
def drawRelay (s : State) (p peer : Nat) (ok : Bool) : Nat → List Nat → List Txn → List Txn × Nat
  | room, _, [] => ([], room)
  | room, held, t :: rest =>
    let q := t.stream * 256 + t.dst
    if t.src != s.modIdx || t.dst == peer || t.left == 0 || sameYard s t.dst then
      let r := drawRelay s p peer ok room held rest
      (t :: r.1, r.2)
    else if held.contains q || !(relayHere s p peer t) || !ok then
      let r := drawRelay s p peer ok room (q :: held) rest
      (t :: r.1, r.2)
    else
      let n := min t.left room
      let r := drawRelay s p peer ok (room - n) (if n = t.left then held else q :: held) rest
      ({ t with left := t.left - n, relay := if n = 0 then t.relay else some peer } :: r.1, r.2)

/-- The relay buffer's flits for a peer are forwarded (19 R439, R440): what stays, the credits, and the room left. -/
def drawForward (peer : Nat) : Nat → AList Nat → List Txn → List Txn × AList Nat × Nat
  | room, cr, [] => ([], cr, room)
  | room, cr, t :: rest =>
    if t.dst = peer then
      let n := min t.left room
      let r := drawForward peer (room - n) (AList.put t.src (AList.get 0 cr t.src - n) cr) rest
      (if n = t.left then r.1 else { t with left := t.left - n } :: r.1, r.2)
    else
      let r := drawForward peer room cr rest
      (t :: r.1, r.2)

/-- A plane finds the peer that its calendar names and may send to it in the slot (19 R437, R438). -/
def linkSlot (p peer : Nat) (s : State) : State :=
  modPlane p (fun q => { q with link := some peer, room := min (bits q.cfg.toNat 16 0) (slotFlits s p) }) s

/-- A plane carries flits to its peer while its slot has room (19 R438 to R441): forwarded ones first, then direct, then
relayed ones. -/
def sendTo (p peer room : Nat) (s : State) : State :=
  let f := drawForward peer room s.relayCredit s.relayBuf
  let room1 := f.2.2
  let s1 : State := { s with relayBuf := f.1, relayCredit := f.2.1 }
  let d := drawDirect s1 p peer room1 [] s1.txns
  let s2 : State := { s1 with txns := d.1 }
  let r := drawRelay s2 p peer (Config.coin s2.free) d.2 [] s2.txns
  let s3 : State := modPlane p (fun q => { q with room := r.2 }) { s2 with txns := r.1, free := s2.free + 1 }
  countAll 0xC3 (room - room1) (countAll 0xC2 (d.2 - r.2) (countAll 0xC0 (room - r.2) s3))

/-- A plane sends what it can in its slot (19 R438). Log 109, DEDUCED, unsafe. -/
def sendSlot (p : Nat) (s : State) : State :=
  let q := planeOf s p
  match (if planeOn q then q.link else none) with
  | none => s
  | some peer => if q.room = 0 then s else sendTo p peer q.room s

/-- Every plane sends what it can in its slot: flits that have entered the queues since it began go too (19 R438). Log 109,
DEDUCED, unsafe. -/
def sendNow (s : State) : State := forN 16 sendSlot s

/-- Flits still queued for the destination of the slot that ends (19 R449); a destination of several planes counts at the
lowest of them. Log 88, DEDUCED, unsafe. -/
def overrun (s : State) (p : Nat) : Nat :=
  let q := planeOf s p
  match (if planeOn q then peerIn q q.slot else none) with
  | none => 0
  | some d =>
    if (List.range p).any (fun k => planeOn (planeOf s k) && peerIn (planeOf s k) q.slot == some d) then 0
    else ((s.txns.filter (fun t => t.src == s.modIdx && t.dst == d && !(sameYard s d))).map (fun t => t.left)).sum

/-- A plane's next slot begins (19 R435, R436): at a rotation boundary what was written takes effect. -/
def nextSlot (q : Plane) : Plane :=
  let n := if q.started then (q.slot + 1) % slotsOf q else 0
  if n = 0 then
    { q with slot := 0, started := true, link := none, room := 0, cfg := q.cfgNext.getD q.cfg, cfgNext := none
             cal := q.calNext.foldl (fun m e => AList.put e.1 e.2 m) q.cal, calNext := [] }
  else { q with slot := n, link := none, room := 0 }

/-- A slot boundary of a plane (19 R437, R438): seen is the module that the other end names. Log 88, DEDUCED, unsafe. -/
def slotBoundary (p seen : Nat) (s : State) : State :=
  if 16 ≤ p then s
  else
    let s1 := if (planeOf s p).started then (let t := sendNow s; countAll 0xC1 (overrun t p) t) else s
    let s2 := planeCheck p (modPlane p nextSlot s1)
    let q := planeOf s2 p
    if planeOn q then
      match peerIn q q.slot with
      | none => s2
      | some peer => if seen = peer then sendSlot p (linkSlot p peer s2) else countAll 0xC4 1 s2
    else s2

/-- ROTOR_SLOT_BOUNDARY (19 R438). -/
def execRotorSlotBoundary (plane seen : Nat) (s : State) : Host.Outcome State Fault Refusal := .next (slotBoundary plane seen s)

/-! Arriving. -/

/-- Whether an earlier fetch or write-back of the same die for the same line is in flight (04 R86): the second waits for the
first's acknowledgement. -/
def lineHeld (s : State) (t : Txn) : Bool :=
  let moves (op : TxnOp) : Bool := match op with | .fetch => true | .write _ _ => true | _ => false
  match t.core with
  | none => false
  | some c => moves t.op && s.txns.any (fun u => u.src == t.src && decide (u.num < t.num) && moves u.op && u.addr / 128 == t.addr / 128 &&
      u.core.any (fun k => dOf k == dOf c))

/-- Whether bytes that a pull brings must wait at the home of their destination (04 R73). -/
def pullWaits (s : State) (t : Txn) : Bool :=
  match t.op with
  | .pull n kind pa key home _ => rangeWaits s t.tenant t.stream ({ kind := kind, pa := pa, key := key, home := home }, n)
  | _ => false

/-- A transaction whose flits have all left arrives (19 R434): not before the earlier ones of its stream, nor where no path
leads. -/
def sentArrive (t : Txn) (s : State) : State :=
  if t.performed || t.left != 0 || !(inTurn s t) || lineHeld s t || pullWaits s t then s
  else if t.src = s.modIdx then
    (if s.unreach.contains t.dst || (sameYard s t.dst && !(electricalOk s t.dst)) then s else arriveOut t s)
  else arriveIn t s

/-- A transaction arrives (19 R434). One with flits in a send queue has them sent first where a plane's slot allows (R438). -/
def txnArrive (k : Nat) (s : State) : State :=
  match txnOf s k with
  | none => s
  | some t =>
    if t.src ≠ s.modIdx ∧ t.dst ≠ s.modIdx then arriveRelay t s
    else if t.left = 0 then sentArrive t s
    else
      let u := sendNow s
      match txnOf u k with
      | none => u
      | some v => sentArrive v u

/-- FABRIC_TXN_ARRIVE (19 R434). -/
def execFabricTxnArrive (k : Nat) (s : State) : Host.Outcome State Fault Refusal := .next (txnArrive k s)

/-! Ports and modules. -/

/-- Transactions to modules of the yard that no path reaches fail (19 R432, R448). -/
def failCut (s : State) : State :=
  (s.txns.filter (fun t => t.src == s.modIdx && !t.performed && sameYard s t.dst && !(electricalOk s t.dst))).foldl
    (fun u t => failTxn t 0x710 u) s

/-- ELECTRICAL_PORT_DOWN (19 R432). -/
def execElectricalPortDown (k : Nat) (s : State) : Host.Outcome State Fault Refusal :=
  .next (if k < 992 then failCut { s with portsDown := insertNat k s.portsDown } else s)

/-- ELECTRICAL_PORT_UP (19 R432). -/
def execElectricalPortUp (k : Nat) (s : State) : Host.Outcome State Fault Refusal :=
  .next { s with portsDown := removeNat k s.portsDown }

/-- MODULE_LOSS_VERDICT (20 R462; 05 R103): the module's shards are rebuilt from the others wherever they are read. Log 92,
DEDUCED, unsafe. -/
def execModuleLossVerdict (k : Nat) (s : State) : Host.Outcome State Fault Refusal :=
  .next (if k < 256 ∧ k ≠ s.modIdx then { s with unreach := insertNat k s.unreach } else s)

end Sys2Proof.Machine

end
end

