-- ==== Sys2Proof/Machine/Packets.lean ====
section
/-!
DEFINITION. The command processor's packets (17 R393 to R399; 18 R427 to R429; 22 R482, R483): its accesses to memory, reading
a packet, and each packet's effect.
-/

noncomputable section

namespace Sys2Proof.Machine

open Sys2Proof

/-! The hub's accesses. -/

/-- Whose accesses those of queue q's packets are (17 R394): its ROOT and TENANT, with a supervisor's permission. The hub is
no cluster: it takes the number above them, and keeps no translation. Log 77, DEDUCED, unsafe. -/
def hubWho (s : State) (q : Nat) : Who :=
  let c := (qOf s q).ctl.toNat
  { tenant := bits c 7 0, root := bits c 51 12 * 2 ^ 12, sup := true, dom := false, en := true, cl := 128, core := none }

/-- Forgets what the hub's walk has cached. -/
def hubForget (s : State) : State := { s with clusters := AList.del 128 s.clusters, dies := AList.del 8 s.dies }

/-- Translates an address of queue q's packets (17 R394). A page is mapped executable where the supervisor or a task may fetch
from it (18 R428; 02 R32). Log 77, DEDUCED, unsafe. -/
def hubResolve (q : Nat) (acc : Acc) (va : Nat) (s : State) : Except Nat (Ref × State) :=
  let task : Except Nat (Ref × State) := if acc = .exec then resolve { hubWho s q with sup := false } acc (.scalar 8) va s else .error 0x202
  match resolve (hubWho s q) acc (.scalar 8) va s, task with
  | .ok (r, t), _ => if r.kind = 5 then .error 0x207 else .ok (r, hubForget t)
  | .error _, .ok (r, t) => .ok (r, hubForget t)
  | .error k, .error _ => .error k

/-- The home of a line as the hub finds it for queue q: it lies in no cluster (02 R34). -/
def hubHome (s : State) (q : Nat) (r : Ref) : Option Nat := homeOf s (hubWho s q).tenant 128 r

/-- n bytes of a line at a reference. -/
def hubRead (q : Nat) (r : Ref) (n : Nat) (s : State) : Except Nat (Nat × State) :=
  if r.kind = 6 then
    (match spFault (coreOf s (r.pa / 2 ^ 22)) (r.pa % 2 ^ 22) n with
      | some k => .error k
      | none => .ok (spRead s (r.pa / 2 ^ 22) (r.pa % 2 ^ 22) n, count 0x40 1 (r.pa / 2 ^ 22) s))
  else if r.kind = 3 then .ok (Memory.readN s.hostMem (r.pa % 2 ^ 50) n, hlcRange r.pa n false false s)
  else if isRemote s r then
    (if s.remBad.contains (remKey r.pa / 128) then .error 0x601 else .ok (Memory.readN s.remMem (remKey r.pa) n, s))
  else
    let o := ownRef r
    let t := homeRead (hubHome s q o) o s
    if lineBad t o.kind o.pa then .error 0x601 else .ok (bytesAt t o.kind ((keyGenOf t o.key).getD 0) o.pa n, t)

/-- n bytes of a line are written at a reference by queue q's packets. -/
def hubWrite (q : Nat) (r : Ref) (v n : Nat) (s : State) : State :=
  if r.kind = 6 then spWrite none (r.pa / 2 ^ 22) (bytesOf (r.pa % 2 ^ 22) v n) (count 0x40 1 (r.pa / 2 ^ 22) s)
  else if r.kind = 3 then storeHost r.pa (bytesOf 0 v n) s
  else if isRemote s r then
    newTxn 128 (modOf r.pa) (hubWho s q).tenant r.key r.pa (.write (bytesOf 0 v n) []) n 0 0 true none none s
  else
    let o := ownRef r
    breakResv none (o.pa / 128) (homeWrite (hubHome s q o) o.kind (o.pa / 128) ((keyGenOf s o.key).getD 0) (bytesOf (o.pa % 128) v n) s)

/-- Bytes at an address of queue q's packets, one by one. -/
def hubBytes (q : Nat) : Nat → Nat → State → Except Nat (Nat × State)
  | _, 0, s => .ok (0, s)
  | va, n + 1, s =>
    match hubResolve q .load va s with
    | .error k => .error k
    | .ok (r, t) =>
      match hubRead q r 1 t with
      | .error k => .error k
      | .ok (b, u) =>
        match hubBytes q (va + 1) n u with
        | .error k => .error k
        | .ok (v, z) => .ok (b + 256 * v, z)

/-- n bytes at an address of queue q's packets: one access where they lie in a line. -/
def hubGet (q va n : Nat) (s : State) : Except Nat (Nat × State) :=
  if va % 128 + n ≤ 128 then
    match hubResolve q .load va s with
    | .error k => .error k
    | .ok (r, t) => hubRead q r n t
  else hubBytes q va n s

/-- A dword is stored at an aligned address of queue q's packets. -/
def hubPut (q va v : Nat) (s : State) : Except Nat State :=
  if va % 8 ≠ 0 then .error 0x201
  else
    match hubResolve q .store va s with
    | .error k => .error k
    | .ok (r, t) => .ok (hubWrite q r v 8 t)

/-- n dwords from an address. -/
def hubDwords (q : Nat) : Nat → Nat → State → Except Nat (List Word × State)
  | _, 0, s => .ok ([], s)
  | va, n + 1, s =>
    match hubGet q va 8 s with
    | .error k => .error k
    | .ok (v, t) =>
      match hubDwords q (va + 8) n t with
      | .error k => .error k
      | .ok (l, u) => .ok (wd v :: l, u)

/-- Changes the dword at an aligned address; what cannot be read or written stays. -/
def hubChange (q va : Nat) (f : Nat → Nat) (s : State) : State :=
  match hubGet q va 8 s with
  | .error _ => s
  | .ok (v, t) =>
    match hubPut q va (f v) t with
    | .error _ => t
    | .ok u => u

/-- An arrival at a completion word that a packet names (15 R354, R355; 17 R395). -/
def hubArrive (q va : Nat) (err : Option Nat) (s : State) : State :=
  match hubResolve q .store va s with
  | .error _ => s
  | .ok (r, _) =>
    let t := hubChange q va (arriveWord err) s
    if r.kind = 6 then
      let w := spRead t (r.pa / 2 ^ 22) (r.pa % 2 ^ 22) 8
      if w % 2 ^ 24 = bits w 47 24 then tagChange (r.pa / 2 ^ 22) (r.pa % 2 ^ 22) true t else t
    else t

/-! Reading packets. -/

/-- Whether host queues run (21 R468, R469): in reduced and full service. -/
def queuesRun (s : State) : Bool := reducedService s || bits s.platstat.toNat 1 0 == 2
/-- Whether the module is about to enter full service, for which the hub stops dispatching (21 R470). -/
def risingUp (s : State) : Bool := reducedService s && bits s.platstat.toNat 8 6 == 7
/-- Whether a tenant has been stopped by a preemption (17 R406, R407). -/
def tenantStopped (s : State) (t : Nat) : Bool := s.stopped.contains t
/-- The tenant of a queue (17 R393). -/
def qTenant (s : State) (q : Nat) : Nat := bits (qOf s q).ctl.toNat 7 0

/-- Whether queue q may have packets read and dispatched (17 R394, R406, R407). -/
def queueOn (s : State) (q : Nat) : Bool :=
  let c := (qOf s q).ctl.toNat
  decide (q < 64) && bit c 63 && !(bit c 62) && queuesRun s && !(risingUp s) && !(tenantStopped s (qTenant s q))

/-- Sets bits of HQCTL. -/
def ctlSet (q m : Nat) (s : State) : State := modQ q (fun x => { x with ctl := x.ctl ||| wd m }) s

/-- The 64 bytes of packet HEAD, or none where the read fails (17 R394; 21 R467). -/
def packetBytes (s : State) (q : Nat) : Option (Nat × State) :=
  let x := qOf s q
  let pa := bits x.base.toNat 51 12 * 2 ^ 12 + 64 * (x.head.toNat % 2 ^ (bits x.base.toNat 3 0 + 4))
  match kindOfPa pa with
  | none => none
  | some kind =>
    if !(kind == 3 || kind == 0) || !(populated s kind pa) || (kind == 0 && inPartition s pa) then none
    else
      match hubRead q { kind := kind, pa := pa, key := 0, home := 0xFF } 64 s with
      | .error _ => none
      | .ok r => some r

/-- Whether a breakpoint matches a packet of queue q (22 R482). -/
def bkpMatches (q : Nat) (dws : List Word) (b : Word × Word) : Bool :=
  let c := b.1.toNat
  bit c 63 && (if bit c 62 then bits c 5 0 == q else bits (dws.getD 0 0).toNat 63 56 == 1 && dws.getD 1 0 == b.2)

/-- The packet just read meets the breakpoints (22 R483): it is held and the queue halts, or its tasks will trap. -/
def bkpCheck (q : Nat) (dws : List Word) (s : State) : State :=
  let hits := (List.range 16).filter (fun n => bkpMatches q dws (AList.get (0, 0) s.bkps n))
  let soft := hits.all (fun n => bit (AList.get (0, 0) s.bkps n).1.toNat 61) && bits (dws.getD 0 0).toNat 63 56 == 1
  let put (trap : Bool) (t : State) : State :=
    modQ q (fun x => { x with cur := x.cur.map (fun p => { p with checked := true, trap := trap }) }) t
  match hits with
  | [] => put false s
  | n :: _ =>
    if soft then put true s
    else raiseIrq q (ctlSet q (2 ^ 62) { put false s with bkphit := wd (2 ^ 63 + q * 16 + n) })

/-- Reading a packet (17 R394). -/
def readPacket (q : Nat) (s : State) : State :=
  let x := qOf s q
  if !(queueOn s q) || x.cur.isSome || x.waiting.isSome || x.head == x.tail then s
  else
    match packetBytes s q with
    | none => raiseIrq q (ctlSet q (2 ^ 61 + 2 ^ 62) s)
    | some (v, t) =>
      let dws := (List.range 8).map (fun i => wd (dwordOf v i))
      bkpCheck q dws (modQ q (fun y =>
        { y with head := y.head + 1, cur := some { dws := dws, idx := x.head.toNat } }) t)

/-- PACKET_READ (17 R394). -/
def execPacketRead (q : Nat) (s : State) : Host.Outcome State Fault Refusal := .next (readPacket q s)

/-! Dispatch. -/

/-- The packet of a type that queue q can dispatch now (17 R394): a barrier waits for every earlier packet. -/
def dispatchable (s : State) (q ty : Nat) : Option Packet :=
  let x := qOf s q
  match x.cur with
  | none => none
  | some p =>
    let d0 := (p.dws.getD 0 0).toNat
    if queueOn s q && p.checked && x.waiting.isNone && bits d0 63 56 == ty && (!(bit d0 55) || x.open_.isEmpty) then some p
    else none

/-- Dword i of a packet. -/
def pdw (p : Packet) (i : Nat) : Nat := (p.dws.getD i 0).toNat
/-- Whether dwords from i on are 0. -/
def restZero (p : Packet) (i : Nat) : Bool := (List.range 8).all (fun k => decide (k < i) || pdw p k == 0)

/-- The packet leaves the front of its queue: dispatched, an event of its job (17 R410). -/
def taken (q : Nat) (s : State) : State := modQ q (fun x => { x with cur := none, evAt := s.time }) s
/-- A dispatched packet that is not complete. -/
def opened (q idx : Nat) (s : State) : State := modQ q (fun x => { x with open_ := insertNat idx x.open_ }) s
/-- A packet completes. -/
def closed (q idx : Nat) (s : State) : State := modQ q (fun x => { x with open_ := removeNat idx x.open_ }) s

/-- Writes ERR and a cause into a completion word that a packet names, where it can be written (17 R396, R456). -/
def markWord (q va cause : Nat) (s : State) : State :=
  hubChange q va (fun w => (setBits (wd w) 59 48 cause).toNat % 2 ^ 63 + 2 ^ 63) s

/-- A packet is refused (17 R396): cw is the completion word it names. -/
def refuse (q : Nat) (cw : Option Nat) (cause : Nat) (s : State) : State :=
  let t := match cw with
    | some va => markWord q va cause s
    | none => s
  ctlSet q (2 ^ 61 + 2 ^ 62) (taken q t)

/-- Whether an address of a packet can be translated (17 R396). -/
def reaches (s : State) (q : Nat) (acc : Acc) (va : Nat) : Bool :=
  match hubResolve q acc va s with | .ok _ => true | .error _ => false

/-- A type that no packet has is refused (17 R395, R396). Log 81, DESIGN CHOICE, unsafe. -/
def refuseType (q : Nat) (s : State) : State :=
  let x := qOf s q
  match x.cur with
  | none => s
  | some p =>
    let d0 := pdw p 0
    if 7 ≤ bits d0 63 56 ∧ queueOn s q = true ∧ p.checked = true ∧ x.waiting.isNone = true ∧ (bit d0 55 = false ∨ x.open_.isEmpty = true) then refuse q none 0x804 s
    else s

/-- PKT_NOP (17 R395); the event also refuses a packet of a type that does not exist. Log 81, DESIGN CHOICE, unsafe. -/
def execPktNop (q : Nat) (s : State) : Host.Outcome State Fault Refusal :=
  .next (match dispatchable s q 0 with
    | none => refuseType q s
    | some p => if pdw p 0 % 2 ^ 55 = 0 ∧ restZero p 1 = true then taken q s else refuse q none 0x804 s)

/-- A copy whose accesses are made and acknowledged arrives at its word and completes (17 R395). -/
def finishCopies (q : Nat) (s : State) : State :=
  (qOf s q).copies.foldl (fun t e =>
    if t.txns.any (fun x => x.node == some (128 + q, e.1)) then t
    else
      closed q e.1 (hubArrive q e.2.1.toNat e.2.2 (modQ q (fun x => { x with copies := x.copies.filter (fun f => f.1 != e.1) }) t))) s

/-- The accesses of a hub copy (17 R395; 15 R361): the effect of cp.ck; none while it waits for a home (04 R73). -/
def hubCopy (q idx src dst len : Nat) (s : State) : Option (State × Option Nat) :=
  if len = 0 then some (s, none)
  else if src % 16 ≠ 0 ∨ dst % 16 ≠ 0 ∨ len % 16 ≠ 0 then some (s, some 0x201)
  else
    match resolveNamed (hubWho s q) [⟨.load, .copy, src, len⟩, ⟨.store, .copy, dst, len⟩] s with
    | .error k => some (s, some k)
    | .ok (l, t) =>
      match routeFault t 0 0 l with
      | some k => some (hubForget t, some k)
      | none =>
        if l.flatten.any (rangeWaits t (hubWho s q).tenant 128) then none
        else
          some (moveAll { stream := 128, node := some (128 + q, idx), tenant := (hubWho s q).tenant, fill := false, rack := true, planes := 0, path := 0 }
            (pairUp (l.getD 0 []) (l.getD 1 [])) (hubForget t))

/-- Dispatch of a copy (17 R395). -/
def startCopy (q : Nat) (p : Packet) (s : State) : State :=
  if pdw p 0 % 2 ^ 55 ≠ 0 ∨ restZero p 5 = false ∨ reaches s q .load (pdw p 1) = false ∨ reaches s q .store (pdw p 2) = false ∨
      reaches s q .store (pdw p 4) = false then refuse q (some (pdw p 4)) 0x804 s
  else
    match hubCopy q p.idx (pdw p 1) (pdw p 2) (pdw p 3) (opened q p.idx (taken q s)) with
    | none => s
    | some (t, e) => modQ q (fun x => { x with copies := x.copies ++ [(p.idx, wd (pdw p 4), e)] }) t

/-- PKT_COPY (17 R395): a copy is dispatched, and those that are done complete. -/
def execPktCopy (q : Nat) (s : State) : Host.Outcome State Fault Refusal :=
  .next (finishCopies q (match dispatchable s q 2 with
    | none => s
    | some p => startCopy q p s))

/-- Signals are performed once every earlier packet of their queue has completed (17 R395). -/
def finishSignals (q : Nat) (s : State) : State :=
  (qOf s q).sigs.foldl (fun t e =>
    if (qOf t q).open_.any (fun i => decide (i < e.1)) then t
    else
      let u := modQ q (fun x => { x with sigs := x.sigs.filter (fun f => f.1 != e.1) }) t
      closed q e.1 (match hubPut q e.2.1.toNat e.2.2.toNat u with
        | .ok v => v
        | .error _ => ctlSet q (2 ^ 61 + 2 ^ 62) u)) s

/-- PKT_SIGNAL (17 R395). Log 98, DEDUCED, unsafe. -/
def execPktSignal (q : Nat) (s : State) : Host.Outcome State Fault Refusal :=
  .next (finishSignals q (match dispatchable s q 3 with
    | none => s
    | some p =>
      if pdw p 0 % 2 ^ 55 ≠ 0 ∨ restZero p 3 = false ∨ pdw p 1 % 8 ≠ 0 ∨ reaches s q .store (pdw p 1) = false then refuse q none 0x804 s
      else
        modQ q (fun x => { x with sigs := x.sigs ++ [(p.idx, wd (pdw p 1), wd (pdw p 2))] }) (opened q p.idx (taken q s))))

/-- One acquire of a wait (17 R395): a value at or above the bound ends it, a fault ends it and refuses the packet. -/
def pollWait (q : Nat) (s : State) : State :=
  let x := qOf s q
  match x.waiting with
  | none => s
  | some (va, bound) =>
    let idx := x.head.toNat - 1
    match hubGet q va.toNat 8 s with
    | .error _ => closed q idx (ctlSet q (2 ^ 61 + 2 ^ 62) (modQ q (fun y => { y with waiting := none }) s))
    | .ok (v, t) => if bound.toNat ≤ v then closed q idx (modQ q (fun y => { y with waiting := none }) t) else t

/-- PKT_WAIT (17 R395): the queue is held, and the first acquire made. Log 98, DEDUCED, unsafe. -/
def execPktWait (q : Nat) (s : State) : Host.Outcome State Fault Refusal :=
  .next (match dispatchable s q 4 with
    | none => s
    | some p =>
      if pdw p 0 % 2 ^ 55 ≠ 0 ∨ restZero p 3 = false ∨ pdw p 1 % 8 ≠ 0 ∨ reaches s q .load (pdw p 1) = false then refuse q none 0x804 s
      else pollWait q (modQ q (fun x => { x with waiting := some (wd (pdw p 1), wd (pdw p 2)) }) (opened q p.idx (taken q s))))

/-- PKT_WAIT_POLL (17 R395). -/
def execPktWaitPoll (q : Nat) (s : State) : Host.Outcome State Fault Refusal := .next (pollWait q s)

/-! Modules. -/

/-- A module header (18 R427). -/
structure ModHdr where
  l1six : Nat
  code : Nat
  len : Nat
  spimg : Nat
  splen : Nat
  deriving DecidableEq, Repr

/-- The header that eight dwords hold, if it is valid (18 R427; 03 R56). -/
def headerOf (l : List Word) : Option ModHdr :=
  let d (i : Nat) : Nat := (l.getD i 0).toNat
  let l1 := d 0 % 16
  if bits (d 0) 63 32 = 0x50484D31 ∧ bits (d 0) 31 16 = 1 ∧ bits (d 0) 15 4 = 0 ∧ 4 ≤ l1 ∧ l1 ≤ 8 ∧ d 1 % 128 = 0 ∧ d 2 % 4 = 0 ∧
      4 ≤ d 2 ∧ d 2 ≤ 268435452 ∧ bits (d 4) 63 32 = 0 ∧ d 4 % 272 = 0 ∧ d 4 ≤ (16 - l1) * 272 * 1024 ∧ d 6 ≤ 65535 ∧ d 7 = 0 then
    some { l1six := l1, code := d 1, len := d 2, spimg := d 3, splen := d 4 }
  else none

/-- The header at an address of queue q (18 R427). -/
def readHeader (q va : Nat) (s : State) : Option ModHdr :=
  if va % 64 ≠ 0 then none
  else
    match hubDwords q va 8 s with
    | .error _ => none
    | .ok (l, _) => headerOf l

/-- Whether every page of code and the zero word behind it is mapped executable (18 R428). -/
def codeMapped (s : State) (q va n : Nat) : Bool :=
  (List.range ((va + n - 1) / 65536 + 1 - va / 65536)).all (fun i => reaches s q .exec (max va ((va / 65536 + i) * 65536)))

/-- Whether a registered module belongs to a tenant. -/
def modOwned (s : State) (t : Nat) (m : ModEntry) : Bool := qTenant s m.q == t

/-- The lines of code that a module holds, from a core's view of a scope that takes in the package. -/
def moduleRanges (q va n : Nat) (s : State) : List (Nat × Nat) :=
  (List.range ((va + n - 1) / 65536 + 1 - va / 65536)).filterMap (fun i =>
    let lo := max va ((va / 65536 + i) * 65536)
    let hi := min (va + n) ((va / 65536 + i + 1) * 65536)
    match hubResolve q .exec lo s with
    | .ok (r, _) => some (r.pa / 128, (r.pa + (hi - lo) - 1) / 128)
    | .error _ => none)

/-- codeinv.p over a module's code (18 R428, R429; 04 R90). -/
def moduleInvalidate (q code len : Nat) (s : State) : State := codeInvalidate 0 .p (moduleRanges q code (len + 4) s) s

/-- Registers a module (18 R428); none where a check fails. -/
def loadModule (q hdr : Nat) (s : State) : Option State :=
  match readHeader q hdr s with
  | none => none
  | some h =>
    if codeMapped s q h.code (h.len + 4) = false ∨ 64 ≤ s.modtab.length then none
    else
      match hubGet q (h.code + h.len) 4 s with
      | .error _ => none
      | .ok (w, t) =>
        let meets (m : ModEntry) : Bool :=
          modOwned t (qTenant t q) m && decide (m.code.toNat < h.code + h.len + 4) && decide (h.code < m.code.toNat + m.len + 4)
        if w ≠ 0 ∨ t.modtab.any meets = true then none
        else
          let u := moduleInvalidate q h.code h.len t
          some { u with
            modtab := u.modtab ++ [{ hdr := wd hdr, q := q, code := wd h.code, len := h.len }]
            unloaded := u.unloaded.filter (fun e => e != (qTenant u q, wd hdr)) }

/-- MODULE_LOAD (18 R428). -/
def execModuleLoad (q : Nat) (s : State) : Host.Outcome State Fault Refusal :=
  .next (match dispatchable s q 5 with
    | none => s
    | some p =>
      if pdw p 0 % 2 ^ 55 ≠ 0 ∨ restZero p 2 = false ∨ reaches s q .load (pdw p 1) = false then refuse q none 0x804 s
      else
        match loadModule q (pdw p 1) s with
        | none => refuse q none 0x803 s
        | some t => taken q t)

/-- The registered module of a header for a tenant. -/
def modEntryOf (s : State) (t : Nat) (hdr : Word) : Option ModEntry := s.modtab.find? (fun m => m.hdr == hdr && modOwned s t m)

/-- Whether a barn of a batch is not yet complete: queued, resident or saved (18 R429). -/
def batchOpen (s : State) (q : Nat) (b : Batch) : Bool :=
  decide ((qOf s q).started < b.seq0 + b.nbarn) ||
    s.barns.any (fun x => x.q == q && x.seq0 == b.seq0 && x.st != .complete)

/-- Whether a barn launched with a header is queued, resident or saved (18 R429). -/
def hdrBusy (s : State) (t : Nat) (hdr : Word) : Bool :=
  s.queues.any (fun e => bits e.2.ctl.toNat 7 0 == t && e.2.batches.any (fun b => b.modhdr == hdr && batchOpen s e.1 b))

/-- Unloads that nothing holds back are made (18 R429). -/
def finishUnloads (q : Nat) (s : State) : State :=
  (qOf s q).unloads.foldl (fun t e =>
    if hdrBusy t (qTenant t q) e.2 then t
    else
      let u := modQ q (fun x => { x with unloads := x.unloads.filter (fun f => f.1 != e.1) }) t
      closed q e.1 (match modEntryOf u (qTenant u q) e.2 with
        | none => u
        | some m => moduleInvalidate q m.code.toNat m.len { u with
            modtab := u.modtab.erase m, unloaded := (qTenant u q, e.2) :: u.unloaded })) s

/-- MODULE_UNLOAD (18 R429). -/
def execModuleUnload (q : Nat) (s : State) : Host.Outcome State Fault Refusal :=
  .next (finishUnloads q (match dispatchable s q 6 with
    | none => s
    | some p =>
      if pdw p 0 % 2 ^ 55 ≠ 0 ∨ restZero p 2 = false ∨ reaches s q .load (pdw p 1) = false then refuse q none 0x804 s
      else if (modEntryOf s (qTenant s q) (wd (pdw p 1))).isNone then refuse q none 0x803 s
      else modQ q (fun x => { x with unloads := x.unloads ++ [(p.idx, wd (pdw p 1))] }) (opened q p.idx (taken q s))))

/-! Launches. -/

/-- The route-tag image of a launch (17 R399, R402; 08 R175): none where it cannot be read or an entry is refused. -/
def readTags (q va : Nat) (s : State) : Option (AList (Word × Word)) :=
  if va = 0 then some []
  else
    match hubDwords q va 512 s with
    | .error _ => none
    | .ok (l, _) =>
      let es := (List.range 255).map (fun i => (i + 1, (l.getD (2 * i + 2) 0, l.getD (2 * i + 3) 0)))
      let ok (e : Nat × (Word × Word)) : Bool :=
        e.2.1.toNat % 4 == 0 && bits e.2.2.toNat 60 59 != 3 && bits e.2.2.toNat 58 10 == 0
      if es.all ok then some (es.filter (fun e => e.2 != (0, 0))) else none

/-- The die of barn b of a launch (17 R398). -/
def barnDie (live : List Nat) (db aff b : Nat) : Option Nat :=
  let d := bits db (4 * (b % 8) + 2) (4 * (b % 8))
  ((List.range 8).map (fun i => (d + i) % 8)).find? (fun k => aff.testBit k && live.contains k)

/-- The clusters of a tenant's paddock on a die, lowest first (17 R401, R404). -/
def paddockOn (s : State) (t d : Nat) : List Nat := ((List.range 16).map (fun i => 16 * d + i)).filter (inPaddock s t)

/-- Fields of a launch packet within their ranges (17 R397, R399). Log 78, DEDUCED, unsafe. -/
def launchRanges (p : Packet) : Bool :=
  let d0 := pdw p 0
  let level := bits d0 54 52
  let tm1 := bits d0 51 49
  decide (1 ≤ level) && decide (level ≤ 3) && (level != 1 || tm1 == 3 || tm1 == 7) && (level == 3 || bits d0 48 45 == 0) &&
    decide (1 ≤ bits d0 23 0) && pdw p 1 % 4 == 0 && pdw p 5 % 8 == 0 && pdw p 7 % 64 == 0 &&
    (List.range 8).all (fun k => !(bit (pdw p 3) (4 * k + 3)))

/-- The first check of a launch that fails (17 R399); a header that was unloaded is refused until it is loaded again (18
R429). Log 31, DEDUCED, unsafe; log 79, DEDUCED, unsafe. -/
def launchCheck (q : Nat) (p : Packet) (s : State) : Option Nat :=
  let d0 := pdw p 0
  let t := qTenant s q
  let aff := bits d0 44 37
  let need := bits d0 48 45 + 1
  let dies := ((List.range (min (bits d0 23 0) 8)).filterMap (fun b => barnDie s.live (pdw p 3) aff b)).eraseDups
  let cwKind : Option Nat := match hubResolve q .store (pdw p 5) s with | .ok (r, _) => some r.kind | .error _ => none
  if launchRanges p = false ∨ (readTags q (pdw p 4) s).isNone = true ∨ cwKind.all (fun k => decide (k ≤ 3)) = false then some 0x804
  else if s.live.all (fun d => !(aff.testBit d)) then some 0x801
  else if bit (AList.get 0 s.paddocks t).toNat 63 = false then some 0x805
  else if dies.any (fun d => decide ((paddockOn s t d).length < need)) then some 0x802
  else if s.unloaded.contains (t, wd (pdw p 6)) || (readHeader q (pdw p 6) s).isNone then some 0x803
  else none

/-- The header's values that a barn's start uses, as its batch keeps them from dispatch (18 R427). -/
def keptHdr (h : ModHdr) : List Nat := [h.l1six, h.code, h.len, h.spimg, h.splen]

/-- The batch of a launch (17 R397, R400). -/
def batchOf (q seq0 : Nat) (p : Packet) (tags : AList (Word × Word)) (hdr : List Nat) : Batch :=
  let d0 := pdw p 0
  { q := q, idx := p.idx, seq0 := seq0, nbarn := bits d0 23 0, level := bits d0 54 52, team := bits d0 51 49 + 1
    cpb := bits d0 48 45 + 1, aff := bits d0 44 37, entry := wd (pdw p 1), karg := wd (pdw p 2), db := pdw p 3 % 2 ^ 32
    tagimg := tags, cw := wd (pdw p 5), modhdr := wd (pdw p 6), rslot := wd (pdw p 7), trap := p.trap, hdr := hdr }

/-- Whether every address that a launch names can be translated (17 R396, R397): ENTRY and RSLOT whatever their pages permit.
Log 78, DEDUCED, unsafe. -/
def launchReaches (q : Nat) (p : Packet) (s : State) : Bool :=
  reaches s q .store (pdw p 5) && reaches s q .load (pdw p 6) && (pdw p 4 == 0 || reaches s q .load (pdw p 4)) &&
    (reaches s q .exec (pdw p 1) || reaches s q .load (pdw p 1)) && (reaches s q .store (pdw p 7) || reaches s q .load (pdw p 7))

/-- Dispatch of a launch (17 R396, R399). Log 32, DEDUCED, unsafe; log 78, DEDUCED, unsafe. -/
def startLaunch (q : Nat) (p : Packet) (s : State) : State :=
  let d0 := pdw p 0
  if bits d0 36 24 ≠ 0 ∨ bits (pdw p 3) 63 32 ≠ 0 ∨ launchReaches q p s = false then refuse q (some (pdw p 5)) 0x804 s
  else
    match launchCheck q p s with
    | some k => taken q (hubChange q (pdw p 5) (fun w => (setBits (wd w) 59 48 k).toNat % 2 ^ 60 / 2 ^ 24 * 2 ^ 24 + 2 ^ 63) s)
    | none =>
      let n := bits d0 23 0
      let t := hubChange q (pdw p 5) (fun _ => n * 2 ^ 24) (opened q p.idx (taken q s))
      let x := qOf t q
      modQ q (fun y => { y with
        batches := y.batches ++ [batchOf q x.seqNext p ((readTags q (pdw p 4) s).getD []) (((readHeader q (pdw p 6) s).map keptHdr).getD [])], seqNext := x.seqNext + n }) t

/-- PKT_LAUNCH (17 R397 to R399). -/
def execPktLaunch (q : Nat) (s : State) : Host.Outcome State Fault Refusal :=
  .next (match dispatchable s q 1 with
    | none => s
    | some p => startLaunch q p s)

end Sys2Proof.Machine

end
end

