-- ==== Sys2Proof/Machine/Tasks.lean ====
section
/-!
DEFINITION. Task instructions (16 R373 to R379, R389 to R392; 08 R160 to R166, R179 to R181).
-/

noncomputable section

namespace Sys2Proof.Machine

open Sys2Proof

/-- A slot must be 64-byte aligned (16 R373). -/
def slotGate (slot : Word) : Except Exc Unit := if slot.toNat % 64 ≠ 0 then .error (.trap 0x201 slot) else .ok ()

/-- A release of a scope by the running core (07 R151). -/
def release (sc : Scope) (s : State) : Except Exc State := orderOp s.cur false true false true sc s

/-- n tasks that carry a domain's id are created (08 R181). Log 63, DEDUCED, unsafe. -/
def domBorn (id n : Nat) (s : State) : State :=
  if id = 0 then s
  else { s with doms := s.doms.map (fun e => if e.2.id = id then (e.1, { e.2 with live := e.2.live + n }) else e) }
/-- A task that carries a domain's id has ended. Log 63, DEDUCED, unsafe. -/
def domLeft (id : Nat) (s : State) : State :=
  if id = 0 then s
  else { s with doms := s.doms.map (fun e => if e.2.id = id then (e.1, { e.2 with live := e.2.live - 1 }) else e) }

/-- The pc a record holds, as a trace record shows it; 0 where it cannot be read. -/
def recordPc (c : Nat) (slot : Word) (s : State) : Word :=
  match readWords (whoCore s c) c slot.toNat 1 s with
  | .ok (v, _) => wd v
  | .error _ => 0

/-- A queue's refusal is a precise fault (08 R169, R170). -/
def orQueue (r : Except Nat State) : Except Exc State :=
  match r with
  | .ok t => .ok t
  | .error k => .error (.trap k 0)

/-- fork (16 R373). -/
def forkBody (xs xj : Reg) (off : Int) (s : State) : Except Exc State := do
  let c := s.cur
  let s1 ← memGate s
  let s2 ← release .d s1
  let slot ← readPlain xs s2
  let j ← readPlain xj s2
  slotGate slot
  let x := me s2
  if qRoom x 3 1 = false then .error (.trap 0x503 0)
  else do
    let target := x.pc + immW (4 * off)
    let (g, y) := newGtid c x
    let a (k : Nat) : Nat := (getX k x).toNat
    let r := mkRecord target.toNat g.toNat (mkCtl (x.ctl.toNat % 4) 0 0 0 (domainOf x) false false) j.toNat (a 10) (a 11) (a 12) (a 13)
    let s3 ← writeWords (whoCore s2 c) c slot.toNat r 8 (setCore c y s2)
    let s4 ← orQueue (pushEntry c 3 c slot g target (drainAll c s3))
    pure (domBorn (domainOf x) 1 (tasksBorn (clOf c) 1 s4))

/-- fork (16 R373). -/
def execFork (xs xj : Reg) (off : Int) (s : State) : Host.Outcome State Fault Refusal := finish 4 s (forkBody xs xj off s)

/-- spawn.n (16 R374). -/
def spawnNew (rs1 : Reg) (prio : Nat) (s : State) : Except Exc State := do
  let c := s.cur
  let s1 ← memGate s
  let s2 ← release .d s1
  let slot ← readPlain rs1 s2
  slotGate slot
  let x := me s2
  if 3 ≤ prio then .error (.trap 0x501 0)
  else if qRoom x prio 1 = false then .error (.trap 0x503 0)
  else do
    let (g, y) := newGtid c x
    let ctl := mkCtl prio 0 0 0 (domainOf x) false false
    let s3 ← writeWords (whoCore s2 c) c (slot.toNat + 8) (g.toNat + 2 ^ 64 * ctl) 2 (setCore c y s2)
    let s4 := drainAll c s3
    let s5 ← orQueue (pushEntry c prio c slot g (recordPc c slot s4) s4)
    pure (domBorn (domainOf x) 1 (tasksBorn (clOf c) 1 s5))

/-- spawn.n (16 R374). -/
def execSpawnN (rs1 : Reg) (prio : Fin 4) (s : State) : Host.Outcome State Fault Refusal := finish 4 s (spawnNew rs1 prio.val s)

/-- spawn (16 R374): an existing record. -/
def spawnOld (rs1 : Reg) (s : State) : Except Exc State := do
  let c := s.cur
  let s1 ← memGate s
  let s2 ← release .d s1
  let slot ← readPlain rs1 s2
  slotGate slot
  let (v, s3) ← readWords (whoCore s2 c) c slot.toNat 3 s2
  let ctl := dwordOf v 2
  let target := if bits ctl 4 2 = 0 then some c else reservedFor s3 slot (wd (dwordOf v 1))
  match target with
  | none => .error (.trap 0x501 0)
  | some r =>
    if ctl % 4 = 3 then .error (.trap 0x501 0)
    else if qRoom (coreOf s3 r) (ctl % 4) 1 = false then .error (.trap 0x503 0)
    else orQueue (pushEntry r (ctl % 4) c slot (wd (dwordOf v 1)) (wd (dwordOf v 0)) s3)

/-- spawn (16 R374): prio is ignored. -/
def execSpawn (rs1 : Reg) (_prio : Fin 4) (s : State) : Host.Outcome State Fault Refusal := finish 4 s (spawnOld rs1 s)

/-! Join words. -/

/-- The home and offset of a join word (16 R376; 02 R26). -/
def joinRef (c va : Nat) (s : State) : Except Exc (Nat × Nat) :=
  if va % 8 ≠ 0 then .error (.trap 0x201 (wd va))
  else if !(canonical va) then .error (.trap (xlCause 0 0xF) (wd va))
  else if !(inWindows va) then .error (.trap 0x20B (wd va))
  else if windowBusy s va then .error (.stall 12 0)
  else
    match windowRef (whoCore s c) va s with
    | .error k => .error (.trap k (wd va))
    | .ok r =>
      let off := r.pa % 2 ^ 22
      if tileOf off ≠ 0 then .error (.trap 0x20B (wd va))
      else
        match spFault (coreOf s r.home) off 8 with
        | some f => .error (.trap f (wd va))
        | none => .ok (r.home, off)

/-- Writes a join word in its bank (03 R68; 08 R179). -/
def putJoin (c home off count resume : Nat) (s : State) : State :=
  spWrite (some c) home (bytesOf off (count % 2 ^ 16 * 2 ^ 48 + resume % 2 ^ 48) 8) s

/-- The slot that RESUME names (08 R179). -/
def resumeSlot (v : Nat) : Word := wd (v % 2 ^ 48 * 64)

/-- Whether a record belongs to a killed domain (20 R455). -/
def recordKilled (c : Nat) (slot : Word) (s : State) : Bool :=
  match readWords (whoSup s c) c (slot.toNat + 16) 1 s with
  | .ok (v, _) => s.killed.contains (bits v 31 16)
  | .error _ => false

/-- An exit arrival (16 R377): COUNT falls, and the arrival that brings it to 0 enqueues the record at RESUME. It waits while the
read of that record does. -/
def exitArrival (c va : Nat) (s : State) : Except Exc State := do
  let (home, off) ← joinRef c va s
  let v := spRead s home off 8
  let n := bits v 63 48
  if n = 0 then .error (.trap 0x506 0)
  else if n = 1 ∧ v % 2 ^ 48 ≠ 0 then
    let t := putJoin c home off 0 0 s
    if recordKilled c (resumeSlot v) t then pure t
    else
      match enqueueRecord c (resumeSlot v) .c t with
      | some u => pure u
      | none => .error (.stall 12 0)
  else pure (putJoin c home off (n - 1) v s)

/-- A task suspends and leaves its core (08 R166; 22 R479). -/
def suspendLeave (s : State) : State :=
  let x := me s
  leaveCore s.cur true (lastStep s.cur (traceRec s.cur 3 x.gtid 0 0 x.pc s))

/-- join (16 R376). -/
def joinBody (rs1 : Reg) (s : State) : Except Exc State := do
  let c := s.cur
  let s1 ← memGate s
  let a ← readPlain rs1 s1
  let (home, off) ← joinRef c a.toNat s1
  let x := me s1
  if bits x.trec.toNat 63 54 ≠ 0 then .error (.trap 0x509 0)
  else do
    let s2 ← suspendStart c (x.pc + 4) (off / 8) s1
    let v := spRead s2 home off 8
    let n := bits v 63 48
    if n = 0 then .error (.leave (takeTrap c 0x506 0 x.pc s2))
    else if v % 2 ^ 48 ≠ 0 then .error (.leave (takeTrap c 0x507 0 x.pc s2))
    else if 1 < n then .error (.leave (suspendLeave (putJoin c home off (n - 1) (x.trec.toNat / 64) s2)))
    else pure (putJoin c home off 0 0 s2)

/-- join (16 R376). -/
def execJoin (rs1 : Reg) (s : State) : Host.Outcome State Fault Refusal := finish 4 s (joinBody rs1 s)

/-- yield (16 R378): with its FIFO and ring full it completes without suspending. Log 96, DEDUCED, unsafe. -/
def yieldBody (s : State) : Except Exc State := do
  let c := s.cur
  let s1 ← memGate s
  if suspendRefused c s1 then .error (.trap 0x502 0)
  else
    let x := me s1
    let k := x.ctl.toNat % 4
    if qRoom x k 1 = false then pure s1
    else do
      let s2 ← suspendStart c (x.pc + 4) 0 s1
      .error (.leave (hwPush c k c x.trec x.gtid (x.pc + 4) .c (suspendLeave s2)))

/-- yield (16 R378). -/
def execYield (s : State) : Host.Outcome State Fault Refusal := finish 4 s (yieldBody s)

/-- suspend (16 R378): the flag store comes after the record, and its fault leaves the task on its core. -/
def suspendBody (rs1 : Reg) (s : State) : Except Exc State := do
  let c := s.cur
  let s1 ← memGate s
  let a ← readPlain rs1 s1
  let pc := (me s1).pc
  let s2 ← suspendStart c (pc + 4) 0 s1
  if rs1.val = 0 then .error (.leave (suspendLeave s2))
  else if a.toNat % 8 ≠ 0 then .error (.leave (takeTrap c 0x201 a pc s2))
  else
    let w := whoCore s2 c
    match resolvePieces w .store (.scalar 8) [(a.toNat, 8)] s2 with
    | .ok (ps, s3) => .error (.leave (suspendLeave (drainAll c (storePieces c w ps 1 s3))))
    | .error (.trap k v) => .error (.leave (takeTrap c k v pc s2))
    | .error (.stall what v lost) => .error (.leave (setStallAs c what v lost s2))
    | .error (.leave t) => .error (.leave t)

/-- suspend (16 R378). -/
def execSuspend (rs1 : Reg) (s : State) : Host.Outcome State Fault Refusal := finish 4 s (suspendBody rs1 s)

/-! Ending. -/

/-- Whether a core has a matrix command that is not complete (14 R323). -/
def mxPending (s : State) (c : Nat) : Bool := outCount s c 1 != 0

/-- A lease ends (14 R323): its set, its latch banks and its spill tiles' owner bits go, and with it a turn it holds. -/
def freeLease (c : Nat) (s : State) : State :=
  match leaseOf s c with
  | none => s
  | some l =>
    let t := modCluster (clOf c) (fun k => { k with
      leases := k.leases.filter (fun m => m.core != c)
      latches := k.latches.map (fun b => if b.2.core = c then (b.1, { b.2 with valid := false, lines := [], bad := [] }) else b)
      turn := k.turn.filter (fun u => u.core != c)
      lastTurn := if k.turn.any (fun u => u.core == c) then c % 8 else k.lastTurn }) s
    modCore c (fun x => { x with owner := x.owner.filter (fun i => !(decide (l.sb ≤ i) && decide (i < l.sb + 16))) }) t

/-- The handler slot of a task is freed (08 R166; 16 R377), on the core whose slot it is. -/
def freeSlot (gtid : Word) (s : State) : State :=
  if s.cores.any (fun e => e.2.hslots.any (fun h => h.2 == gtid)) then
    { s with cores := s.cores.map (fun e => (e.1, { e.2 with hslots := e.2.hslots.filter (fun h => h.2 != gtid) })) }
  else s

/-- exit (16 R377). -/
def exitBody (s : State) : Except Exc State := do
  let c := s.cur
  let x := me s
  if s.doms.any (fun e => e.2.opener == x.gtid) then .error (.trap 0x603 0)
  else do
    let s1 ← memGate s
    let s2 ← windowsDone c s1
    if (leaseOf s2 c).isSome ∧ mxPending s2 c = true then .error (.stall 7 1)
    else do
      let s3 ← release .d s2
      let s4 := freeLease c s3
      let s5 ← if x.joinw = 0 then pure s4 else exitArrival c x.joinw.toNat s4
      let s6 := traceRec c 4 x.gtid 0 0 x.pc s5
      let s7 := freeSlot x.gtid (modCore c (fun y => { y with ports := [] }) (lastStep c s6))
      .error (.leave (leaveCore c false (domLeft (domainOf x) (taskEnded (clOf c) s7))))

/-- exit (16 R377). -/
def execExit (s : State) : Host.Outcome State Fault Refusal := finish 4 s (exitBody s)

/-! Tasks from the latch table. -/

/-- Whether a template's control dword and pc pass the checks of a pick but for the id (08 R164; 16 R375). -/
def templateOk (v : Nat) : Bool :=
  let ctl := dwordOf v 2
  decide (ctl % 4 < 3) && decide (bits ctl 4 2 < 4) && decide (bits ctl 7 5 < 4) && decide (bits ctl 63 52 = 0) &&
    decide (dwordOf v 0 % 4 = 0)

/-- The record that spawnl makes for a bin (16 R375). -/
def binRecord (v g dom str b : Nat) (latch : Word) : Nat :=
  let ctl := dwordOf v 2
  mkRecord (dwordOf v 0) g (ctl % 4 + bits ctl 7 5 * 32 + dom % 65536 * 65536) (dwordOf v 3) (dwordOf v 4) b
    (dwordOf v 6 + str * (latch.toNat / 2 ^ 32)) (latch.toNat % 2 ^ 32)

/-- Writes and pushes the records of a list of bins. -/
def pushBins (c v base first str : Nat) : List (Nat × Word) → State → Except Exc State
  | [], s => .ok s
  | (b, latch) :: rest, s => do
    let x := coreOf s c
    let (g, y) := newGtid c x
    let slot := base + 64 * (1 + b - first)
    let s1 ← writeWords (whoCore s c) c slot (binRecord v g.toNat (domainOf x) str b latch) 8 (setCore c y s)
    let s2 ← orQueue (pushEntry c 3 c (wd slot) g (wd (dwordOf v 0)) (drainAll c s1))
    pushBins c v base first str rest s2

/-- Checks every slot of a list of addresses. -/
def checkSlots (c : Nat) : List Nat → State → Except Exc State
  | [], s => .ok s
  | va :: rest, s =>
    match resolvePieces (whoCore s c) .store (.scalar 8) [(va, 64)] s with
    | .error e => .error e
    | .ok (ps, t) => if ps.any (fun p => p.ref.kind == 5) then .error (.trap 0x207 (wd va)) else checkSlots c rest t

/-- spawnl (16 R375). -/
def spawnlBody (rd rs1 rs2 : Reg) (s : State) : Except Exc State := do
  let c := s.cur
  let s1 ← memGate s
  let s2 ← release .d s1
  let base ← readPlain rs1 s2
  let q ← readPlain rs2 s2
  let first := bits q.toNat 9 0
  let nm1 := bits q.toNat 19 10
  if bits q.toNat 31 21 ≠ 0 ∨ 1024 < first + nm1 + 1 then .error (.trap 0x50A 0)
  else do
    slotGate base
    let (v, s3) ← readWords (whoCore s2 c) c base.toNat 8 s2
    let table := (clusterOf s3 (clOf c)).latch
    let bins := (List.range (nm1 + 1)).map (fun i => (first + i, table.get 0 (first + i)))
    let sel := bins.filter (fun e => !(bit q.toNat 20) || e.2.toNat % 2 ^ 32 != 0)
    let n := sel.length
    if templateOk v = false then .error (.trap 0x501 0)
    else do
      let s4 ← checkSlots c (sel.map (fun e => base.toNat + 64 * (1 + e.1 - first))) s3
      if qRoom (me s4) 3 n = false then .error (.trap 0x503 0)
      else do
        let j := dwordOf v 3
        let s5 ← if j = 0 then pure s4
          else do
            let (home, off) ← joinRef c j s4
            let w := spRead s4 home off 8
            if 65535 < bits w 63 48 + n then .error (.trap 0x508 0)
            else pure (putJoin c home off (bits w 63 48 + n) w s4)
        let s6 ← pushBins c v base.toNat first (bits q.toNat 63 32) sel s5
        writeX rd (wd n) (domBorn (domainOf (me s6)) n (tasksBorn (clOf c) n s6))

/-- spawnl (16 R375). Log 97, DEDUCED, unsafe. -/
def execSpawnl (rd rs1 rs2 : Reg) (s : State) : Host.Outcome State Fault Refusal := finish 4 s (spawnlBody rd rs1 rs2 s)

/-! Gangs. -/

/-- The members of a core's quad in ascending order of member index. -/
def quadOf (c : Nat) : List Nat := (List.range 4).map (fun m => quadCore c m)

/-- Whether a core holds a member of a quad gang, running or suspended (08 R159, R161). -/
def holdsMember (s : State) (c : Nat) : Bool :=
  let x := coreOf s c
  x.member.isSome || (x.haveTask && bits x.ctl.toNat 4 2 == 1 && bits x.ctl.toNat 7 5 == memberIdx c)

/-- Whether member k stands at the same gang or ungang as core c, the w-th of the pair: ungang pairs as a tile-slot instruction,
so it stands at the same place of the pairing (16 R389). -/
def meets (s : State) (c w k : Nat) : Bool := (coreOf s k).gangWait == w && (w == 1 || (coreOf s k).gangCnt == (coreOf s c).gangCnt)

/-- gang and ungang wait for the other three members, and complete on all four together (08 R180; 16 R389): w is 1 or 2. -/
def rendezvous (w : Nat) (on : Bool) (s : State) : Except Exc State :=
  let c := s.cur
  let others := (quadOf c).filter (fun k => k != c)
  if others.all (meets s c w) then
    let t := others.foldl (fun u k =>
      retire k 4 u (modCore k (fun y => { y with ganged := on, gangCnt := 0, gangWait := 0, prevTiles := [] }) u)) s
    .ok (modCore c (fun y => { y with ganged := on, gangCnt := 0, gangWait := 0, prevTiles := [] }) t)
  else .error (.leave (setStall c 9 0 (modCore c (fun y => { y with gangWait := w }) s)))

/-- gang (16 R389). -/
def gangBody (s : State) : Except Exc State :=
  let x := me s
  if x.ganged || bits x.ctl.toNat 4 2 != 1 || !((quadOf s.cur).all (holdsMember s)) then .error (.trap 0x505 0)
  else rendezvous 1 true s

/-- gang (16 R389). -/
def execGang (s : State) : Host.Outcome State Fault Refusal := finish 4 s (gangBody s)

/-- ungang (16 R389). -/
def ungangBody (s : State) : Except Exc State :=
  if (me s).ganged then rendezvous 2 false s else .error (.trap 0x505 0)

/-- ungang (16 R389). -/
def execUngang (s : State) : Host.Outcome State Fault Refusal := finish 4 s (ungangBody s)

/-! Containment domains. -/

/-- An open domain by its id. -/
def domOf (s : State) (id : Nat) : Option Dom := (List.find? (fun (e : Nat × Dom) => e.2.id == id) s.doms).map (fun e => e.2)

/-- The next domain id in cyclic order over 1 to 65,535 that no open domain holds (20 R453). -/
def nextDomId (s : State) : Nat → Nat → Nat
  | 0, k => k
  | n + 1, k => if domOpen s k then nextDomId s n (k % 65535 + 1) else k

/-- A free entry of the domain table (20 R453). -/
def freeDom (s : State) : Option Nat :=
  if s.doms.length < 4096 then (List.range (s.doms.length + 1)).find? (fun i => (AList.find? s.doms i).isNone) else none

/-- Assigns a domain id (20 R453). -/
def assignDom (s : State) : Nat × State :=
  let id := nextDomId s 4096 s.domNext
  (id, { s with domNext := id % 65535 + 1, killed := removeNat id s.killed })

/-- cdopen (16 R390). -/
def cdopenBody (rd rs1 : Reg) (s : State) : Except Exc State := do
  let c := s.cur
  let s1 ← memGate s
  let slot ← readPlain rs1 s1
  let x := me s1
  let depth := ((domOf s1 (domainOf x)).map (fun d => d.depth)).getD 0
  match freeDom s1 with
  | none => .error (.trap 0x602 0)
  | some i =>
    if 4 ≤ depth then .error (.trap 0x602 0)
    else do
      slotGate slot
      let (id, s2) := assignDom s1
      let (g, y) := newGtid c x
      let a (k : Nat) : Nat := (getX k x).toNat
      let ctl := mkCtl (x.ctl.toNat % 4) (bits x.ctl.toNat 4 2) (bits x.ctl.toNat 7 5) 0 id false true
      let r := mkRecord (x.pc + 4).toNat g.toNat ctl 0 (a 10) (a 11) (a 12) (a 13)
      let s3 ← writeWords (whoCore s2 c) c slot.toNat r 8 (setCore c { y with ctl := setBits x.ctl 31 16 id } s2)
      let d : Dom :=
        { state := 0, retries := 0, depth := depth + 1, id := id, parent := domainOf x, dies := 2 ^ dOf c, origin := c
          root := slot, opener := x.gtid }
      writeX rd (wd id) { drainAll c s3 with doms := AList.put i d s3.doms }

/-- cdopen (16 R390). -/
def execCdopen (rd rs1 : Reg) (s : State) : Host.Outcome State Fault Refusal := finish 4 s (cdopenBody rd rs1 s)

/-- Whether a CDSCOPED command of a domain's tasks is not complete (16 R391). -/
def cdBusy (s : State) (id : Nat) : Bool := List.any s.clusters (fun (k : Nat × ClusterSt) => List.any k.2.nodes (fun (n : Nat × Node) => n.2.dom == id && (cmdHdr n.2.cmd).cdscoped))

/-- cdclose (16 R391). -/
def cdcloseBody (s : State) : Except Exc State :=
  let c := s.cur
  let x := me s
  match domOf s (domainOf x) with
  | none => .error (.trap 0x603 0)
  | some d =>
    if d.opener ≠ x.gtid ∨ 0 < d.live ∨ List.any s.doms (fun (e : Nat × Dom) => e.2.parent == d.id) then .error (.trap 0x603 0)
    else if cdBusy s d.id then .error (.stall 12 0)
    else do
      let t ← release .d s
      pure (modCore c (fun y => { y with ctl := setBits y.ctl 31 16 d.parent }) { t with doms := List.filter (fun (e : Nat × Dom) => e.2.id != d.id) t.doms })

/-- cdclose (16 R391). -/
def execCdclose (s : State) : Host.Outcome State Fault Refusal := finish 4 s (cdcloseBody s)

/-- cdabort (16 R392): the domain has an error, and the task stops until its rollback, a handler that executes it too. -/
def cdabortBody (s : State) : Except Exc State :=
  match domOf s (domainOf (me s)) with
  | none => .error (.trap 0x604 0)
  | some _ => .error (.leave (setStall s.cur 12 0 (domError s.cur 0x606 (modCore s.cur (fun x => { x with aborted := true }) s))))

/-- cdabort (16 R392). -/
def execCdabort (s : State) : Host.Outcome State Fault Refusal := finish 4 s (cdabortBody s)

end Sys2Proof.Machine

end
end

