-- ==== Sys2Proof/Machine/Sync.lean ====
section
/-!
DEFINITION. Messages, route tags, waiting on tags, barriers, tiles, leases and port status (16 R380 to R388; 15 R367 to R369;
03 R61; 14 R319 to R323).
-/

noncomputable section

namespace Sys2Proof.Machine

open Sys2Proof

/-! Messages. -/

/-- A message from the running core (16 R380). -/
def makeMsg (s : State) (target : Nat) (pl : List Word) (posted : Bool) (sc : Scope) : Msg :=
  { tenant := tenantOf (me s), src := s.cur, mod := s.modIdx, core := bits target 17 8, tag := target % 256, payload := pl
    posted := posted, sup := isSup (me s), scope := sc, gen := (clusterOf s (clOf s.cur)).mapgen, nacks := 0, held := false }

/-- A message leaves through its cluster's NI, or as a transaction for another module (16 R380, R381). -/
def injectMsg (target : Nat) (m : Msg) (s : State) : State :=
  let c := s.cur
  let dst := bits target 25 18
  if bit target 26 || dst == s.modIdx then modCluster (clOf c) (fun k => { k with msgs := k.msgs ++ [m] }) s
  else newTxn (clOf c) dst m.tenant 0 0 (.msg m) (8 * m.payload.length) 0 0 (!m.posted) none (some c) s

/-- send and sendp (16 R380 to R382): send stalls until the target has answered. -/
def sendBody (posted : Bool) (rd rs1 rs2 : Reg) (n : Nat) (sc : Scope) (s : State) : Except Exc State := do
  let c := s.cur
  let t ← readPlain rs1 s
  let target := t.toNat
  if bits target 63 27 ≠ 0 ∨ target % 256 = 0 ∨ 27 < rs2.val + n then .error (.trap 0x50B 0)
  else if (List.range (n + 1)).any (fun i => (me s).badX.contains (rs2.val + i)) then .error (.trap 0x605 0)
  else
    match (me s).sendReq with
    | .result v => writeX rd (wd v) (modCore c (fun x => { x with sendReq := .none }) s)
    | .waiting => .error (.stall 8 t)
    | .none => do
      let s1 ← memGate s
      let s2 ← release sc s1
      let pl := (List.range (n + 1)).map (fun i => getX (rs2.val + i) (me s2))
      let s3 := injectMsg target (makeMsg s2 target pl posted sc) s2
      if posted then writeX rd 0 s3
      else .error (.leave (setStall c 8 t (modCore c (fun x => { x with sendReq := .waiting }) s3)))

/-- send (16 R381). -/
def execSend (rd rs1 rs2 : Reg) (n : Fin 4) (sc : Scope) (s : State) : Host.Outcome State Fault Refusal :=
  finish 4 s (sendBody false rd rs1 rs2 n.val sc s)

/-- sendp (16 R381). -/
def execSendp (rd rs1 rs2 : Reg) (n : Fin 4) (sc : Scope) (s : State) : Host.Outcome State Fault Refusal :=
  finish 4 s (sendBody true rd rs1 rs2 n.val sc s)

/-! Route tags. -/

/-- A tag instruction (16 R383): f acts on the tag and gives none where the instruction must wait. -/
def tagBody (f : Nat → State → Option State) (rd rs1 : Reg) (s : State) : Except Exc State := do
  let a ← readPlain rs1 s
  let t := a.toNat % 256
  if t = 0 then .error (.trap 0x50C 0)
  else
    match f t s with
    | some u => writeX rd (tagWord (me s) t) u
    | none => .error (.stall 12 0)

/-- tagen (16 R383): enables the tag, and fires it where PEND is 1. -/
def enableTag (c t : Nat) (s : State) : Option State :=
  let d1 := tagWord (coreOf s c) t
  let u := setTagWord c t (setBits d1 63 63 1) s
  if bit d1.toNat 62 then fireTag c t u else some u

/-- tagset (16 R383): PEND of a disabled tag, or one action with a zero payload. -/
def setTag (c t : Nat) (s : State) : Option State :=
  let x := coreOf s c
  let d1 := tagWord x t
  let pend (u : State) : State := setTagWord c t (setBits d1 62 62 1) u
  let hold (u : State) : Option State := if (coreOf u c).inbox.length < 64 then some (pend (holdMsg c (zeroMsg u c t) u)) else none
  if bit d1.toNat 63 = false then some (pend s)
  else if inboxHas x t then hold s
  else
    let r := tagAct c t .c [] s
    if r.2 then some r.1 else hold r.1

/-- tagclr (16 R383). -/
def clearTag (c t : Nat) (s : State) : State :=
  let x := coreOf s c
  if inboxHas x t then s
  else modCore c (fun y => { y with seen := removeNat t y.seen }) (setTagWord c t (setBits (tagWord x t) 62 62 0) s)

/-- tagen (16 R383). -/
def execTagen (rd rs1 : Reg) (s : State) : Host.Outcome State Fault Refusal := finish 4 s (tagBody (enableTag s.cur) rd rs1 s)

/-- tagdis (16 R383). -/
def execTagdis (rd rs1 : Reg) (s : State) : Host.Outcome State Fault Refusal :=
  finish 4 s (tagBody (fun t u => some (setTagWord s.cur t (setBits (tagWord (coreOf u s.cur) t) 63 63 0) u)) rd rs1 s)

/-- tagset (16 R383). -/
def execTagset (rd rs1 : Reg) (s : State) : Host.Outcome State Fault Refusal := finish 4 s (tagBody (setTag s.cur) rd rs1 s)

/-- tagclr (16 R383). -/
def execTagclr (rd rs1 : Reg) (s : State) : Host.Outcome State Fault Refusal :=
  finish 4 s (tagBody (fun t u => some (clearTag s.cur t u)) rd rs1 s)

/-- tagq (16 R383). -/
def execTagq (rd rs1 : Reg) (s : State) : Host.Outcome State Fault Refusal := finish 4 s (tagBody (fun _ u => some u) rd rs1 s)

/-- tagw (16 R383). -/
def tagwBody (rs1 rs2 xc : Reg) (s : State) : Except Exc State := do
  let a ← readPlain rs1 s
  let h ← readPlain rs2 s
  let q ← readPlain xc s
  let t := a.toNat % 256
  let v := q.toNat
  if t = 0 ∨ h.toNat % 4 ≠ 0 ∨ bits v 60 59 = 3 ∨ bits v 63 62 ≠ 0 ∨ bits v 58 10 ≠ 0 then .error (.trap 0x50C 0)
  else
    let keep := bits (tagWord (me s) t).toNat 63 62
    pure (modCore s.cur (fun x => { x with tags := x.tags.put t (h, wd (keep * 2 ^ 62 + v)) }) s)

/-- tagw (16 R383). -/
def execTagw (rs1 rs2 xc : Reg) (s : State) : Host.Outcome State Fault Refusal := finish 4 s (tagwBody rs1 rs2 xc s)

/-- The tags that wait names (16 R385). -/
def waitTags (grp v : Nat) : List Nat := ((List.range 64).filter (fun i => bit v i)).filterMap (fun i => if 64 * grp + i = 0 then none else some (64 * grp + i))

/-- wait (16 R385). -/
def waitBody (rs1 : Reg) (grp : Nat) (s : State) : Except Exc State := do
  let c := s.cur
  let a ← readPlain rs1 s
  let m := waitTags grp a.toNat
  let x := me s
  if m = [] then pure (modCore c (setX 10 0) s)
  else
    match m.find? (fun t => x.seen.contains t) with
    | some t => pure (modCore c (fun y => setX 10 (wd t) { y with seen := removeNat t y.seen }) s)
    | none =>
      if 16 ≤ x.waits.length then .error (.trap 0x50D 0)
      else do
        let s1 ← memGate s
        let s2 ← suspendStart c (x.pc + 4) 0 s1
        .error (.leave (suspendLeave (modCore c (fun y => { y with waits := y.waits ++ [{ tags := m, slot := x.trec }] }) s2)))

/-- wait (16 R385). -/
def execWait (rs1 : Reg) (grp : Fin 4) (s : State) : Host.Outcome State Fault Refusal := finish 4 s (waitBody rs1 grp.val s)

/-! Barriers. -/

/-- Participants of a descriptor (15 R367). -/
def barCount (w : Nat) : Nat := bits w 47 33 + 1
/-- The yard-wide index of participant p (15 R367). -/
def barCore (w p : Nat) : Nat := bits w 62 48 + p * bits w 32 18

/-- The participant that a yard-wide index is (15 R367). -/
def partOf (w y : Nat) : Option Nat :=
  let base := bits w 62 48
  let st := bits w 32 18
  if y < base then none
  else if st = 0 then (if y = base then some 0 else none)
  else if (y - base) % st = 0 ∧ (y - base) / st < barCount w then some ((y - base) / st)
  else none

/-- ceil(log2 n) (15 R368). -/
def log2up (n : Nat) : Nat := if n ≤ 1 then 0 else Nat.log2 (n - 1) + 1

/-- The scope of a barrier's release and acquire (15 R369). -/
def barScope (w : Nat) : Scope :=
  let l := (List.range (barCount w)).map (barCore w)
  let y := barCore w 0
  if l.all (fun k => k / 8 == y / 8 && k % 4 / 2 == y % 4 / 2) then .q
  else if l.all (fun k => k / 8 == y / 8) then .t
  else if l.all (fun k => k / 128 == y / 128) then .d
  else if l.all (fun k => k / 1024 == y / 1024) then .p
  else .y

/-- Participant p of a descriptor at a cluster. -/
def barPart (s : State) (cl d p : Nat) : BarPart := ((clusterOf s cl).bars.get {} d).parts.get {} p
/-- Replaces a participant's state. -/
def putPart (cl d p : Nat) (b : BarPart) (s : State) : State :=
  modCluster cl (fun k =>
    let e := k.bars.get {} d
    { k with bars := k.bars.put d { e with parts := e.parts.put p b } }) s

/-- A participant sends the notification of a round (15 R368). -/
def sendNotify (cl d p w : Nat) (b : BarPart) (s : State) : State :=
  let me := barCore w p
  let y := barCore w ((p + 2 ^ b.sent) % barCount w)
  let n : Notify :=
    { desc := d, epoch := b.epoch, rnd := b.sent, dst := y % 1024, src := me % 1024, tenant := bits w 17 10
      gen := (clusterOf s cl).mapgen }
  if y / 1024 = s.modIdx % 32 then modCluster cl (fun k => { k with notes := k.notes ++ [n] }) s
  else newTxn cl (s.modIdx / 32 * 32 + y / 1024) n.tenant 0 0 (.notify n) 8 0 0 false none none s

/-- A participant's rounds go on as far as they can (15 R368): the epoch completes after the last round. -/
def barAdvance (cl d p w : Nat) : Nat → State → State
  | 0, s => s
  | fuel + 1, s =>
    let b := barPart s cl d p
    let k := log2up (barCount w)
    if b.arrived = false then s
    else if b.sent < k ∧ (b.sent = 0 ∨ b.got.contains (b.sent - 1) = true) then
      barAdvance cl d p w fuel (putPart cl d p { b with sent := b.sent + 1 } (sendNotify cl d p w b s))
    else if b.sent = k ∧ (k = 0 ∨ b.got.contains (k - 1) = true) then
      putPart cl d p { epoch := b.epoch + 1, arrived := false, sent := 0, got := b.gotNext, gotNext := [] } s
    else s

/-- The descriptor and participant of a barrier instruction, or its fault (16 R386). -/
def barGate (d : Nat) (s : State) : Except Exc (Nat × Nat) :=
  let w := ((clusterOf s (clOf s.cur)).bars.get {} d).word.toNat
  if bit w 63 && bits w 17 10 == tenantOf (me s) then
    match partOf w (yidx s s.cur) with
    | some p => .ok (w, p)
    | none => .error (.trap 0x50E 0)
  else .error (.trap 0x50E 0)

/-- bara (16 R386; 15 R368, R369). -/
def baraBody (d : Nat) (s : State) : Except Exc State := do
  let (w, p) ← barGate d s
  let cl := clOf s.cur
  if (barPart s cl d p).arrived then .error (.stall 4 (wd d))
  else do
    let t ← release (barScope w) s
    pure (barAdvance cl d p w 20 (putPart cl d p { barPart t cl d p with arrived := true } t))

/-- barw (16 R386; 15 R369). -/
def barwBody (d : Nat) (s : State) : Except Exc State := do
  let (w, p) ← barGate d s
  if (barPart s (clOf s.cur) d p).arrived then .error (.stall 4 (wd d))
  else do
    let t ← orderOp s.cur true false false false (barScope w) s
    pure (modCore s.cur (fun x => { x with barArrived := false }) t)

/-- bar (16 R386): bara, then barw; one that has arrived goes on as barw. -/
def barBody (d : Nat) (s : State) : Except Exc State :=
  if (me s).barArrived then barwBody d s
  else do
    let t ← baraBody d s
    let u := modCore s.cur (fun x => { x with barArrived := true }) t
    match barwBody d u with
    | .ok v => .ok v
    | .error (.leave v) => .error (.leave v)
    | .error _ => .error (.leave (setStall s.cur 4 (wd d) u))

/-- bara (16 R386). -/
def execBara (d : Fin 64) (s : State) : Host.Outcome State Fault Refusal := finish 4 s (baraBody d.val s)
/-- barw (16 R386). -/
def execBarw (d : Fin 64) (s : State) : Host.Outcome State Fault Refusal := finish 4 s (barwBody d.val s)
/-- bar (16 R386). -/
def execBar (d : Fin 64) (s : State) : Host.Outcome State Fault Refusal := finish 4 s (barBody d.val s)

/-! Tiles, leases and port status. -/

/-- Whether a range of tiles includes tile 0 or reaches the tile count (03 R61). -/
def tilesBad (x : CoreSt) (first n : Nat) : Bool := first == 0 || decide (tileCount x < first + n)

/-- give (16 R387; 03 R61): the owner bits are set, and operations that wait in the tiles fail. -/
def giveBody (rs1 : Reg) (n : Nat) (s : State) : Except Exc State := do
  let c := s.cur
  let a ← readPlain rs1 s
  if tilesBad (me s) a.toNat n then .error (.trap 0x402 0)
  else
    let tiles := (List.range n).map (fun i => a.toNat + i)
    let t := modCore c (fun x => { x with owner := tiles.foldl (fun l i => insertNat i l) x.owner }) s
    pure (failWaiters c 0x203 (fun w => tiles.contains (tileOf w.off)) t)

/-- take (16 R387; 03 R61): waits until the owner bits are 0. -/
def takeBody (rs1 : Reg) (n : Nat) (s : State) : Except Exc State := do
  let a ← readPlain rs1 s
  if tilesBad (me s) a.toNat n then .error (.trap 0x402 0)
  else if (List.range n).any (fun i => (me s).owner.contains (a.toNat + i)) then .error (.stall 3 a)
  else pure s

/-- give (16 R387). -/
def execGive (rs1 : Reg) (cnt : Fin 256) (s : State) : Host.Outcome State Fault Refusal := finish 4 s (giveBody rs1 (cnt.val + 1) s)
/-- take (16 R387). -/
def execTake (rs1 : Reg) (cnt : Fin 256) (s : State) : Host.Outcome State Fault Refusal := finish 4 s (takeBody rs1 (cnt.val + 1) s)

/-- mlease (16 R387; 14 R320, R321): it stalls until the array takes its core; result 0 is the grant. -/
def mleaseBody (rs1 : Reg) (s : State) : Except Exc State := do
  let c := s.cur
  let a ← readPlain rs1 s
  let x := me s
  match x.leaseReq with
  | .result v =>
    if v = 0 then pure (modCore c (fun y => { y with leaseReq := .none }) s) else .error (.trap 0x405 0)
  | .waiting => .error (.stall 7 1)
  | .none =>
    if a = 0 ∨ tileCount x < a.toNat + 16 ∨ (leaseOf s c).isSome = true then .error (.trap 0x403 0)
    else
      let r : LeaseReq := { core := c, gtid := x.gtid, sb := a.toNat, since := (dieOf s (dOf c)).cyc }
      let t := modCluster (clOf c) (fun k => { k with leaseReqs := k.leaseReqs ++ [r] }) s
      .error (.leave (setStall c 7 1 (modCore c (fun y => { y with leaseReq := .waiting }) t)))

/-- mlease (16 R387). -/
def execMlease (rs1 : Reg) (s : State) : Host.Outcome State Fault Refusal := finish 4 s (mleaseBody rs1 s)

/-- mfree (16 R387; 14 R323). -/
def mfreeBody (s : State) : Except Exc State :=
  if (leaseOf s s.cur).isNone then .ok s
  else if mxPending s s.cur then .error (.stall 7 1)
  else .ok (freeLease s.cur s)

/-- mfree (16 R387). -/
def execMfree (s : State) : Host.Outcome State Fault Refusal := finish 4 s (mfreeBody s)

/-- qstat (16 R388; 15 R345). -/
def execQstat (rd : Reg) (p : Fin 4) (s : State) : Host.Outcome State Fault Refusal :=
  finish 4 s (writeX rd (qstatOf s s.cur p.val) s)

/-! Abandoning a stalled instruction. -/

/-- A stalled instruction is abandoned (18 R418; 17 R407): what it had asked for is withdrawn. -/
def abandon (c : Nat) (s : State) : State :=
  let mine (m : Msg) : Bool := m.src == c && m.mod == s.modIdx && !m.posted
  let t := if (coreOf s c).sendReq = .waiting then
      { modCluster (clOf c) (fun k => { k with msgs := k.msgs.filter (fun m => !(mine m)) }) s with
        txns := s.txns.filter (fun t => match t.op with
          | .msg m => !(mine m && t.src == s.modIdx && !t.performed)
          | _ => true) }
    else s
  let u := modCluster (clOf c) (fun k => { k with leaseReqs := k.leaseReqs.filter (fun r => r.core != c) }) t
  clearStall c (modCore c (fun x => { x with sendReq := .none, gangWait := 0
                                             leaseReq := if x.leaseReq = .waiting then .none else x.leaseReq }) u)

end Sys2Proof.Machine

end
end

