-- ==== Sys2Proof/Machine/Hub.lean ====
section
/-!
DEFINITION. Barns (17 R400 to R403; 07 R157; 18 R430), split changes (03 R49), preemption (17 R406 to R408; 15 R353; 14 R323),
hang detection (17 R409 to R411), and the hub registers with a row of their own (17 R393, R404; 15 R367).
-/

noncomputable section

namespace Sys2Proof.Machine

open Sys2Proof

/-! The split of a core's array. -/

/-- A split change is carried out (03 R49): lines go home, rows that change sides lose what they held, operations that wait on
a word that leaves fail, and BUSY falls. -/
def splitDone (c : Nat) (s : State) : State :=
  let x := coreOf s c
  if bit x.spcfg.toNat 63 = false then s
  else
    let old := x.spcfg.toNat % 16
    let new := x.spNew
    let rows := 16 - max old new
    let cut := rows * 272 * 1024
    let s1 := x.sharers.foldl (fun t h => recallLine h.line t) s
    let s2 := (coreOf s1 c).copies.foldl (fun t k => returnCopy c k.line t) s1
    let out := (coreOf s2 c).l1.foldl (fun t l => l1Evict c l t) s2
    let s3 := if old < new then failWaiters c 0x205 (fun w => decide (cut ≤ w.off)) out else out
    modCore c (fun y => { y with
      l1 := []
      sp := y.sp.filter (fun e => decide (e.1 < cut))
      full := y.full.filter (fun k => decide (8 * k < cut))
      spBad := y.spBad.filter (fun k => decide (16 * k < cut)), spPois := y.spPois.filter (fun k => decide (16 * k < cut))
      owner := y.owner.filter (fun k => decide (k < rows * 16))
      spcfg := wd (bits y.spcfg.toNat 62 62 * 2 ^ 62 + new), spNew := 0 }) s3

/-- SPLIT_CHANGE_COMPLETE (03 R49). -/
def execSplitChangeComplete (c : Nat) (s : State) : Host.Outcome State Fault Refusal := .next (splitDone c s)

/-- A core's split becomes n sixteenths of L1 at once (17 R402). -/
def setSplit (c n : Nat) (s : State) : State :=
  if (coreOf s c).spcfg.toNat % 16 = n ∧ bit (coreOf s c).spcfg.toNat 63 = false then s
  else splitDone c (modCore c (fun x => { x with spcfg := x.spcfg ||| wd (2 ^ 63), spNew := n }) s)

/-! Starting barns. -/

/-- Whether a cluster waits to be restored: its tenant has asked for the reload of a save that holds it (17 R400, R408). Log
76, DEDUCED, unsafe. -/
def restoring (s : State) (cl : Nat) : Bool :=
  bit s.preempt.toNat 63 && bit s.preempt.toNat 9 &&
    s.saves.any (fun v => v.tenant == bits s.preempt.toNat 7 0 && v.clusters.any (fun k => k.cl == cl))

/-- Whether a cluster is free (17 R400). Log 76, DEDUCED, unsafe. -/
def clusterFree (s : State) (cl : Nat) : Bool :=
  (barnAt s cl).isNone && !(restoring s cl) && (AList.find? s.dead (clDie cl)).isNone

/-- The batch that holds a sequence number of queue q. -/
def batchAt (s : State) (q j : Nat) : Option Batch :=
  (qOf s q).batches.find? (fun b => decide (b.seq0 ≤ j) && decide (j < b.seq0 + b.nbarn))

/-- The next barn of queue q with its batch and die (17 R398, R400). -/
def nextBarn (s : State) (q : Nat) : Option (Nat × Batch × Nat) :=
  let x := qOf s q
  if x.seqNext ≤ x.started then none
  else
    match batchAt s q x.started with
    | none => none
    | some b =>
      match barnDie s.live b.db b.aff (x.started - b.seq0) with
      | none => none
      | some d => some (x.started, b, d)

/-- The free clusters of a queue's tenant on a die (17 R400). -/
def freeClusters (s : State) (q d : Nat) : List Nat := (paddockOn s (qTenant s q) d).filter (clusterFree s)

/-- Whether barn j of queue q waits under 17 R400: 256 barns of its job are unreported, or its clusters are not free. -/
def mustWait (s : State) (q j : Nat) (b : Batch) (d : Nat) : Bool :=
  decide ((qOf s q).reported + 256 ≤ j) || decide ((freeClusters s q d).length < b.cpb)

/-- Whether a barn that has waited 1 ms on a die keeps queue q's next barn from it (17 R401); of two that have, the one that has waited
longer comes first. Log 76, DEDUCED, unsafe. -/
def barred (s : State) (q d : Nat) : Bool :=
  s.queues.any (fun e =>
    match e.2.waitAt, nextBarn s e.1 with
    | some t, some (_, _, k) => e.1 != q && k == d && decide (t + 10 ^ 6 ≤ s.time) && !(tenantStopped s (qTenant s e.1)) &&
        (qOf s q).waitAt.all (fun u => decide (t < u) || (t == u && decide (e.1 < q)))
    | _, _ => false)

/-- The clusters that the next barn of queue q would take; none while it must wait (17 R400, R401). -/
def barnPlace (s : State) (q : Nat) : Option (List Nat) :=
  match nextBarn s q with
  | none => none
  | some (j, b, d) =>
    if mustWait s q j b d || tenantStopped s (qTenant s q) || !(queuesRun s) || barred s q d then none
    else some ((freeClusters s q d).take b.cpb)

/-- A job whose next barn must wait under R400 remembers since when (17 R401): one that only a preemption stops does not wait. -/
def noteWait (q : Nat) (s : State) : State :=
  match nextBarn s q with
  | none => modQ q (fun x => { x with waitAt := none }) s
  | some (j, b, d) =>
    if mustWait s q j b d && !(tenantStopped s (qTenant s q)) && queuesRun s then
      (if (qOf s q).waitAt.isSome then s else modQ q (fun x => { x with waitAt := some s.time }) s)
    else modQ q (fun x => { x with waitAt := none }) s

/-- Whether queue q is the next to be served: the first in ascending order after the job served last (17 R401). -/
def servedNext (s : State) (q : Nat) : Bool :=
  ((List.range 64).map (fun i => (s.served + 1 + i) % 64)).find? (fun k => (barnPlace s k).isSome) == some q

/-- A core of a cluster that a barn takes (17 R402, steps 1 to 4; 18 R430): other is whether another tenant held it, img the
bytes of the scratchpad image. Log 80, DEDUCED, unsafe. -/
def bindCore (c : Nat) (b : Batch) (vmroot tvec : Word) (other : Bool) (l1six : Nat) (img : List Nat) (s : State) : State :=
  let s1 :=
    if other then
      let r := (coreOf s c).copies.foldl (fun u k => returnCopy c k.line u) ((coreOf s c).sharers.foldl (fun u h => recallLine h.line u) s)
      modCore c (fun x => { x with l1 := [], sp := [], full := [], spBad := [], spPois := [], links := [] }) r
    else s
  let s2 := setSplit c l1six (modCore c (fun x => { x with owner := [] }) s1)
  let s3 := putVmroot c vmroot.toNat s2
  modCore c (fun x => { x with
    tags := b.tagimg, seen := [], inbox := [], tvec := wd (tvec.toNat / 256 * 256), rqspill := x.spillArea
    sp := img.zipIdx.foldl (fun m e => Memory.write e.2 (BitVec.ofNat 8 e.1) m) x.sp
    full := x.full.filter (fun k => decide (img.length ≤ 8 * k))
    spBad := x.spBad.filter (fun k => decide (img.length < 16 * k + 16)), spPois := x.spPois.filter (fun k => decide (img.length < 16 * k + 16)) }) s3

/-- The cores on which the tasks of a team are placed, in task order (17 R402). -/
def teamCores (cl level n : Nat) : List Nat :=
  ((if level = 1 then [0, 1, 4, 5, 2, 3, 6, 7] else List.range 8).take n).map (fun i => 8 * cl + i)

/-- Task k of team t of barn j is placed on a core (17 R402; 22 R483). -/
def placeTask (c j bidx t k : Nat) (b : Batch) (s : State) : State :=
  let (g, y) := newGtid c (coreOf s c)
  let slot := wd (b.rslot.toNat + 64 * (128 * (j % 256) + 8 * t + k))
  let ctl := wd (mkCtl 1 b.level (if b.level = 1 then k % 4 else 0) 0 0 false false)
  let regs : AList Word := [(10, wd bidx), (11, wd t), (12, wd k), (13, b.karg)]
  modCore c (fun x => { x with bkpPend := b.trap }) (startTask c slot b.entry g ctl 0 regs (setCore c y s))

/-- Barn j of queue q starts on clusters (17 R402): one step. Log 82, DEDUCED, unsafe; log 99, DEDUCED, unsafe. -/
def startBarn (q j : Nat) (b : Batch) (d : Nat) (cls : List Nat) (h : ModHdr) (img : List Nat) (s : State) : State :=
  let tn := qTenant s q
  let x := qOf s q
  let root := wd (tn * 2 ^ 56 + bits x.ctl.toNat 51 12 * 2 ^ 12 + 1)
  let s1 := cls.foldl (fun u cl =>
    let other := (clusterOf u cl).lastTenant.any (fun k => k != tn)
    let v := forN 8 (fun i w => bindCore (8 * cl + i) b root x.tvec other h.l1six img w) u
    modCluster cl (fun k => { k with lastTenant := some tn, evAt := v.time }) v) s
  let barn : Barn := { q := q, seq := j, seq0 := b.seq0, tenant := tn, die := d, clusters := cls, live := cls.length * b.team }
  let s2 : State := { s1 with barns := s1.barns ++ [barn], served := q }
  let s3 := cls.foldl (fun u cl => forN 8 (fun i w =>
    modCore (8 * cl + i) (fun y => withSince w.time y { y with barn := some (q, j), run := .idle, picking := true, stall := none }) w) u) s2
  let s4 := cls.zipIdx.foldl (fun u e =>
    (teamCores e.1 b.level b.team).zipIdx.foldl (fun v f => placeTask f.1 j (j - b.seq0) e.2 f.2 b v) u) s3
  noteWait q (modQ q (fun y => { y with started := j + 1, waitAt := none }) s4)

/-- The module header at a barn's start (17 R402): as memory holds it, or as it was at dispatch where it can no longer be read as one.
Log 82, DEDUCED, unsafe. -/
def barnHeader (q : Nat) (b : Batch) (s : State) : ModHdr :=
  (readHeader q b.modhdr.toNat s).getD
    { l1six := b.hdr.getD 0 4, code := b.hdr.getD 1 0, len := b.hdr.getD 2 4, spimg := b.hdr.getD 3 0, splen := b.hdr.getD 4 0 }

/-- The bytes of a scratchpad image (18 R430): what can no longer be read has a free value. Log 82, DEDUCED, unsafe. -/
def imageBytes (q : Nat) (h : ModHdr) (s : State) : List Nat :=
  if h.spimg = 0 then []
  else
    (List.range (h.splen / 8)).flatMap (fun i =>
      let w := match hubGet q (h.spimg + 8 * i) 8 s with
        | .ok (v, _) => v
        | .error _ => (Config.word (s.free + i)).toNat
      (List.range 8).map (fun k => w / 2 ^ (8 * k) % 256))

/-- The next barn of queue q starts if it can (17 R400 to R402). -/
def tryBarn (q : Nat) (s : State) : State :=
  match nextBarn s q, barnPlace s q with
  | some (j, b, d), some cls =>
    if servedNext s q then
      let h := barnHeader q b s
      let t := startBarn q j b d cls h (imageBytes q h s) s
      { t with free := t.free + h.splen / 8 }
    else s
  | _, _ => noteWait q s

/-- BARN_START (17 R402). -/
def execBarnStart (q : Nat) (s : State) : Host.Outcome State Fault Refusal := .next (if q < 64 then tryBarn q s else s)

/-! Completing barns. -/

/-- Whether everything a barn needs for its completion has happened (07 R157; 20 R455): its tasks have executed exit, its
commands are complete, no domain opened in it is rolling back, and what the report follows is performed: stores that wait at a home or
the remote partition, and atomics and reductions at other modules. -/
def barnDone (s : State) (b : Barn) : Bool :=
  b.live == 0 && b.clusters.all (fun cl => (clusterOf s cl).nodes.isEmpty && (List.range 8).all (fun i => !(parked s (8 * cl + i)))) &&
    !(s.doms.any (fun e => e.2.err.isSome && b.clusters.contains (clOf e.2.origin))) &&
    !(s.txns.any (fun t => isUpdate s t && t.core.any (fun c => b.clusters.contains (clOf c))))

/-- A cluster loses its barn's tag tables, seen sets and inboxes (17 R403). -/
def clearCluster (cl : Nat) (s : State) : State :=
  forN 8 (fun i t => modCore (8 * cl + i) (fun x => { x with tags := [], seen := [], inbox := [] }) t) s

/-- Whether a die's remote partition holds dirty bytes. -/
def rpDirty (s : State) (d : Nat) : Bool := (dieOf s d).rp.any (fun l => !(l.dirty.isEmpty))

/-- The oldest unreported barns of queue q are reported while they are complete (17 R403; 07 R157): each after a release of
scope .s, with the stores of its tasks to kind 4 lines written back. -/
def reportBarns (q : Nat) : Nat → State → State
  | 0, s => s
  | fuel + 1, s =>
    let x := qOf s q
    match s.barns.find? (fun b => b.q == q && b.seq == x.reported && b.st == .complete), batchAt s q x.reported with
    | some b, some bt =>
      let t := if rpDirty s b.die then rpSend (128 * b.die) s else s
      if rpBusy t b.die || !((dieOf t b.die).rpStores.isEmpty) then t
      else
        let u := hubChange q bt.cw.toNat (arriveWord none) { t with barns := t.barns.erase b }
        let last := decide (b.seq + 1 = bt.seq0 + bt.nbarn)
        let v := modQ q (fun y => { y with
          reported := y.reported + 1
          batches := if last then y.batches.filter (fun k => k.seq0 != bt.seq0) else y.batches }) u
        reportBarns q fuel (if last then closed q bt.idx v else v)
    | _, _ => s

/-- A request for a batch-boundary preemption finishes when the tenant has no resident barn (17 R406). -/
def batchBoundary (s : State) : State :=
  let p := s.preempt.toNat
  if bit p 63 && !(bit p 9) && !(bit p 8) && tenantStopped s (bits p 7 0) &&
      !(s.barns.any (fun b => b.st == .resident && b.tenant == bits p 7 0)) then { s with preempt := wd (bits p 7 0) }
  else s

/-- A barn completes (07 R157; 17 R403), and the job reports what it can. -/
def completeBarn (q j : Nat) (s : State) : State :=
  match s.barns.find? (fun b => b.q == q && b.seq == j) with
  | none => s
  | some b =>
    if b.st = .resident ∧ barnDone s b = true then
      let t := b.clusters.foldl (fun u cl => clearCluster cl u) s
      let u : State := { t with barns := t.barns.map (fun k => if k.q = q ∧ k.seq = j then { k with st := .complete } else k) }
      reportBarns q 256 (batchBoundary u)
    else reportBarns q 256 s

/-- BARN_COMPLETE (17 R403). -/
def execBarnComplete (q seq : Nat) (s : State) : Host.Outcome State Fault Refusal := .next (completeBarn q seq s)

/-! Preemption. -/

/-- The number of a command's scratchpad spans that are its destinations, the last of those it names, for a command that can be
abandoned (15 R353). -/
def dstSpans (j : Names) : Instr → Option Nat
  | .cpG2s _ _ _ => some j.spans.length
  | .cpRget _ _ _ _ _ => some j.spans.length
  | .cpS2g _ _ _ => some 0
  | .cpRput _ _ _ _ _ => some 0
  | .cpCk _ _ _ _ => some 0
  | .cpS2s _ _ _ _ _ _ => some 1
  | .cpGath _ _ _ _ _ _ => some 1
  | .cp2d _ _ dir _ _ _ _ => some (if dir then 0 else j.spans.length)
  | .bdGath _ _ dst _ _ _ _ _ => some (if isGlob dst then 0 else 1)
  | .bdCvt _ _ dst _ _ _ _ _ _ => some (if isGlob dst then 0 else 1)
  | .bdCopy _ _ dst _ _ => some (if isGlob dst then 0 else 1)
  | _ => none

/-- Whether a launched command can be abandoned and restarted (15 R353): a copy, gather or conversion whose source and destination
ranges do not overlap. -/
def restartable (s : State) (cl : Nat) (i : Instr) : Bool :=
  let j := cmdNames s cl i
  let meet (a b : Span) : Bool := a.core == b.core && decide (a.off < b.off + b.len) && decide (b.off < a.off + a.len)
  let meetG (a b : Named) : Bool := a.acc != b.acc && decide (a.va < b.va + b.len) && decide (b.va < a.va + a.len)
  match dstSpans j i with
  | none => false
  | some k =>
    let n := j.spans.length - k
    (j.spans.take n).all (fun a => (j.spans.drop n).all (fun b => !(meet a b))) && j.globs.all (fun a => j.globs.all (fun b => !(meetG a b)))

/-- Whether a send of core c has been accepted, its answer on its way or not yet taken: the instruction must complete (17 R407). -/
def sendTaken (s : State) (c : Nat) : Bool :=
  (match (coreOf s c).sendReq with | .result _ => true | _ => false) ||
    s.txns.any (fun t => t.performed && t.src == s.modIdx && (match t.op with | .msg m => m.src == c && m.mod == s.modIdx && !m.posted | _ => false))

/-- Whether the ganged members of core c's quad stand at one pairing boundary (08 R180). -/
def gangEven (s : State) (c : Nat) : Bool :=
  !((coreOf s c).ganged) || (quadOf c).all (fun k => !((coreOf s k).ganged) || (coreOf s k).gangCnt == (coreOf s c).gangCnt)

/-- Whether a cluster can be saved now (17 R407, R353; 18 R422; 08 R180): no window awaits the fabric, no accepted send has yet to
complete, the gangs stand at a pairing boundary, every launched command that must run to completion has, and none is between its
completion steps. -/
def canSave (s : State) (cl : Nat) : Bool :=
  (List.range 8).all (fun i => !(windowAway (coreOf s (8 * cl + i))) && !(sendTaken s (8 * cl + i)) && gangEven s (8 * cl + i)) &&
    (clusterOf s cl).nodes.all (fun e => e.2.st != .launched || (restartable s cl e.2.cmd && !e.2.given))

/-- A saved node (15 R353): an abandoned one is saved launched, and starts again. -/
def savedNode (n : Node) : Node :=
  if n.st = .launched then { n with done := false, err := none, dsts := [], rel := false } else n

/-- A core's state as the save keeps it (17 R407; 18 R419, R422; 10 R242): a stopped or halted core's task runs on. -/
def savedCore (x : CoreSt) : CoreSt :=
  { deliverAll x with
    stall := none, resv := none, fbuf := []
    run := match x.run with | .halted => .running | .stopped => .running | r => r }

/-- A core after its tenant's state has been saved (17 R407): nothing of a task is left on it. Its owner bits stay until a barn starts
(03 R59). -/
def emptiedCore (x : CoreSt) : CoreSt :=
  { blankTask x with
    run := .idle, stall := none, haveTask := false, gtid := 0, ctl := 0, joinw := 0, member := none, memberSlot := none, picking := false
    fifo0 := {}, fifo1 := {}, fifo2 := {}, deque := {}, hslots := [], pushes := [], tags := [], seen := [], inbox := [], waits := []
    links := [], ports := [], waiters := [], nacked := [], gangCnt := 0, prevTiles := [], trapQ := [], stepPend := false
    hangPend := none, ovfPend := [], spillPend := false, barn := none, waker := none
    status := 1 }

/-- A core stops (17 R407, step 2): a stalled instruction is abandoned, what waits is withdrawn, the combining buffer drains,
and copies of lines go home. -/
def stopCore (c : Nat) (s : State) : State :=
  let x := coreOf s c
  let t := if x.haveTask then traceRec c 7 x.gtid 0 0 x.pc s else s
  let u := drainAll c (withdraw c (abandon c t))
  (coreOf u c).copies.foldl (fun v k => returnCopy c k.line v) ((coreOf u c).sharers.foldl (fun v h => recallLine h.line v) u)

/-- The newest entry that a FIFO holds in hardware goes to the front of its ring, or a deque's oldest to the end (08 R169, R170): one
that carries a migration's registers, and one whose store faults or finds no room, stays. -/
def spillOne (c k : Nat) (s : State) : State :=
  let q := qGet (coreOf s c) k
  match (if k = 3 then q.hw.head? else q.hw.getLast?) with
  | none => s
  | some e =>
    if (coreOf s c).rqspill = 0 ∨ 512 ≤ q.ring.length ∨ e.mig.isSome then s
    else
      let i := if k = 3 then q.rhead + q.ring.length else q.rhead + 511
      match writeWords (whoSup s c) c (ringVa (coreOf s c) k i) e.slot.toNat 1 s with
      | .error _ => s
      | .ok t =>
        let r : RunQ := if k = 3 then { q with hw := q.hw.drop 1, ring := q.ring ++ [e] } else { hw := q.hw.dropLast, ring := e :: q.ring, rhead := i }
        count 0x73 1 c (modCore c (qSet k r) t)

/-- A core's queue entries spill to their rings (17 R407, step 4). Log 108, DEDUCED, unsafe. -/
def spillAll (c : Nat) (s : State) : State := drainAll c (forN 4 (fun k t => forN 64 (fun _ u => spillOne c k u) t) s)

/-- A core's FIFOs take entries back from their rings (08 R169; 17 R408). -/
def refillAll (c : Nat) (s : State) : State :=
  forN 3 (fun k t => forN 16 (fun _ u => if (qGet (coreOf u c) k).hw.length < 16 then refill c k u else u) t) s

/-- The dirty lines of a core's L1 are written back, and stay (17 R407, step 4; 04 R72). -/
def l1Back (c : Nat) (s : State) : State :=
  let t := ((coreOf s c).l1.filter (fun l => l.dirty && l.uo.isNone)).foldl (fun u l =>
    let pa := l.line * 128
    touchParity (lineKind l.line) pa (l2Access true (place u (lineKind l.line) pa) u)) s
  modCore c (fun x => { x with l1 := x.l1.map (fun l => if l.uo.isNone then { l with dirty := false } else l) }) t

/-- The cores of a cluster stop. -/
def stopCluster (cl : Nat) (s : State) : State := forN 8 (fun i u => stopCore (8 * cl + i) u) s

/-- A cluster whose cores have stopped is saved and freed (17 R407; 14 R323). Log 108, DEDUCED, unsafe. -/
def saveCluster (t cl : Nat) (s : State) : SavedCluster × State :=
  let s1 := forN 8 (fun i u => l1Back (8 * cl + i) (spillAll (8 * cl + i) u)) s
  let s2 := (clusterOf s1 cl).leases.foldl (fun u l => if l.phys.isSome then spillSet cl l u else u) s1
  let k := clusterOf s2 cl
  let k2 : ClusterSt := { k with nodes := k.nodes.map (fun e => (e.1, savedNode e.2)), turn := none }
  let cores := (List.range 8).map (fun i => savedCore (coreOf s2 (8 * cl + i)))
  let s3 := forN 8 (fun i u => modCore (8 * cl + i) (fun x => withSince u.time x (emptiedCore x)) u) s2
  let s4 := setCluster cl { k with
    nodes := [], leases := [], leaseReqs := [], turn := none, latches := [], hcount := [], outr := 0, latch := []
    bars := k.bars.filter (fun b => bits b.2.word.toNat 17 10 != t) } s3
  let s5 : State := { s4 with txns := s4.txns.filter (fun x => match x.node with | some (a, _) => a != cl | none => true) }
  ({ cl := cl, cores := cores, cluster := k2 }, s5)

/-- Adds a saved cluster to its tenant's save. -/
def addSave (t : Nat) (v : SavedCluster) (s : State) : State :=
  if s.saves.any (fun e => e.tenant == t) then
    { s with saves := s.saves.map (fun e => if e.tenant = t then { e with clusters := e.clusters ++ [v] } else e) }
  else { s with saves := s.saves ++ [{ tenant := t, clusters := [v] }] }

/-- A tenant's resident barns, but for those on a lost die. -/
def barnsOf (s : State) (t : Nat) (lost : Option Nat) : List Barn :=
  s.barns.filter (fun b => b.st == .resident && b.tenant == t && lost != some b.die)

/-- A tenant's barns start no more (17 R406, R407). -/
def stopTenant (t : Nat) (s : State) : State := { s with stopped := insertNat t s.stopped }

/-- Forced preemption of a tenant (17 R407), but for its barns on a lost die (20 R460): only the stop of new barns happens
before every cluster can be saved. -/
def forceTenant (t : Nat) (lost : Option Nat) (s : State) : State × Bool :=
  let s1 := stopTenant t s
  let bs := barnsOf s1 t lost
  let cls := bs.flatMap (fun b => b.clusters)
  if cls.all (canSave s1) then
    let u := cls.foldl (fun v cl => let r := saveCluster t cl v; addSave t r.1 r.2) (cls.foldl (fun v cl => stopCluster cl v) s1)
    ({ u with barns := u.barns.map (fun b => if bs.contains b then { b with st := .saved } else b) }, true)
  else (s1, false)

/-- A request in PREEMPT that an event serves: busy, for a tenant, with FORCE and RESUME as given (17 R406). -/
def requested (s : State) (t : Nat) (force resume : Bool) : Bool :=
  let p := s.preempt.toNat
  bit p 63 && bits p 7 0 == t && bit p 8 == force && bit p 9 == resume

/-- BUSY falls (17 R406). -/
def requestDone (s : State) : State := { s with preempt := wd (bits s.preempt.toNat 7 0) }

/-- PREEMPT_BATCH (17 R406). -/
def execPreemptBatch (t : Nat) (s : State) : Host.Outcome State Fault Refusal :=
  .next (if requested s t false false then batchBoundary (stopTenant t s) else s)

/-- PREEMPT_FORCE (17 R407). -/
def execPreemptForce (t : Nat) (s : State) : Host.Outcome State Fault Refusal :=
  .next (if requested s t true false then (let r := forceTenant t none s; if r.2 then requestDone r.1 else r.1) else s)

/-- A core takes its saved state, beside what is the core's and not the tenant's: its counters, its trace ring, its number of
tasks created, its caches, directories and predictor, and stores that wait at it (17 R408; 04 R78, R79; 08 R162). -/
def loadedCore (old x : CoreSt) : CoreSt :=
  { x with
    pred := old.pred, migcfg := old.migcfg, l1 := old.l1, copies := old.copies, sharers := old.sharers, remq := old.remq, l0 := old.l0, i0 := old.i0
    spillArea := old.spillArea
    cnt := old.cnt, evsel := old.evsel, trcbase := old.trcbase, trcctl := old.trcctl, trchead := old.trchead, trcread := old.trcread
    trcLast := old.trcLast, seq := old.seq, dbgctl := old.dbgctl, ilWait := true, windows := [], redo := (closeWins x).windows.map lawWord ++ x.redo }

/-- A saved cluster is reloaded in place (17 R408; 14 R323), and the saved windows of its cores reopen (18 R423). Log 108,
DEDUCED, unsafe. -/
def loadCluster (v : SavedCluster) (s : State) : State :=
  let s1 := v.cores.zipIdx.foldl (fun u e => modCore (8 * v.cl + e.2) (fun old => withSince u.time old (loadedCore old e.1)) u) s
  let s2 := modCluster v.cl (fun k =>
    { v.cluster with
      ctlb := k.ctlb, i1 := k.i1, msgs := k.msgs, notes := k.notes, diemap := k.diemap, mapgen := k.mapgen, mapNext := k.mapNext
      bars := v.cluster.bars.foldl (fun m b => AList.put b.1 b.2 m) k.bars, lastTenant := v.cluster.lastTenant, evAt := s1.time }) s1
  let s3 := forN 8 (fun i u => refillAll (8 * v.cl + i) u) s2
  forN 8 (fun i u => if (coreOf u (8 * v.cl + i)).redo.isEmpty then u else reopenGo (8 * v.cl + i) u) s3

/-- Reload of a tenant's saved barns (17 R408): not before every cluster it held is free. -/
def resumeTenant (t : Nat) (s : State) : Option State :=
  let mine := (s.saves.filter (fun e => e.tenant == t)).flatMap (fun e => e.clusters)
  if mine.all (fun v => (barnAt s v.cl).isNone && (AList.find? s.dead (clDie v.cl)).isNone) then
    let s1 : State := { s with
      stopped := removeNat t s.stopped
      saves := s.saves.filter (fun e => e.tenant != t)
      barns := s.barns.map (fun b => if b.st = .saved ∧ b.tenant = t then { b with st := .resident } else b) }
    some (mine.foldl (fun u v => loadCluster v u) s1)
  else none

/-- PREEMPT_RESUME (17 R408). -/
def execPreemptResume (t : Nat) (s : State) : Host.Outcome State Fault Refusal :=
  .next (if requested s t false true then
      (match resumeTenant t s with | some u => requestDone u | none => s)
    else s)

/-! Hangs. -/

/-- The clusters of a job's resident barns, in ascending die and cluster order (17 R410, R411). -/
def jobClusters (s : State) (q : Nat) : List Nat :=
  (List.range 128).filter (fun cl => s.barns.any (fun b => b.st == .resident && b.q == q && b.clusters.contains cl))

/-- The time of the last thing that keeps a job from being quiet (17 R410). Log 83, DEDUCED, unsafe. -/
def lastEvent (s : State) (q : Nat) : Nat :=
  (jobClusters s q).foldl (fun m cl =>
    (List.range 8).foldl (fun n i => max n (coreOf s (8 * cl + i)).since) (max m (clusterOf s cl).evAt)) (qOf s q).evAt

/-- Whether a job is hung: quiet for HANGT cycles, and not yet reported (17 R410). Log 83, DEDUCED, unsafe. -/
def isHung (s : State) (q : Nat) : Bool :=
  let cls := jobClusters s q
  let t0 := lastEvent s q
  let still (x : CoreSt) : Bool := waitState x == 1 || waitState x == 2 || waitState x == 3
  !(cls.isEmpty) && bits s.hangcfg.toNat 31 0 != 0 && cls.all (fun cl => (List.range 8).all (fun i => still (coreOf s (8 * cl + i)))) &&
    decide (bits s.hangcfg.toNat 31 0 * 1000 ≤ (s.time - t0) * (dieOf s (clDie (cls.headD 0))).mhz) &&
    (qOf s q).hungAt.all (fun h => decide (h < t0))

/-- The dwords of a hang dump (17 R411). -/
def dumpDwords (s : State) (cls : List Nat) : List Word :=
  cls.flatMap (fun cl => wd (clDie cl * 2 ^ 56 + cl % 16 * 2 ^ 48) ::
    (List.range 24).map (fun i => waitDword (coreOf s (8 * cl + i / 3)) (i % 3)))

/-- Dwords of a dump that fit whole entries in 8 KiB (17 R411): a cluster's dword, then 3 dwords a core. -/
def dumpFits (l : List Word) : List Word :=
  let room := 1024
  if l.length ≤ room then l
  else
    let whole := room / 25 * 25
    let rest := room - whole
    l.take (whole + (if rest = 0 then 0 else 1 + (rest - 1) / 3 * 3))

/-- Dwords are stored from an address; the first fault ends it. -/
def hubStore (q : Nat) : Nat → List Word → State → State
  | _, [], s => s
  | va, w :: l, s =>
    match hubPut q va w.toNat s with
    | .error _ => s
    | .ok t => hubStore q (va + 8) l t

/-- A hang is detected (17 R411): the dump, HANG and the host's interrupt, and the trap on the oldest barn's first core. -/
def detectHang (q : Nat) (s : State) : State :=
  let dump := (qOf s q).dump
  let s1 := if dump = 0 then s else hubStore q dump.toNat (dumpFits (dumpDwords s (jobClusters s q))) s
  let s2 := raiseIrq q (ctlSet q (2 ^ 60) (modQ q (fun x => { x with hungAt := some s1.time }) s1))
  let oldest := (s2.barns.filter (fun b => b.st == .resident && b.q == q)).foldl (fun (m : Option Barn) b =>
    match m with
    | none => some b
    | some a => if b.seq < a.seq then some b else a) none
  match oldest with
  | none => s2
  | some b => modCore (8 * b.clusters.headD 0) (fun x => { x with hangPend := some dump }) s2

/-- HANG_DETECT (17 R411). -/
def execHangDetect (q : Nat) (s : State) : Host.Outcome State Fault Refusal := .next (if isHung s q then detectHang q s else s)

/-! Registers of the hub and the clusters that have rows of their own. -/

/-- HQ_DOORBELL (17 R393, R394). -/
def execHqDoorbell (q : Nat) (v : Word) (s : State) : Host.Outcome State Fault Refusal :=
  .next (if q < 64 then putHqtail q v.toNat s else s)

/-- HQCTL_WRITE (17 R393). -/
def execHqctlWrite (q : Nat) (v : Word) (s : State) : Host.Outcome State Fault Refusal :=
  .next (if q < 64 then putHqctl q v.toNat v.toNat s else s)

/-- PADDOCK_WRITE (17 R404). -/
def execPaddockWrite (t : Nat) (v : Word) (s : State) : Host.Outcome State Fault Refusal :=
  .next (if t < 256 then putPaddock t v.toNat v.toNat s else s)

/-- BARRIER_DESCRIPTOR_WRITE (15 R367). -/
def execBarrierDescriptorWrite (cl d : Nat) (v : Word) (s : State) : Host.Outcome State Fault Refusal :=
  .next (if cl < 128 ∧ d < 64 ∧ isLive s (clDie cl) = true then putBarrier cl d v.toNat s else s)

end Sys2Proof.Machine

end
end

