-- ==== Sys2Proof/Machine/Recover.lean ====
section
/-!
DEFINITION. Recovery: rollback and escalation of containment domains (20 R453 to R457), and the failure, the verdict and the
sparing of dies (20 R458 to R461; 01 R14 to R16).
-/

noncomputable section

namespace Sys2Proof.Machine

open Sys2Proof

/-! Escalation to the job. -/

/-- A tenant's work is discarded (20 R456): its saved state, its barns, its launches and its domains. Log 84, DEDUCED, unsafe.
-/
def discardTenant (t : Nat) (s : State) : State :=
  let cls := (s.barns.filter (fun b => b.st == .resident && b.tenant == t)).flatMap (fun b => b.clusters)
  let gone := (s.barns.filter (fun b => b.st != .complete && b.tenant == t)).flatMap (fun b => b.clusters)
  let u := cls.foldl (fun v cl => (saveCluster t cl v).2) (cls.foldl (fun v cl => stopCluster cl v) s)
  { u with
    barns := u.barns.filter (fun b => b.tenant != t)
    saves := u.saves.filter (fun e => e.tenant != t)
    stopped := removeNat t u.stopped
    killed := (List.filter (fun (e : Nat × Dom) => gone.contains (clOf e.2.origin)) u.doms).foldl (fun l e => insertNat e.2.id l) u.killed
    doms := List.filter (fun (e : Nat × Dom) => !(gone.contains (clOf e.2.origin))) u.doms
    queues := u.queues.map (fun e =>
      if bits e.2.ctl.toNat 7 0 = t then
        (e.1, { e.2 with
          open_ := e.2.open_.filter (fun i => !(e.2.batches.any (fun b => b.idx == i)))
          batches := [], started := e.2.seqNext, reported := e.2.seqNext, waitAt := none })
      else e) }

/-- The error reaches the job of queue q (20 R456). Log 84, DEDUCED, unsafe. -/
def escalateJob (q cause : Nat) (s : State) : State :=
  let s1 := match batchAt s q (qOf s q).reported with
    | some b => markWord q b.cw.toNat cause s
    | none => s
  let s2 := raiseIrq q (ctlSet q (2 ^ 62) s1)
  let s3 : State := { s2 with lifetime := { s2.lifetime with escalations := s2.lifetime.escalations + 1 } }
  discardTenant (qTenant s q) s3

/-- The queue whose barn, resident or saved, holds a cluster. -/
def queueAt (s : State) (cl : Nat) : Option Nat := (s.barns.find? (fun b => b.st != .complete && b.clusters.contains cl)).map (fun b => b.q)

/-- A domain escalates (20 R456): it leaves the table, and its parent, or at depth 1 the job, has the error. -/
def escalateDom (d : Dom) (cause : Nat) (s : State) : State :=
  let s1 := countDie 0xD4 1 (dOf d.origin) { s with
    doms := List.filter (fun (e : Nat × Dom) => e.2.id != d.id) s.doms, killed := insertNat d.id s.killed }
  if d.parent ≠ 0 then cmdDomError d.parent cause s1
  else
    match queueAt s (clOf d.origin) with
    | some q => escalateJob q cause s1
    | none => s1

/-! Rollback. -/

/-- The ids of a domain and of its open descendants (20 R455). -/
def domTree (s : State) : Nat → List Nat → List Nat
  | 0, l => l
  | n + 1, l =>
    domTree s n (l ++ ((List.filter (fun (e : Nat × Dom) => l.contains e.2.parent && !(l.contains e.2.id)) s.doms).map (fun e => e.2.id)))

/-- A killed task stops (20 R455; 14 R323): what it had stalled in or waits for is withdrawn, its windows are dropped, its
lease is released, and its stores drain. A handler that has executed cdabort ends with it (16 R392). -/
def killTask (c : Nat) (s : State) : State :=
  let s1 := drainAll c (withdraw c (abandon c s))
  let s2 := freeLease c s1
  leaveCore c false (modCore c (fun x =>
    { x with ports := [], windows := [], status := if isSup x then eretStatus x.status else x.status }) s2)

/-- Whether the record at a slot carries one of some domain ids. -/
def recordIn (s : State) (c : Nat) (ids : List Nat) (slot : Word) : Bool :=
  match readWords (whoSup s c) c (slot.toNat + 16) 1 s with
  | .ok (v, _) => ids.contains (bits v 31 16)
  | .error _ => false

/-- A core gives up what belongs to killed tasks (20 R455): the running task, registrations of wait, and its reservation. Log
85, DEDUCED, unsafe; log 86, DEDUCED, unsafe. -/
def killOn (ids : List Nat) (c : Nat) (s : State) : State :=
  let x := coreOf s c
  let s1 := if x.haveTask && (!(isSup x) || x.aborted) && ids.contains (domainOf x) then killTask c s else s
  let s2 := modCore c (fun y => { y with waits := y.waits.filter (fun w => !(recordIn s c ids w.slot)) }) s1
  match (coreOf s2 c).memberSlot with
  | none => s2
  | some slot =>
    if recordIn s c ids slot then
      modCore c (fun y => withSince s2.time y { y with member := none, memberSlot := none, run := if y.run = .reserved then .idle else y.run }) s2
    else s2

/-- A CDSCOPED command of killed tasks that has not launched is cancelled (20 R455; 15 R352): a waiting node completes at
once. -/
def cancelNode (cl id cause : Nat) (n : Node) (s : State) : State :=
  if n.st = .ready then putNode cl id { n with cancel := n.cancel.or (some cause) } s
  else
    let m := { launched (clusterOf s cl) (cmdNames s cl n.cmd) n with err := some cause, cancel := some cause }
    completeSteps cl id m (putNode cl id m s)

/-- The CDSCOPED commands of killed tasks that have not launched are cancelled, cluster by cluster in order of id. -/
def cancelNodes (ids : List Nat) (cause : Nat) (s : State) : State :=
  s.clusters.foldl (fun t k => k.2.nodes.foldl (fun u e =>
    match nodeOf u k.1 e.1 with
    | none => u
    | some n =>
      if ids.contains n.dom && (cmdHdr n.cmd).cdscoped && n.st != .launched then cancelNode k.1 e.1 cause n u else u) t) s

/-- Whether every task and command of killed domains has stopped (20 R455). Log 86, DEDUCED, unsafe. -/
def allStopped (s : State) (ids : List Nat) : Bool :=
  s.cores.all (fun e => !(e.2.haveTask && ids.contains (domainOf e.2))) &&
    s.clusters.all (fun k => k.2.nodes.all (fun n => !(ids.contains n.2.dom && (cmdHdr n.2.cmd).cdscoped)))

/-- Steps 1 and 2 of a rollback (20 R455): the descendants leave the table, and the tasks of all leave their barn. Log 85,
DEDUCED, unsafe. -/
def killDom (d : Dom) (cause : Nat) (s : State) : State :=
  let ids := domTree s 4 [d.id]
  let tasks := ((List.filter (fun (e : Nat × Dom) => ids.contains e.2.id) s.doms).map (fun e => e.2.live)).sum
  let kept := (List.filter (fun (e : Nat × Dom) => e.2.id == d.id || !(ids.contains e.2.id)) s.doms).map (fun e =>
    if e.2.id = d.id then (e.1, { e.2 with state := 1, live := 0 }) else e)
  let s1 : State := modBarn (clOf d.origin) (fun b => { b with live := b.live - tasks })
    { s with killed := ids.foldl (fun l i => insertNat i l) s.killed, doms := kept }
  cancelNodes ids cause (s1.cores.foldl (fun t e => killOn ids e.1 t) s1)

/-- Step 3 of a rollback (20 R455): the root record is re-queued under a new id, or the domain escalates. Log 62, DEDUCED,
unsafe. -/
def requeueRoot (i : Nat) (d : Dom) (cause : Nat) (s : State) : State :=
  let c := d.origin
  if d.retries = 3 then escalateDom d cause s
  else
    match readWords (whoSup s c) c d.root.toNat 8 s with
    | .error _ => escalateDom d cause s
    | .ok (v, s1) =>
      let (id, s2) := assignDom s1
      let ctl := setBits (wd (dwordOf v 2)) 31 16 id
      match writeWords (whoSup s2 c) c (d.root.toNat + 16) ctl.toNat 1 s2 with
      | .error _ => escalateDom d cause s
      | .ok s3 =>
        let g := wd (dwordOf v 1)
        let pc := wd (dwordOf v 0)
        let prio := min (ctl.toNat % 4) 2
        let e : Dom := { d with id := id, retries := d.retries + 1, state := 0, err := none, opener := g, live := 0 }
        let doms := s3.doms.map (fun k => if k.2.opener = d.opener then (k.1, { k.2 with opener := g }) else k)
        let s4 : State := { drainAll c s3 with doms := AList.put i e doms }
        let s5 := if bits ctl.toNat 4 2 = 0 then s4
          else modCore c (fun x => withSince s4.time x { x with member := some g, memberSlot := some d.root, run := if x.run = .idle then .reserved else x.run }) s4
        countDie 0xD3 1 (dOf c) (hwPush c prio c d.root g pc .c s5)

/-- A rollback of the domain with an id goes on as far as it can (20 R454, R455). Log 62, DEDUCED, unsafe. -/
def rollback (id cause : Nat) (s : State) : State :=
  match List.find? (fun (e : Nat × Dom) => e.2.id == id) s.doms with
  | none => s
  | some e =>
    if e.2.err ≠ some cause then s
    else
      let t := if e.2.state = 0 then killDom e.2 cause s else s.cores.foldl (fun u k => killOn s.killed k.1 u) s
      match AList.find? t.doms e.1 with
      | none => t
      | some d => if allStopped t t.killed then requeueRoot e.1 d cause t else t

/-- CD_ROLLBACK (20 R455). -/
def execCdRollback (dom cause : Nat) (s : State) : Host.Outcome State Fault Refusal := .next (rollback dom cause s)

/-! Dies. -/

/-- A service processor fails (20 R458). -/
def execServiceProcessorFailure (k : Nat) (s : State) : Host.Outcome State Fault Refusal :=
  .next (if k < 2 then { s with spFail := insertNat k s.spFail } else s)

/-- A physical die stops (20 R460, R461): the memory of the logical die it serves reads as poisoned, and nothing on it moves.
It is failed only once a verdict says so (01 R14); the cold spare is noted as stopped under its own number, 8. -/
def execDieFailure (k : Nat) (s : State) : Host.Outcome State Fault Refusal :=
  .next (if 9 ≤ k ∨ isFailed s k = true then s
    else
      match servedBy s k with
      | none => if k = 8 ∧ AList.find? s.dead 8 = none then { s with dead := AList.put 8 s.time s.dead } else s
      | some d =>
        if (AList.find? s.dead d).isSome then s
        else poisonRange (d * 2 ^ 30) ((d + 1) * 2 ^ 30) { s with dead := AList.put d s.time s.dead })

/-- The queues with a barn on a die. -/
def queuesOn (s : State) (d : Nat) : List Nat := ((s.barns.filter (fun b => b.st != .complete && b.die == d)).map (fun b => b.q)).eraseDups
/-- The tenants with a barn on a die. -/
def tenantsOn (s : State) (d : Nat) : List Nat := ((s.barns.filter (fun b => b.st == .resident && b.die == d)).map (fun b => b.tenant)).eraseDups

/-- VOTE_TIMEOUT (20 R458): no peer has voted within 100 ms. Log 36, DEDUCED, unsafe. -/
def execVoteTimeout (d : Nat) (s : State) : Host.Outcome State Fault Refusal :=
  .next (match AList.find? s.dead d with
    | none => s
    | some t0 =>
      if t0 + 10 ^ 8 ≤ s.time then
        (queuesOn s d).foldl (fun u q => raiseIrq q u) ((tenantsOn s d).foldl (fun u t => stopTenant t u) s)
      else s)

/-- Whether a verdict on a die can stand (20 R458, R459): a local service processor, a peer to vote, and no more than
100 ms since the die failed. -/
def canVote (s : State) (d : Nat) : Bool :=
  decide (s.spFail.length < 2) && (bit s.votecfg.toNat 5 || bit s.votecfg.toNat 13) &&
    !((AList.find? s.dead d).any (fun t0 => decide (t0 + 10 ^ 8 ≤ s.time)))

/-- The die-map entry of a logical die after a verdict (19 R445; 20 R460): served by the local spare, by a peer's, or by
none. -/
def mapEntry (d gen : Nat) (spare : Option (Option Nat)) : Word :=
  match spare with
  | some none => wd (2 ^ 63 + 2 ^ 62 + 8 * 2 ^ 53 + d * 2 ^ 50 + gen)
  | some (some y) => wd (2 ^ 63 + y * 2 ^ 57 + 8 * 2 ^ 53 + d * 2 ^ 50 + gen)
  | none => wd (2 ^ 62 + d * 2 ^ 53 + d * 2 ^ 50 + gen)

/-- The generation after the module's current one (19 R447). -/
def nextGen (s : State) : Nat := ((curRouter s).mapgen + 1) % 65536

/-- Every router of the module takes a new entry and a new generation (19 R447; 20 R460), and the live list follows (01 R15; 02
R28). -/
def commitMap (d : Nat) (spare : Option (Option Nat)) (s : State) : State :=
  let gen := nextGen s
  setLive (forN 128 (fun cl t => modCluster cl (fun k => { k with mapgen := gen, diemap := k.diemap.put d (mapEntry d gen spare) }) t) s)

/-- A die's cores, clusters and caches are a spare's: cleared (20 R460; 17 R402; 02 R41). Core state keeps the count of tasks
created there, so that ids stay unique (08 R162). -/
def clearDie (d : Nat) (s : State) : State :=
  let s1 := forN 128 (fun i t => modCore (128 * d + i) (fun x => ({ seq := x.seq, spillArea := x.spillArea, since := t.time } : CoreSt)) t) s
  let s2 := forN 16 (fun i t => modCluster (16 * d + i) (fun k =>
    ({ msgs := k.msgs, notes := k.notes, diemap := k.diemap, mapgen := k.mapgen, mapNext := k.mapNext } : ClusterSt)) t) s1
  let s3 := modDie d (fun x => ({ cyc := x.cyc, ilbase := x.ilbase, ilhead := x.ilhead, ildone := x.ilhead, l2cfg := x.l2cfg, mhz := topClock s } : DieSt)) s2
  { s3 with
    banks := s3.banks.filter (fun e => decide (e.1 / 2048 ≠ d))
    txns := s3.txns.filter (fun t =>
      (match t.node with | some (cl, _) => clDie cl != d || decide (128 ≤ cl) | none => true) && !(t.core.any (fun c => dOf c == d))) }

/-- What the local spare's own stacks hold comes with them to the logical die that it takes over (01 R16): the errors in them, how
far they are scrubbed, their filter and repeat bins, their rows, and what the die's sensors say. -/
def joinSpare (d : Nat) (s : State) : State :=
  let sp := dieOf s 8
  let own (l : List Nat) : List Nat := l.map (fun a => d * 2 ^ 37 + a % 2 ^ 37)
  let t := modDie d (fun x => { x with
    cefilter := sp.cefilter, cehist := sp.cehist, ceInj := own sp.ceInj, ueInj := own sp.ueInj, scrubbed := sp.scrubbed
    hot := sp.hot, melt := sp.melt }) (setDie 8 {} s)
  let rest := t.banks.filter (fun e => e.1 / 2048 != 8)
  { t with banks := (t.banks.filter (fun e => e.1 / 2048 == 8)).foldl (fun m e => AList.put (d * 2048 + e.1 % 2048) e.2 m) rest }

/-- The protected shards of a die are rebuilt into its spare's stacks (20 R460; 05 R101). -/
def rebuildDie (d : Nat) (s : State) : State :=
  forN (s.pl * ppsize s * 2 ^ 30 * 2 / 3 / 1024) (fun c t =>
    forN 6 (fun k u => if shardPlace u c k / 2 ^ 37 = d then rebuildShard c k u else u) t) s

/-- One shard of a yard chunk that this module owns is rebuilt, line by line, where it is held here (20 R460; 05 R103). -/
def rebuildYardShard (d c k : Nat) (s : State) : State :=
  forN 2 (fun h t =>
    let a := ilPlace t (ilBase + yardOff t c (128 * h))
    if yardHolder t c k ≠ t.modIdx ∨ a / 2 ^ 37 ≠ d ∨ isPoison t (a / 128) = false then t
    else
      match solveShard (fun i => yardStored t c i (128 * h)) k with
      | none => t
      | some _ =>
        clearPoison (a / 128) (forN 128 (fun j u => match solveShard (fun i => yardStored u c i (128 * h + j)) k with
          | some b => yardStore c k (128 * h + j) b u
          | none => u) t)) s

/-- The yard shards of a die are rebuilt (20 R460). -/
def rebuildYard (d : Nat) (s : State) : State :=
  forN (ysize s * 2 ^ 20) (fun c t => forN 6 (fun k u => rebuildYardShard d c k u) t) s

/-- The tasks of a barn that carry a domain's id: those created in its domains, and the openers at depth 1. Log 93, DEDUCED,
unsafe. -/
def tasksInDoms (s : State) (b : Barn) : Nat :=
  ((List.filter (fun (e : Nat × Dom) => b.clusters.contains (clOf e.2.origin)) s.doms).map (fun e => e.2.live + b2n (e.2.depth == 1))).sum

/-- The clusters of a barn on the spare are given its state (20 R460, step 6). -/
def refillBarn (b : Barn) (s : State) : State :=
  match batchAt s b.q b.seq with
  | none => s
  | some bt =>
      let h := barnHeader b.q bt s
      let x := qOf s b.q
      let root := wd (b.tenant * 2 ^ 56 + bits x.ctl.toNat 51 12 * 2 ^ 12 + 1)
      let img := imageBytes b.q h s
      b.clusters.foldl (fun u cl =>
        modCluster cl (fun k => { k with lastTenant := some b.tenant })
          (forN 8 (fun i w => modCore (8 * cl + i) (fun y => { y with barn := some (b.q, b.seq) })
            (bindCore (8 * cl + i) bt root x.tvec true h.l1six img w)) u)) { s with free := s.free + h.splen / 8 }

/-- What takes the place of a lost die (20 R460, step 2): the local spare, a peer's (whether one has a cold spare is the
peer's; log 8), or none. A local spare that has itself stopped is not taken (log 118). Log 118, DESIGN CHOICE, unsafe. -/
def chooseSpare (s : State) : Option (Option Nat) :=
  if isSpare s 8 && (AList.find? s.dead 8).isNone then some none
  else if Config.coin s.free then some (some (if bit s.votecfg.toNat 5 then bits s.votecfg.toNat 4 0 else bits s.votecfg.toNat 12 8))
  else none

/-- A standing verdict on a logical die (20 R460, R461), once every tenant on it can be preempted. Log 36, DEDUCED, unsafe;
log 93, DEDUCED, unsafe. -/
def lossVerdict (d : Nat) (s : State) : State :=
  if mapValid s d = false ∨ canVote s d = false then s
  else
    let ts := tenantsOn s d
    let forced := ts.foldl (fun (r : State × Bool) t => let q := forceTenant t (some d) r.1; (q.1, r.2 && q.2)) (s, true)
    if forced.2 = false then forced.1
    else
      let spare := chooseSpare s
      let lost := s.barns.filter (fun b => b.st == .resident && b.die == d)
      let bad := (lost.filter (fun b => decide (tasksInDoms s b < b.live) || spare.isNone)).map (fun b => b.q)
      let s1 : State := { forced.1 with
        dead := AList.del d forced.1.dead, free := forced.1.free + 1
        failed := if peerServed s d then forced.1.failed else insertNat (physDie s d) forced.1.failed }
      let s2 := clearDie d (commitMap d spare (if (AList.find? s.dead d).isSome then s1 else poisonRange (d * 2 ^ 30) ((d + 1) * 2 ^ 30) s1))
      let s3 := if spare.isNone then s2 else rebuildYard d (rebuildDie d (if spare = some none then joinSpare d s2 else s2))
      let s4 := bad.eraseDups.foldl (fun u q => escalateJob q 0x607 u) s3
      let s5 := (lost.filter (fun b => s4.barns.contains b)).foldl (fun u b => refillBarn b u) s4
      let s6 : State := { s5 with doms := s5.doms.map (fun e =>
        if e.2.dies.testBit d ∧ e.2.err = none then (e.1, { e.2 with err := some 0x607 }) else e) }
      ts.foldl (fun u t => (resumeTenant t u).getD u) s6

/-- DIE_LOSS_VERDICT (20 R460). -/
def execDieLossVerdict (d : Nat) (s : State) : Host.Outcome State Fault Refusal := .next (if d < 8 then lossVerdict d s else s)

end Sys2Proof.Machine

end
end

