-- ==== Sys2Proof/Machine/Platform.lean ====
section
/-!
DEFINITION. The platform's events: writes of registers that have rows of their own (02 R44, R46; 03 R49; 04 R78, R84), bring-up
and reset (21 R466 to R471), power and cooling (R473), and what the service processors keep (20 R463; 21 R472; 22 R484).
-/

noncomputable section

namespace Sys2Proof.Machine

open Sys2Proof

/-! Registers of a core or a die. -/

/-- VMROOT_WRITE (02 R29). -/
def execVmrootWrite (c : Nat) (v : Word) (s : State) : Host.Outcome State Fault Refusal :=
  .next (if c < 1024 then putVmroot c v.toNat s else s)

/-- SPCFG_WRITE (03 R48, R49). -/
def execSpcfgWrite (c : Nat) (v : Word) (s : State) : Host.Outcome State Fault Refusal :=
  .next (if c < 1024 then putSpcfg c v.toNat v.toNat s else s)

/-- MIGCFG_FLUSH (04 R78). -/
def execMigcfgFlush (c : Nat) (s : State) : Host.Outcome State Fault Refusal :=
  .next (if c < 1024 then modCore c (fun x => { x with pred := [] }) s else s)

/-- L2CFG_WRITE (04 R84). -/
def execL2cfgWrite (d : Nat) (v : Word) (s : State) : Host.Outcome State Fault Refusal :=
  .next (if d < 8 then putL2cfg (128 * d) v.toNat s else s)

/-- The lines that a die's data L2 holds when its size changes leave it, the dirty ones to their stacks (04 R83, R84). Log 18, DESIGN
CHOICE, safe. -/
def l2Empty (d : Nat) (s : State) : State :=
  modDie d (fun x => { x with l2 := [] }) (((dieOf s d).l2.filter (fun l => l.dirty)).foldl (fun t l => dramAccess true d (l.line * 128) t) s)

/-- The stores that waited at a die's remote partition are performed, in order (04 R84, R86). -/
def rpWaiters (d : Nat) (s : State) : State :=
  (dieOf s d).rpStores.foldl (fun t e => breakResv (some e.who) e.line (rpStore e.who e.line e.key e.bytes t)) (modDie d (fun x => { x with rpStores := [] }) s)

/-- L2_RESIZE_COMPLETE (04 R84): not before every dirty byte has been written back; accesses that waited proceed. -/
def execL2ResizeComplete (d : Nat) (s : State) : Host.Outcome State Fault Refusal :=
  .next (if rpBusy s d || !(l2Busy s d) then s
    else rpWaiters d (modDie d (fun x => { x with l2cfg := wd (x.l2cfg.toNat % 2 ^ 63) }) (l2Empty d s)))

/-! Keys. -/

/-- A write of KEYCMD that names an operation (02 R44); nothing where the value names another. -/
def keyWrite (op : Nat) (v : Word) (s : State) : State := if v.toNat % 8 = op then putKeycmd v.toNat v.toNat s else s

/-- KEYCMD_NONE (02 R44). -/
def execKeycmdNone (v : Word) (s : State) : Host.Outcome State Fault Refusal := .next (keyWrite 0 v s)
/-- KEYCMD_LOAD (02 R44). -/
def execKeycmdLoad (v : Word) (s : State) : Host.Outcome State Fault Refusal := .next (keyWrite 1 v s)
/-- KEYCMD_ERASE (02 R44). -/
def execKeycmdErase (v : Word) (s : State) : Host.Outcome State Fault Refusal := .next (keyWrite 2 v s)
/-- KEY_COMMAND_COMPLETE (02 R44). -/
def execKeyCommandComplete (s : State) : Host.Outcome State Fault Refusal := .next (keyDone s)

/-! Registers of the hub. -/

/-- IVSET_WRITE (02 R46). -/
def execIvsetWrite (v : Word) (s : State) : Host.Outcome State Fault Refusal := .next (putIvset v.toNat s)
/-- PVSET_WRITE (02 R46). -/
def execPvsetWrite (v : Word) (s : State) : Host.Outcome State Fault Refusal := .next (putPvset v.toNat s)
/-- YGSET_WRITE (02 R46). -/
def execYgsetWrite (v : Word) (s : State) : Host.Outcome State Fault Refusal := .next (putYgset v.toNat s)
/-- HDMCFG_WRITE (02 R46). -/
def execHdmcfgWrite (v : Word) (s : State) : Host.Outcome State Fault Refusal := .next (putHdmcfg v.toNat s)

/-- DBGRESUME_GO (02 R46; 10 R242; 18 R419). -/
def execDbgresumeGo (v : Word) (s : State) : Host.Outcome State Fault Refusal :=
  .next (if (AList.find? s.dead (v.toNat % 1024 / 128)).isSome then s else putDbgresume v.toNat s)

/-- Whether a write of n bytes at an MMIO offset is one that a register takes from an agent: 4 or 8 bytes, aligned, and for
the host in a block of BAR 0 (00 R4; 02 R45). -/
def writeFits (host : Bool) (off n : Nat) : Bool :=
  (n == 4 || n == 8) && off % n == 0 && decide (off < 2 ^ 28 + 2 ^ 27) && (!host || hostBlock (off / 8 * 8))

/-- REGISTER_WRITE (00 R4; 02 R45). -/
def execRegisterWrite (host : Bool) (off size : Nat) (v : Word) (s : State) : Host.Outcome State Fault Refusal :=
  .next (if writeFits host off size then mmioStore off size v.toNat s else s)

/-! Bring-up. -/

/-- The physical die that the service processors bind to a logical die (01 R14): its own, or die 8 for the lowest one whose own
is harvested. -/
def boundTo (harvested : List Nat) (d : Nat) : Option Nat :=
  if !(harvested.contains d) then some d
  else if !(harvested.contains 8) && (List.range d).all (fun e => !(harvested.contains e)) then some 8
  else none

/-- The logical dies that are bound at cold reset (01 R14, R15), in rising order. -/
def boundList (harvested : List Nat) : List Nat := (List.range 8).filter (fun d => (boundTo harvested d).isSome)

/-- PLATSTAT with a state, the other bits kept (21 R468). -/
def platState (st : Nat) (w : Word) : Word := wd (w.toNat / 4 * 4 + st)

/-- The routers' maps after cold reset, where harvesting has moved or left absent a logical die (01 R14; 19 R445). -/
def boundMap (harvested : List Nat) : AList Word :=
  (List.range 8).foldl (fun m d =>
    match boundTo harvested d with
    | some p => if p = d then m else AList.put d (wd (2 ^ 63 + 2 ^ 62 + p * 2 ^ 53 + d * 2 ^ 50)) m
    | none => AList.put d (wd (2 ^ 62 + d * 2 ^ 53 + d * 2 ^ 50)) m) []

/-- The module after a cold reset (21 R469, R471, R472; 02 R42; 01 R14): what survives is the lifetime store, what memory
holds, what others are and do, and the fuses; slot 0 has a new key. Log 19, DEDUCED, unsafe. -/
def coldState (s : State) : State :=
  let map := boundMap s.harvested
  { State.reset with
    sched := s.sched, free := s.free, mem := s.mem, lineKey := s.lineKey, poison := s.poison, hostMem := s.hostMem, remMem := s.remMem
    remBad := s.remBad, modIdx := s.modIdx, harvested := s.harvested, spFail := s.spFail, lifetime := s.lifetime, overPower := s.overPower
    flowLow := s.flowLow, hostIrq := s.hostIrq, portsDown := s.portsDown, keyGen := s.keyGen + 1, keys := [(0, randomPair (s.keyGen + 1))]
    txns := s.txns.filter (fun t => t.src != s.modIdx), txnId := s.txnId
    planes := s.planes.map (fun e => (e.1, { others := e.2.others, lost := e.2.lost, fibresLost := e.2.fibresLost }))
    dies := s.dies.map (fun e => (e.1, { hot := e.2.hot, melt := e.2.melt, ceInj := e.2.ceInj, ueInj := e.2.ueInj, mhz := 1200 }))
    votecfg := wd ((s.modIdx + 31) % 32 * 2 ^ 8 + (s.modIdx + 1) % 32 + 0x2020)
    clusters := if map = [] then [] else (List.range 128).map (fun cl => (cl, { diemap := map })) }

/-- The hub boots (21 R469, R470): reduced service with logical die 0 alone where the image is good, else recovery. Where
logical die 0 is bound to no physical die, no die is live until full service (log 121). Log 121, DESIGN CHOICE, unsafe. -/
def boot (ok : Bool) (s : State) : State :=
  let t : State := { s with platstat := if ok then platState 1 s.platstat else wd (2 ^ 9 + 3) }
  { t with live := liveDies t }

/-- COLD_RESET (21 R469); ok says that the image verifies. -/
def execColdReset (ok : Bool) (s : State) : Host.Outcome State Fault Refusal := .next (boot ok (coldState s))

/-- FW_MAILBOX_LOAD (21 R469): in state 3, the host loads an image and the module resets. -/
def execFwMailboxLoad (ok : Bool) (s : State) : Host.Outcome State Fault Refusal :=
  .next (if bits s.platstat.toNat 1 0 = 3 then boot ok (coldState s) else s)

/-- LINK_TRAINING_DONE (21 R468). -/
def execLinkTrainingDone (s : State) : Host.Outcome State Fault Refusal := .next { s with platstat := s.platstat ||| 0x80 }
/-- HBM_TRAINING_DONE (21 R468). -/
def execHbmTrainingDone (s : State) : Host.Outcome State Fault Refusal := .next { s with platstat := s.platstat ||| 0x40 }
/-- DIE_SELF_TEST_DONE (21 R468). -/
def execDieSelfTestDone (s : State) : Host.Outcome State Fault Refusal := .next { s with platstat := s.platstat ||| 0x100 }

/-- The live list as a mask (05 R98). -/
def liveMask (s : State) : Nat := s.live.foldl (fun m d => m + 2 ^ d) 0

/-- Every live die's cores rise to full speed as their clock allows (21 R470; 01 R18). Log 38, DEDUCED, unsafe. -/
def fullClock (s : State) : State := s.live.foldl (fun t d => modDie d (fun x => { x with mhz := 2100 }) t) s

/-- ENTER_FULL_SERVICE (21 R470; 02 R28, R46). Log 38, DEDUCED, unsafe. -/
def execEnterFullService (s : State) : Host.Outcome State Fault Refusal :=
  .next (if bits s.platstat.toNat 1 0 = 1 ∧ bits s.platstat.toNat 8 6 = 7 ∧ s.barns.all (fun b => b.st != .resident) = true then
      (let t : State := { s with platstat := platState 2 s.platstat }
       let u : State := { t with live := liveDies t }
       poisonInterleaved (fullClock { u with plive := liveMask u, pl := u.live.length }))
    else s)

/-- A core after a core reset (10 R242): its registers and its task are gone; what it holds for others stays (log 25). Log 25,
DESIGN CHOICE, unsafe. -/
def resetCore (x : CoreSt) : CoreSt :=
  { ({} : CoreSt) with
    spcfg := x.spcfg, spNew := x.spNew, seq := x.seq, sp := x.sp, full := x.full, owner := x.owner, spBad := x.spBad, spPois := x.spPois, waiters := x.waiters
    nacked := x.nacked, remq := x.remq, l1 := x.l1, sharers := x.sharers, spillArea := x.spillArea, picking := false, ilWait := true }

/-- CORE_RESET (10 R242). Log 25, DESIGN CHOICE, unsafe. -/
def execCoreReset (c : Nat) (s : State) : Host.Outcome State Fault Refusal :=
  .next (if 1024 ≤ c then s
    else
      let t := freeLease c (drainAll c (withdraw c (abandon c s)))
      let u := (coreOf t c).copies.foldl (fun v k => returnCopy c k.line v) t
      modCore c (fun x => withSince s.time x (resetCore x)) u)

/-! The host. -/

/-- Bytes of the host that reach a line of the host-managed range (21 R466, R467; 02 R43). Log 39, DEDUCED, unsafe. -/
def hostLine (bs : AList Nat) (line : Nat) (s : State) : State :=
  breakResv none line (writeLine 1 line (gen0 s) bs (recallLine line s))

/-- HOST_MEMORY_ACCESS (21 R466, R467): up to 8 bytes of the first HDMSIZE GiB of the interleaved window. Log 39, DEDUCED,
unsafe. -/
def execHostMemoryAccess (wr : Bool) (addr len : Nat) (v : Word) (s : State) : Host.Outcome State Fault Refusal :=
  .next (
    let st := bits s.platstat.toNat 1 0
    if len = 0 ∨ 8 < len ∨ bits s.hdmcfg.toNat 8 0 * 2 ^ 30 < addr + len ∨ (st ≠ 1 ∧ st ≠ 2) ∨ populated s 1 (ilBase + addr + len - 1) = false
    then s
    else
      let pa := ilBase + addr
      (linesOf pa len).foldl (fun t l =>
        if wr then hostLine (lineBytes pa l (bytesOf 0 v.toNat len)) l t else touchLine 1 (l * 128) (recallLine l t)) s)

/-- HOST_SNOOP (04 R87): the host-line cache gives up a line, or keeps it clean; a host that has taken it may then change it,
here by len bytes at an offset (log 26). Log 26, DESIGN CHOICE, unsafe. -/
def execHostSnoop (line : Nat) (inval : Bool) (off len : Nat) (v : Word) (s : State) : Host.Outcome State Fault Refusal :=
  .next (
    if inval then
      let t : State := { s with hlc := s.hlc.filter (fun l => l.line != line) }
      if len = 0 then t
      else if 8 < len ∨ 64 < off + len then t
      else
        breakResv none (line / 2) { t with hostMem := Memory.writeN ((line * 64 + off) % 2 ^ 50) v.toNat len t.hostMem }
    else { s with hlc := s.hlc.map (fun l => if l.line = line then { l with dirty := false, excl := false } else l) })

/-! Power and cooling. -/

/-- Whether a die is over a limit that steps its clock down (21 R473). -/
def overLimit (s : State) (d : Nat) : Bool := s.overPower || (dieOf s d).hot
/-- Whether a die's last step lies 1 ms back (21 R473). -/
def stepDue (s : State) (d : Nat) : Bool := match (dieOf s d).stepAt with | none => true | some t => decide (t + 10 ^ 6 ≤ s.time)
/-- POWER_CAP_STEP (21 R473). -/
def execPowerCapStep (d : Nat) (s : State) : Host.Outcome State Fault Refusal :=
  .next (if d < 8 ∧ overLimit s d = true ∧ stepDue s d = true ∧ 1200 < (dieOf s d).mhz then
      modDie d (fun x => { x with mhz := max 1200 (x.mhz - 100), stepAt := some s.time }) s
    else s)

/-- CLOCK_STEP_UP (21 R473). -/
def execClockStepUp (d : Nat) (s : State) : Host.Outcome State Fault Refusal :=
  .next (if d < 8 ∧ overLimit s d = false ∧ stepDue s d = true ∧ (dieOf s d).mhz < topClock s then
      modDie d (fun x => { x with mhz := min (topClock s) (x.mhz + 100), stepAt := some s.time }) s
    else s)

/-- The tenants with a resident barn. -/
def residentTenants (s : State) : List Nat := ((s.barns.filter (fun b => b.st == .resident)).map (fun b => b.tenant)).eraseDups

/-- Every queue halts (21 R473; 17 R393). -/
def haltQueues (s : State) : State := forN 64 (fun q t => ctlSet q (2 ^ 62) t) s

/-- THERMAL_SHUTDOWN (21 R473): the queues halt, every tenant is forcibly preempted, and the module powers down. -/
def execThermalShutdown (s : State) : Host.Outcome State Fault Refusal :=
  .next (if s.flowLow || (List.range 8).any (fun d => (dieOf s d).melt) then
      (let r := (residentTenants s).foldl (fun (a : State × Bool) t => let q := forceTenant t none a.1; (q.1, a.2 && q.2)) (haltQueues s, true)
       if r.2 then { r.1 with platstat := platState 0 r.1.platstat, hostIrq := r.1.hostIrq + 1 } else r.1)
    else s)

/-! What the service processors keep. -/

/-- Adds to a saturating 32-bit count. -/
def satAdd (a b : Nat) : Nat := min (a + b) (2 ^ 32 - 1)

/-- The row of a corrected-error record, by physical die, stack, pseudo-channel, bank and row (22 R484; 05 R108). -/
def recordRow (r : Word) : Nat := bits r.toNat 63 33

/-- One physical die's thermal cycle, and its time at a voltage, since the last update (22 R484): what the sensors say is a
free value (log 27). Log 27, DESIGN CHOICE, safe. -/
def sensorBins (p : Nat) (s : State) : State :=
  let w := (Config.word s.free).toNat
  let l := s.lifetime
  let a := 6 * p + w / 4 % 6
  let b := 41 * p + w / 64 % 41
  { s with
    free := s.free + 1
    lifetime := { l with
      thermal := l.thermal.put a (satAdd (l.thermal.get 0 a) (w % 2)), hours := l.hours.put b (satAdd (l.hours.get 0 b) (w / 2 % 2)) } }

/-- LIFETIME_UPDATE (21 R472; 22 R484): the records of the ring go to their rows, the repeat bins and the retrainings are
taken over. Row keys are bits 63:33 of a record; bins follow at 2^31 + 2,048 * physical die + bin. Log 27, DESIGN CHOICE,
safe. -/
def execLifetimeUpdate (s : State) : Host.Outcome State Fault Refusal :=
  .next (if s.spFail.length = 2 then s
    else
      let rows := s.ceRing.foldl (fun m r => AList.put (recordRow r.2) (satAdd (AList.get 0 m (recordRow r.2)) 1) m) s.lifetime.ce
      let bins := (List.range 9).foldl (fun m d =>
        (dieOf s d).cehist.foldl (fun m2 e => AList.put (2 ^ 31 + 2048 * physDie s d + e.1) (satAdd 0 e.2) m2) m) rows
      let links := s.wlstat.foldl (fun m e => AList.put e.1 (bits e.2.toNat 61 32) m) s.lifetime.retrain
      forN 9 sensorBins { s with ceRing := [], lifetime := { s.lifetime with ce := bins, retrain := links } })

/-- The estimate of 20 R463 in minutes from a cost in seconds and a mean time in minutes: 1 to 4,095, or 0 for none. Log 37,
DESIGN CHOICE, unsafe. -/
def ckptMinutes (cost mtbf : Nat) : Nat := if cost = 0 ∨ mtbf = 0 then 0 else max 1 (min 4095 (Nat.sqrt (2 * cost * (mtbf * 60)) / 60))

/-- CKPT_INTERVAL_UPDATE (20 R463): the mean time between escalations is the time so far over their number. Log 37, DESIGN
CHOICE, unsafe. -/
def execCkptIntervalUpdate (s : State) : Host.Outcome State Fault Refusal :=
  .next (
    let n := s.lifetime.escalations
    let mtbf := if n = 0 then 0 else min (2 ^ 20 - 1) (s.time / (6 * 10 ^ 10) / n)
    let cost := bits s.ckptcfg.toNat 23 12
    { s with ckptcfg := wd (mtbf * 2 ^ 24 + cost * 2 ^ 12 + ckptMinutes cost mtbf) })

end Sys2Proof.Machine

end
end

