-- ==== Sys2Proof/Machine/Events.lean ====
section
/-!
DEFINITION. What the cores' own machinery does between instructions: picking, stealing, sleeping and aging (08 R161 to R174),
messages and barrier notifications (08 R176, R177; 15 R368; 17 R405; 19 R446), remote accesses (03 R67; 04 R73), walks and logs
(02 R30 to R39), buffers (04 R85; 07 R153), HBM's housekeeping (05 R95 to R107), and trace samples (22 R480). An event whose
time has not come, or that finds nothing to act on, changes nothing (log 15).
-/

noncomputable section

namespace Sys2Proof.Machine

open Sys2Proof

/-- Whether a core works: it exists, and its die is live and has not failed. -/
def coreUp (s : State) (c : Nat) : Bool := decide (c < 1024) && isLive s (dOf c) && (AList.find? s.dead (dOf c)).isNone

/-! Picking. -/

/-- A core with nothing to pick sleeps (08 R174). -/
def sleepCore (c : Nat) (s : State) : State :=
  modCore c (fun x => { x with picking := false, waker := none, sleepAt := (dieOf s (dOf c)).cyc }) s

/-- The head of a core's highest FIFO with an entry (08 R171). -/
def headOf (x : CoreSt) : Option QPos := ((fifoHead x 0).or (fifoHead x 1)).or (fifoHead x 2)

/-- The entry of a reserved core's member, in the highest FIFO that holds it (08 R161). -/
def memberEntry (x : CoreSt) : Option QPos :=
  let mine (e : QEntry) : Bool := some e.slot == x.memberSlot && e.mig.isNone
  (List.range 3).findSome? (fun k =>
    let q := qGet x k
    ((q.hw.findIdx? mine).map (fun i => QPos.mk k false i)).or ((q.ring.findIdx? mine).map (fun i => QPos.mk k true i)))

/-- A core runs the entry at a place of its queues, which leaves it (08 R164, R171): not before what its task's start needs is
done (startReady), and a ring entry whose load faults stays, with the fault taken (08 R170). -/
def pickEntry (c : Nat) (p : QPos) (s : State) : State :=
  match entryAt (coreOf s c) p with
  | none => s
  | some e0 =>
    match startReady c e0 s with
    | (t, false) => t
    | (t, true) =>
      match takeAt c p t with
      | .error (.trap _ _) => hwFault c 0x504 0 t
      | .error _ => t
      | .ok (e, u) => (runEntry c p.queue 2 0 e u).getD t

/-- A pick (08 R161, R171): a reserved core takes its member or the bottom of its deque, and else sleeps; another takes the
head of its FIFOs or the bottom of its deque. -/
def pick (c : Nat) (s : State) : State :=
  let x := coreOf s c
  if coreUp s c && x.picking && (x.run == .idle || x.run == .reserved) then
    match (if x.member.isSome then memberEntry x else headOf x).or (bottomOf x) with
    | some p => pickEntry c p s
    | none => if x.member.isSome then sleepCore c s else s
  else s

/-- TASK_PICK (08 R171). -/
def execTaskPick (c : Nat) (s : State) : Host.Outcome State Fault Refusal := .next (pick c s)

/-- The steal domain of a core (08 R172): the cores of the barn whose task it last ran. -/
def stealDomain (s : State) (c : Nat) : List Nat :=
  match (coreOf s c).barn with
  | none => []
  | some b =>
    match s.barns.find? (fun k => k.q == b.1 && k.seq == b.2 && k.st == .resident) with
    | some k => k.clusters.flatMap (fun cl => (List.range 8).map (fun i => 8 * cl + i))
    | none => []

/-- The victims that a steal tries, in order (08 R172; the draws are free, log 11). Log 11, DESIGN CHOICE, safe. -/
def victims (s : State) (c : Nat) : List Nat :=
  let dom := stealDomain s c
  let n := dom.length
  let draw (k : Nat) : List Nat := if n = 0 then [] else [dom.getD (Config.stealDraw (s.free + k) % n) c]
  let near := (List.range 4).filterMap (fun i => neighbour c i)
  ((coreOf s c).waker.toList ++ draw 0 ++ draw 1 ++ near).filter (fun v => v != c && dom.contains v)

/-- The places of a victim's queues that a steal looks at, in order (08 R172): the top of its deque, then the head of a
reserved victim's highest FIFO, unless that is its member. Log 41, DEDUCED, unsafe. -/
def stealPlaces (x : CoreSt) : List QPos :=
  let head := if x.member.isSome then (headOf x).filter (fun p => (entryAt x p).any (fun e => some e.slot != x.memberSlot)) else none
  (topOf x).toList ++ head.toList

/-- Whether the entry at a place is in a thief's scope (08 R172), or none while the read of its record waits: a migration's never
is. -/
def placeFits (s : State) (thief victim : Nat) (p : QPos) : Option Bool :=
  match entryAt (coreOf s victim) p with
  | none => some false
  | some e => if e.mig.isSome then some false else inScope s thief victim e.slot

/-- The first place of a list that a thief may take from (08 R172): a list with one whose record's read waits gives none yet.
Log 41, DEDUCED, unsafe. -/
def offered (s : State) (thief victim : Nat) : List QPos → Option (Option QPos)
  | [] => some none
  | p :: rest =>
    match placeFits s thief victim p with
    | none => none
    | some true => some (some p)
    | some false => offered s thief victim rest

/-- Core c has taken entry e of a victim's queue k (08 R172): STOLEN is set and the task runs; none while an access waits. -/
def runStolen (c v k : Nat) (e : QEntry) (s : State) : Option State :=
  match markRecord c 48 e.slot s with
  | none => none
  | some t => (runEntry c k 5 (yidx s v) e t).map (count 0x70 1 c)

/-- A steal tries victims until one gives an entry (08 R172); the thief's own event counts are 22 R475's. A ring entry whose load
faults stays with the victim, whose fault it is (08 R170). -/
def stealFrom (c : Nat) : List Nat → State → State
  | [], s => sleepCore c s
  | v :: rest, s =>
    match offered s c v (stealPlaces (coreOf s v)) with
    | none => s
    | some none => stealFrom c rest (count 0x71 1 c s)
    | some (some p) =>
      match entryAt (coreOf s v) p with
      | none => s
      | some e0 =>
        match startReady c e0 s with
        | (t, false) => t
        | (t, true) =>
          match takeAt v p t with
          | .error (.trap _ _) => stealFrom c rest (count 0x71 1 c (spillFault v s))
          | .error _ => t
          | .ok (e, u) => (runStolen c v p.queue e u).getD t

/-- STEAL (08 R172): an idle, unreserved core with nothing of its own. -/
def execSteal (c : Nat) (s : State) : Host.Outcome State Fault Refusal :=
  .next (
    let x := coreOf s c
    if coreUp s c && x.picking && x.run == .idle && x.member.isNone && (headOf x).isNone && (bottomOf x).isNone then
      stealFrom c (victims s c) { s with free := s.free + 2 }
    else s)

/-- CORE_SLEEP_TIMEOUT (08 R174). -/
def execCoreSleepTimeout (c : Nat) (s : State) : Host.Outcome State Fault Refusal :=
  .next (
    let x := coreOf s c
    if coreUp s c && !x.picking && (x.run == .idle || x.run == .reserved) && decide (x.sleepAt + 4096 ≤ (dieOf s (dOf c)).cyc) then
      wakeCore c none s
    else s)

/-- The place of FIFO 2's oldest entry (08 R173): in hardware, or in the ring behind. -/
def oldestOf (x : CoreSt) : Option QPos := fifoHead x 2

/-- Entry e of FIFO 2 has left it: it moves to the tail of FIFO 1, and PROMOTED is set (08 R173); else it must
wait, with true for a fault of the spill access. -/
def promoteEntry (c : Nat) (e : QEntry) (s : State) : Except Bool State :=
  match readWords (whoSup s c) c e.slot.toNat 2 s with
  | .error (.stall _ _ _) => .error false
  | r =>
    let (pc, gtid) := match r with | .ok (v, _) => (wd (dwordOf v 0), wd (dwordOf v 1)) | .error _ => (0, 0)
    match pushQE c 1 c gtid pc { e with promoted := true } s with
    | .error f => .error (f == 0x504)
    | .ok t =>
      match markRecord c 49 e.slot (count 0x72 1 c t) with
      | none => .error false
      | some u => .ok u

/-- Entries of FIFO 2 that are old enough move to FIFO 1, the oldest first, while there is room (08 R169, R173). -/
def promote (c : Nat) : Nat → State → State
  | 0, s => s
  | n + 1, s =>
    match oldestOf (coreOf s c) with
    | none => s
    | some p =>
      match entryAt (coreOf s c) p with
      | none => s
      | some e0 =>
        if decide ((dieOf s (dOf c)).cyc ≤ e0.cyc + 65536) || !(qRoom (coreOf s c) 1 1) then s
        else
          match takeAt c p s with
          | .error (.trap _ _) => spillFault c s
          | .error _ => s
          | .ok (e, t) =>
            match promoteEntry c e t with
            | .error spill => if spill then spillFault c s else s
            | .ok u => promote c n u

/-- FIFO_AGING (08 R173). -/
def execFifoAging (c : Nat) (s : State) : Host.Outcome State Fault Refusal :=
  .next (if coreUp s c then promote c 528 s else s)

/-! Messages. -/

/-- Whether the state of a tenant that held a cluster is saved (17 R407). Log 40, DEDUCED, unsafe. -/
def savedAt (s : State) (tenant cl : Nat) : Bool := s.saves.any (fun e => e.tenant == tenant && e.clusters.any (fun v => v.cl == cl))

/-- Whether a packet for a die must wait or is stale (19 R446; 20 R460). -/
def notYet (s : State) (d gen : Nat) : Bool :=
  (AList.find? s.dead d).isSome || newer (dieGen s d) gen || newer gen (dieMapgen s d)

/-- A message that the NI of a cluster carries reaches its target (08 R176, R177; 16 R381; 17 R405). -/
def messageArrives (cl k : Nat) (s : State) : State :=
  match (clusterOf s cl).msgs[k]? with
  | none => s
  | some m =>
    let c := m.core
    let to_ := clOf c
    if m.held || notYet s (dOf c) m.gen || savedAt s m.tenant to_ then s
    else
      let gone (t : State) : State := modCluster cl (fun x => { x with msgs := dropAt k x.msgs }) t
      let holds := (barnAt s to_).any (fun b => b.tenant == m.tenant)
      if !(isLive s (dOf c)) || !holds || (!m.sup && !(inPaddock s m.tenant to_)) then sendResult m 1 (gone s)
      else
        let r := takeMsg c m s
        if r.2 then sendResult m 0 (trafficAt to_ (gone r.1))
        else modCluster cl (fun x => { x with msgs := setAt k { m with held := true } x.msgs }) r.1

/-- MESSAGE_ARRIVAL (08 R176). -/
def execMessageArrival (cl k : Nat) (s : State) : Host.Outcome State Fault Refusal := .next (messageArrives cl k s)

/-- INBOX_HELD_ACTION (08 R177). -/
def execInboxHeldAction (c : Nat) (s : State) : Host.Outcome State Fault Refusal := .next (if coreUp s c then actHeld c s else s)

/-- The refused full/empty requests of a cluster's cores, with the scratchpads that refused them (03 R67). -/
def refusedAt (s : State) (cl : Nat) : List (Nat × Waiter) :=
  s.cores.flatMap (fun e => (e.2.nacked.filter (fun w => clOf w.who == cl)).map (fun w => (e.1, w)))

/-- A refused request enters the wait queue of its word's owner once it has room (03 R67). -/
def requestAgain (home : Nat) (w : Waiter) (s : State) : State :=
  let x := coreOf s home
  if spBusy s home || decide (32 ≤ (x.waiters.filter (fun v => v.who != home)).length) then s
  else
    examine (x.waiters.length + 2) home w.off
      (setCore home { x with nacked := x.nacked.erase w, waiters := x.waiters ++ [w] } s)

/-- NI_RESEND (08 R177; 03 R67): message k of a cluster's NI, or after those a refused request of its cores. -/
def execNiResend (cl k : Nat) (s : State) : Host.Outcome State Fault Refusal :=
  .next (
    let ms := (clusterOf s cl).msgs
    match ms[k]? with
    | some m => modCluster cl (fun x => { x with msgs := setAt k { m with held := false } x.msgs }) s
    | none =>
      match (refusedAt s cl)[k - ms.length]? with
      | some (home, w) => requestAgain home w s
      | none => s)

/-- REMOTE_WORD_ACCESS (04 R73, R74): the first store that waits at a home is performed once its split has changed. -/
def execRemoteWordAccess (c : Nat) (s : State) : Host.Outcome State Fault Refusal :=
  .next (
    match (coreOf s c).remq with
    | [] => s
    | e :: rest =>
      if spBusy s c then s
      else
        let t := trafficAt (clOf c) (modCore c (fun x => { x with remq := rest }) s)
        breakResv (some e.who) e.line (homeWrite (some c) e.kind e.line e.key e.bytes t))

/-! Barrier notifications. -/

/-- A notification reaches the NI of its participant (15 R368; 17 R405; 19 R446). -/
def notifyArrives (cl k : Nat) (s : State) : State :=
  match (clusterOf s cl).notes[k]? with
  | none => s
  | some n =>
    let to_ := clOf n.dst
    let d := dOf n.dst
    let gone := modCluster cl (fun x => { x with notes := dropAt k x.notes }) s
    if (AList.find? s.dead d).isSome || newer n.gen (dieMapgen s d) || savedAt s n.tenant to_ then s
    else if newer (dieGen s d) n.gen then
      countAll 0xC7 1 (if 63 ≤ n.nacks then gone
        else modCluster cl (fun x => { x with notes := setAt k { n with gen := x.mapgen, nacks := n.nacks + 1 } x.notes }) s)
    else if !(isLive s d) || !(inPaddock s n.tenant to_) then gone
    else
      let w := ((clusterOf s to_).bars.get {} n.desc).word.toNat
      if bits w 17 10 != n.tenant then countCluster 0xB4 1 to_ gone
      else if !(bit w 63) then gone
      else
        match partOf w (yidx s n.dst) with
        | none => gone
        | some p =>
          let b := barPart gone to_ n.desc p
          let b2 : BarPart :=
            if n.epoch = b.epoch then { b with got := insertNat n.rnd b.got }
            else if n.epoch = b.epoch + 1 then { b with gotNext := insertNat n.rnd b.gotNext }
            else b
          barAdvance to_ n.desc p w 20 (putPart to_ n.desc p b2 (trafficAt to_ gone))

/-- BAR_NOTIFY_ARRIVE (15 R368). -/
def execBarNotifyArrive (cl k : Nat) (s : State) : Host.Outcome State Fault Refusal := .next (notifyArrives cl k s)

/-! Results, walks and buffers. -/

/-- LA_RESULT_ARRIVE (18 R422): window k of a core has its result; a fault that it carries is taken at the core's next
boundary. -/
def execLaResultArrive (c k : Nat) (s : State) : Host.Outcome State Fault Refusal :=
  .next (if coreUp s c then modCore c (deliverAt k) s else s)

/-- PAGE_WALK (02 R30 to R33): the walk of an access that a core makes, which fills the TLBs (02 R35); a fault is the access's. A
core that has written VMROOT, or loaded another tenant's context, has its die's log applied first (02 R38). -/
def execPageWalk (c : Nat) (va : Word) (acc : Acc) (s : State) : Host.Outcome State Fault Refusal :=
  .next (
    let w := whoCore s c
    if coreUp s c && w.en && canonical va.toNat && !(inWindows va.toNat) then
      match logGate c s with
      | (t, false) => t
      | (t, true) =>
        match walkFill w acc va.toNat t with
        | .ok r => r.2.2
        | .error _ => t
    else s)

/-- IL_APPLY (02 R38, R39). -/
def execIlApply (d : Nat) (s : State) : Host.Outcome State Fault Refusal := .next (if d < 8 then ilApply d s else s)

/-- SCB_DRAIN_TIMEOUT (04 R85): 64 cycles after the oldest entry's allocation. -/
def execScbDrainTimeout (c : Nat) (s : State) : Host.Outcome State Fault Refusal :=
  .next (
    match (coreOf s c).scb with
    | [] => s
    | e :: _ => if coreUp s c && decide (e.cyc + 64 ≤ (dieOf s (dOf c)).cyc) then drainOne c s else s)

/-- RP_AGED_WRITEBACK (07 R153): lines dirty for 65,536 cycles are written back and cleaned. -/
def execRpAgedWriteback (d : Nat) (s : State) : Host.Outcome State Fault Refusal :=
  .next (
    let x := dieOf s d
    let old (l : RpLine) : Bool := !(l.dirty.isEmpty) && decide (l.cyc + 65536 ≤ x.cyc)
    let t := (x.rp.filter old).foldl (fun u l =>
      postWrite (128 * d) l.line l.key (l.bytes.filter (fun e => l.dirty.contains e.1)) u) s
    if d < 8 ∧ x.rp.any old = true then
      modDie d (fun y => { y with rp := y.rp.map (fun l => if old l then { l with dirty := [] } else l) }) t
    else s)

/-! HBM. -/

/-- RFM_COMPLETE (05 R106, R109): the victim rows of a bank's alerts have been refreshed, each in 95 ns. -/
def execRfmComplete (d bank : Nat) (s : State) : Host.Outcome State Fault Refusal :=
  .next (
    let k := d * 2048 + bank % 2048
    match AList.find? s.banks k with
    | none => s
    | some b =>
      let n := b.victims.length
      if n = 0 then s
      else
        let t := countDie 0x61 n d { s with banks := s.banks.put k { b with victims := [], queued := false } }
        if b.queued then countDie 0x62 (95 * n) d t else t)

/-- REFRESH_WINDOW_END (05 R105, R106): every 32 ms the activation tables clear, and a new threshold applies. -/
def execRefreshWindowEnd (s : State) : Host.Outcome State Fault Refusal :=
  .next (if s.time / (32 * 10 ^ 6) ≤ s.refWin then s
    else { s with
      refWin := s.time / (32 * 10 ^ 6), hbmcfg := s.hbmNext
      banks := s.banks.map (fun e => (e.1, { e.2 with acts := [] })) })

/-- Lines of one stack (05 R93, R94). -/
def stackLines : Nat := 2 ^ 29
/-- The n-th line of a stack in ascending address order (05 R94, R95): bit 8 of an address selects the stack. -/
def scrubLine (st n : Nat) : Nat := n % stackLines / 2 * 4 + st * 2 + n % 2

/-- HBM_SCRUB (05 R95): a stack's base die reads the next line of the stack in ascending address order and corrects it; each pass
takes its own 24 hours. The stacks of live dies are scrubbed, and those of a cold spare (die 8). -/
def execHbmScrub (d line : Nat) (s : State) : Host.Outcome State Fault Refusal :=
  .next (
    let st := line / 2 % 2
    let n := (dieOf s d).scrubbed.get 0 st
    let pa := d * 2 ^ 37 + 128 * line
    if ((d < 8 ∧ isLive s d = true ∧ AList.find? s.dead d = none) ∨ (d = 8 ∧ isSpare s 8 = true ∧ AList.find? s.dead 8 = none)) ∧
        line = scrubLine st n ∧ n / stackLines ≤ s.time / (86400 * 10 ^ 9) then
      modDie d (fun x => { x with scrubbed := x.scrubbed.put st (n + 1) }) (dramAccess true d pa (spoilLine pa (correctLine pa s)))
    else s)

/-- CE_FILTER_CLEAR (05 R107): as TIME passes each day since cold reset. -/
def execCeFilterClear (s : State) : Host.Outcome State Fault Refusal :=
  .next (if s.time / (86400 * 10 ^ 9) ≤ s.ceDay then s
    else { s with
      ceDay := s.time / (86400 * 10 ^ 9)
      dies := s.dies.map (fun e => (e.1, { e.2 with cefilter := [], cehist := [] })) })

/-! Trace. -/

/-- TRACE_SAMPLE (22 R480): a kind 8 record every SPERIOD times 1,024 cycles while a task is resident. -/
def execTraceSample (c : Nat) (s : State) : Host.Outcome State Fault Refusal :=
  .next (
    let x := coreOf s c
    let p := bits x.trcctl.toNat 35 16 * 1024
    let now := (dieOf s (dOf c)).cyc
    if coreUp s c && x.haveTask && p != 0 && decide (x.trcLast + p ≤ now) then
      traceRec c 8 x.gtid 0 0 x.pc (modCore c (fun y => { y with trcLast := now }) s)
    else s)

end Sys2Proof.Machine

end
end

