-- ==== Sys2Proof/Machine/Slots.lean ====
section
/-!
DEFINITION. What the issue of an instruction asks of its fields: the registers it names (09 R200), whether it takes slot B
(09 R188), and whether it names a tile format other than FP32 (21 R470).
-/

namespace Sys2Proof.Machine

open Sys2Proof

/-- The registers of a tile instruction with those its prefix names (09 R193, R200): scalar ones and tile ones. -/
def withPfx (p : Option Pfx) (xs vs : List Nat) : List Nat × List Nat :=
  match p with
  | none => (xs, vs)
  | some q => (q.mask.val :: xs, if q.v4 then q.op4.val :: vs else vs)

/-- The scalar and tile registers that an instruction names (09 R200). Log 59, DEDUCED, unsafe. -/
def namesOf (i : Instr) : List Nat × List Nat :=
  match i with
  | .add rd rs1 rs2 => ([rd.val, rs1.val, rs2.val], [])
  | .sll rd rs1 rs2 => ([rd.val, rs1.val, rs2.val], [])
  | .slt rd rs1 rs2 => ([rd.val, rs1.val, rs2.val], [])
  | .sltu rd rs1 rs2 => ([rd.val, rs1.val, rs2.val], [])
  | .xor rd rs1 rs2 => ([rd.val, rs1.val, rs2.val], [])
  | .srl rd rs1 rs2 => ([rd.val, rs1.val, rs2.val], [])
  | .or rd rs1 rs2 => ([rd.val, rs1.val, rs2.val], [])
  | .and rd rs1 rs2 => ([rd.val, rs1.val, rs2.val], [])
  | .sub rd rs1 rs2 => ([rd.val, rs1.val, rs2.val], [])
  | .sra rd rs1 rs2 => ([rd.val, rs1.val, rs2.val], [])
  | .mul rd rs1 rs2 => ([rd.val, rs1.val, rs2.val], [])
  | .mulh rd rs1 rs2 => ([rd.val, rs1.val, rs2.val], [])
  | .mulhsu rd rs1 rs2 => ([rd.val, rs1.val, rs2.val], [])
  | .mulhu rd rs1 rs2 => ([rd.val, rs1.val, rs2.val], [])
  | .addw rd rs1 rs2 => ([rd.val, rs1.val, rs2.val], [])
  | .subw rd rs1 rs2 => ([rd.val, rs1.val, rs2.val], [])
  | .sllw rd rs1 rs2 => ([rd.val, rs1.val, rs2.val], [])
  | .srlw rd rs1 rs2 => ([rd.val, rs1.val, rs2.val], [])
  | .sraw rd rs1 rs2 => ([rd.val, rs1.val, rs2.val], [])
  | .mulw rd rs1 rs2 => ([rd.val, rs1.val, rs2.val], [])
  | .addi rd rs1 _ => ([rd.val, rs1.val], [])
  | .slti rd rs1 _ => ([rd.val, rs1.val], [])
  | .sltiu rd rs1 _ => ([rd.val, rs1.val], [])
  | .xori rd rs1 _ => ([rd.val, rs1.val], [])
  | .ori rd rs1 _ => ([rd.val, rs1.val], [])
  | .andi rd rs1 _ => ([rd.val, rs1.val], [])
  | .slli rd rs1 _ => ([rd.val, rs1.val], [])
  | .srli rd rs1 _ => ([rd.val, rs1.val], [])
  | .srai rd rs1 _ => ([rd.val, rs1.val], [])
  | .addiw rd rs1 _ => ([rd.val, rs1.val], [])
  | .slliw rd rs1 _ => ([rd.val, rs1.val], [])
  | .srliw rd rs1 _ => ([rd.val, rs1.val], [])
  | .sraiw rd rs1 _ => ([rd.val, rs1.val], [])
  | .lui rd _ => ([rd.val], [])
  | .auipc rd _ => ([rd.val], [])
  | .div rd rs1 rs2 _ => ([rd.val, rs1.val, rs2.val], [])
  | .divu rd rs1 rs2 _ => ([rd.val, rs1.val, rs2.val], [])
  | .rem rd rs1 rs2 _ => ([rd.val, rs1.val, rs2.val], [])
  | .remu rd rs1 rs2 _ => ([rd.val, rs1.val, rs2.val], [])
  | .divw rd rs1 rs2 _ => ([rd.val, rs1.val, rs2.val], [])
  | .divuw rd rs1 rs2 _ => ([rd.val, rs1.val, rs2.val], [])
  | .remw rd rs1 rs2 _ => ([rd.val, rs1.val, rs2.val], [])
  | .remuw rd rs1 rs2 _ => ([rd.val, rs1.val, rs2.val], [])
  | .andn rd rs1 rs2 => ([rd.val, rs1.val, rs2.val], [])
  | .orn rd rs1 rs2 => ([rd.val, rs1.val, rs2.val], [])
  | .min rd rs1 rs2 => ([rd.val, rs1.val, rs2.val], [])
  | .max rd rs1 rs2 => ([rd.val, rs1.val, rs2.val], [])
  | .minu rd rs1 rs2 => ([rd.val, rs1.val, rs2.val], [])
  | .maxu rd rs1 rs2 => ([rd.val, rs1.val, rs2.val], [])
  | .rol rd rs1 rs2 => ([rd.val, rs1.val, rs2.val], [])
  | .ror rd rs1 rs2 => ([rd.val, rs1.val, rs2.val], [])
  | .clmul rd rs1 rs2 => ([rd.val, rs1.val, rs2.val], [])
  | .clmulh rd rs1 rs2 => ([rd.val, rs1.val, rs2.val], [])
  | .clmulr rd rs1 rs2 => ([rd.val, rs1.val, rs2.val], [])
  | .bext rd rs1 rs2 => ([rd.val, rs1.val, rs2.val], [])
  | .bdep rd rs1 rs2 => ([rd.val, rs1.val, rs2.val], [])
  | .clz rd rs1 => ([rd.val, rs1.val], [])
  | .ctz rd rs1 => ([rd.val, rs1.val], [])
  | .popc rd rs1 => ([rd.val, rs1.val], [])
  | .brev rd rs1 => ([rd.val, rs1.val], [])
  | .bswap rd rs1 => ([rd.val, rs1.val], [])
  | .sextB rd rs1 => ([rd.val, rs1.val], [])
  | .sextH rd rs1 => ([rd.val, rs1.val], [])
  | .sextW rd rs1 => ([rd.val, rs1.val], [])
  | .zextB rd rs1 => ([rd.val, rs1.val], [])
  | .zextH rd rs1 => ([rd.val, rs1.val], [])
  | .zextW rd rs1 => ([rd.val, rs1.val], [])
  | .rori rd rs1 _ => ([rd.val, rs1.val], [])
  | .modp rd rs1 _ => ([rd.val, rs1.val], [])
  | .beq rs1 rs2 _ => ([rs1.val, rs2.val], [])
  | .bne rs1 rs2 _ => ([rs1.val, rs2.val], [])
  | .bbs rs1 rs2 _ => ([rs1.val, rs2.val], [])
  | .bbc rs1 rs2 _ => ([rs1.val, rs2.val], [])
  | .blt rs1 rs2 _ => ([rs1.val, rs2.val], [])
  | .bge rs1 rs2 _ => ([rs1.val, rs2.val], [])
  | .bltu rs1 rs2 _ => ([rs1.val, rs2.val], [])
  | .bgeu rs1 rs2 _ => ([rs1.val, rs2.val], [])
  | .jal rd _ => ([rd.val], [])
  | .jalr rd rs1 _ => ([rd.val, rs1.val], [])
  | .jalp rd rs1 => ([rd.val, rs1.val], [])
  | .faddS rd rs1 rs2 _ => ([rd.val, rs1.val, rs2.val], [])
  | .fsubS rd rs1 rs2 _ => ([rd.val, rs1.val, rs2.val], [])
  | .fmulS rd rs1 rs2 _ => ([rd.val, rs1.val, rs2.val], [])
  | .fminS rd rs1 rs2 => ([rd.val, rs1.val, rs2.val], [])
  | .fmaxS rd rs1 rs2 => ([rd.val, rs1.val, rs2.val], [])
  | .fsgnjS rd rs1 rs2 => ([rd.val, rs1.val, rs2.val], [])
  | .fsgnjnS rd rs1 rs2 => ([rd.val, rs1.val, rs2.val], [])
  | .fsgnjxS rd rs1 rs2 => ([rd.val, rs1.val, rs2.val], [])
  | .fleS rd rs1 rs2 => ([rd.val, rs1.val, rs2.val], [])
  | .fltS rd rs1 rs2 => ([rd.val, rs1.val, rs2.val], [])
  | .feqS rd rs1 rs2 => ([rd.val, rs1.val, rs2.val], [])
  | .fclassS rd rs1 => ([rd.val, rs1.val], [])
  | .fcvtWS rd rs1 _ => ([rd.val, rs1.val], [])
  | .fcvtWuS rd rs1 _ => ([rd.val, rs1.val], [])
  | .fcvtLS rd rs1 _ => ([rd.val, rs1.val], [])
  | .fcvtLuS rd rs1 _ => ([rd.val, rs1.val], [])
  | .fcvtSW rd rs1 _ => ([rd.val, rs1.val], [])
  | .fcvtSWu rd rs1 _ => ([rd.val, rs1.val], [])
  | .fcvtSL rd rs1 _ => ([rd.val, rs1.val], [])
  | .fcvtSLu rd rs1 _ => ([rd.val, rs1.val], [])
  | .fdivS rd rs1 rs2 _ _ => ([rd.val, rs1.val, rs2.val], [])
  | .fsqrtS rd rs1 _ _ => ([rd.val, rs1.val], [])
  | .fmaddS rd rs1 rs2 rs3 _ => ([rd.val, rs1.val, rs2.val, rs3.val], [])
  | .fmsubS rd rs1 rs2 rs3 _ => ([rd.val, rs1.val, rs2.val, rs3.val], [])
  | .fnmsubS rd rs1 rs2 rs3 _ => ([rd.val, rs1.val, rs2.val, rs3.val], [])
  | .fnmaddS rd rs1 rs2 rs3 _ => ([rd.val, rs1.val, rs2.val, rs3.val], [])
  | .csrrw rd rs1 _ => ([rd.val, rs1.val], [])
  | .csrrs rd rs1 _ => ([rd.val, rs1.val], [])
  | .csrrc rd rs1 _ => ([rd.val, rs1.val], [])
  | .csrrwi rd _ _ => ([rd.val], [])
  | .csrrsi rd _ _ => ([rd.val], [])
  | .csrrci rd _ _ => ([rd.val], [])
  | .trap _ => ([], [])
  | .eret => ([], [])
  | .halt => ([], [])
  | .brk => ([], [])
  | .lb rd rs1 _ _ => ([rd.val, rs1.val], [])
  | .lh rd rs1 _ _ => ([rd.val, rs1.val], [])
  | .lw rd rs1 _ _ => ([rd.val, rs1.val], [])
  | .ld rd rs1 _ _ => ([rd.val, rs1.val], [])
  | .lbu rd rs1 _ _ => ([rd.val, rs1.val], [])
  | .lhu rd rs1 _ _ => ([rd.val, rs1.val], [])
  | .lwu rd rs1 _ _ => ([rd.val, rs1.val], [])
  | .loadAcquire rd rs1 _ _ _ => ([rd.val, rs1.val], [])
  | .sb rs2 rs1 _ => ([rs2.val, rs1.val], [])
  | .sh rs2 rs1 _ => ([rs2.val, rs1.val], [])
  | .sw rs2 rs1 _ => ([rs2.val, rs1.val], [])
  | .sd rs2 rs1 _ => ([rs2.val, rs1.val], [])
  | .storeRelease rs2 rs1 _ _ => ([rs2.val, rs1.val], [])
  | .vld vd rs1 _ _ pfx => withPfx pfx [rs1.val] [vd.val]
  | .vldb vd rs1 _ _ pfx => withPfx pfx [rs1.val] [vd.val]
  | .vlds vd rs1 rs2 _ pfx => withPfx pfx [rs1.val, rs2.val] [vd.val]
  | .vldg vd rs1 vs2 _ pfx => withPfx pfx [rs1.val] [vd.val, vs2.val]
  | .vst vs rs1 _ pfx => withPfx pfx [rs1.val] [vs.val]
  | .vsts vs rs1 rs2 pfx => withPfx pfx [rs1.val, rs2.val] [vs.val]
  | .vstg vs rs1 vs2 pfx => withPfx pfx [rs1.val] [vs.val, vs2.val]
  | .ldfE rd rs1 _ _ => ([rd.val, rs1.val], [])
  | .ldfF rd rs1 _ _ => ([rd.val, rs1.val], [])
  | .ste rs2 rs1 _ => ([rs2.val, rs1.val], [])
  | .stf rs2 rs1 _ => ([rs2.val, rs1.val], [])
  | .fetag rd rs1 _ => ([rd.val, rs1.val], [])
  | .fsetE rs1 _ => ([rs1.val], [])
  | .fsetF rs1 _ => ([rs1.val], [])
  | .amoswap rd rs1 _ _ _ _ _ => ([rd.val, rs1.val], [])
  | .amoadd rd rs1 _ _ _ _ _ => ([rd.val, rs1.val], [])
  | .amoand rd rs1 _ _ _ _ _ => ([rd.val, rs1.val], [])
  | .amoor rd rs1 _ _ _ _ _ => ([rd.val, rs1.val], [])
  | .amoxor rd rs1 _ _ _ _ _ => ([rd.val, rs1.val], [])
  | .amomin rd rs1 _ _ _ _ _ => ([rd.val, rs1.val], [])
  | .amomax rd rs1 _ _ _ _ _ => ([rd.val, rs1.val], [])
  | .amominu rd rs1 _ _ _ _ _ => ([rd.val, rs1.val], [])
  | .amomaxu rd rs1 _ _ _ _ _ => ([rd.val, rs1.val], [])
  | .amofadd rd rs1 _ _ _ _ => ([rd.val, rs1.val], [])
  | .amocas rd rs1 _ _ _ _ _ => ([rd.val, rs1.val, rd.val + 1], [])
  | .lr rd rs1 _ _ _ _ => ([rd.val, rs1.val], [])
  | .sc rd rs1 _ _ _ _ => ([rd.val, rs1.val], [])
  | .redadd rs2 rs1 _ => ([rs2.val, rs1.val], [])
  | .redand rs2 rs1 _ => ([rs2.val, rs1.val], [])
  | .redor rs2 rs1 _ => ([rs2.val, rs1.val], [])
  | .redxor rs2 rs1 _ => ([rs2.val, rs1.val], [])
  | .redmin rs2 rs1 _ => ([rs2.val, rs1.val], [])
  | .redmax rs2 rs1 _ => ([rs2.val, rs1.val], [])
  | .redminu rs2 rs1 _ => ([rs2.val, rs1.val], [])
  | .redmaxu rs2 rs1 _ => ([rs2.val, rs1.val], [])
  | .redfadd rs2 rs1 => ([rs2.val, rs1.val], [])
  | .fence _ _ _ => ([], [])
  | .ifence => ([], [])
  | .codeinv rs1 rs2 _ => ([rs1.val, rs2.val], [])
  | .ipref rs2 rs1 => ([rs2.val, rs1.val], [])
  | .dpref rs1 _ => ([rs1.val], [])
  | .tlblog rd rs1 rs2 _ => ([rd.val, rs1.val, rs2.val], [])
  | .tlblogw rd rs1 rs2 _ => ([rd.val, rs1.val, rs2.val], [])
  | .vadd vd vs1 src2 x _ pfx => withPfx pfx (if x then [src2.val] else []) ([vd.val, vs1.val] ++ (if x then [] else [src2.val]))
  | .vsub vd vs1 src2 x _ pfx => withPfx pfx (if x then [src2.val] else []) ([vd.val, vs1.val] ++ (if x then [] else [src2.val]))
  | .vmul vd vs1 src2 x _ pfx => withPfx pfx (if x then [src2.val] else []) ([vd.val, vs1.val] ++ (if x then [] else [src2.val]))
  | .vmulh vd vs1 src2 x _ pfx => withPfx pfx (if x then [src2.val] else []) ([vd.val, vs1.val] ++ (if x then [] else [src2.val]))
  | .vmin vd vs1 src2 x _ pfx => withPfx pfx (if x then [src2.val] else []) ([vd.val, vs1.val] ++ (if x then [] else [src2.val]))
  | .vmax vd vs1 src2 x _ pfx => withPfx pfx (if x then [src2.val] else []) ([vd.val, vs1.val] ++ (if x then [] else [src2.val]))
  | .vand vd vs1 src2 x _ pfx => withPfx pfx (if x then [src2.val] else []) ([vd.val, vs1.val] ++ (if x then [] else [src2.val]))
  | .vor vd vs1 src2 x _ pfx => withPfx pfx (if x then [src2.val] else []) ([vd.val, vs1.val] ++ (if x then [] else [src2.val]))
  | .vxor vd vs1 src2 x _ pfx => withPfx pfx (if x then [src2.val] else []) ([vd.val, vs1.val] ++ (if x then [] else [src2.val]))
  | .vsll vd vs1 src2 x _ pfx => withPfx pfx (if x then [src2.val] else []) ([vd.val, vs1.val] ++ (if x then [] else [src2.val]))
  | .vsr vd vs1 src2 x _ pfx => withPfx pfx (if x then [src2.val] else []) ([vd.val, vs1.val] ++ (if x then [] else [src2.val]))
  | .vabsd vd vs1 src2 x _ pfx => withPfx pfx (if x then [src2.val] else []) ([vd.val, vs1.val] ++ (if x then [] else [src2.val]))
  | .vfadd vd vs1 src2 x _ pfx => withPfx pfx (if x then [src2.val] else []) ([vd.val, vs1.val] ++ (if x then [] else [src2.val]))
  | .vfsub vd vs1 src2 x _ pfx => withPfx pfx (if x then [src2.val] else []) ([vd.val, vs1.val] ++ (if x then [] else [src2.val]))
  | .vfmul vd vs1 src2 x _ pfx => withPfx pfx (if x then [src2.val] else []) ([vd.val, vs1.val] ++ (if x then [] else [src2.val]))
  | .vfmin vd vs1 src2 x _ pfx => withPfx pfx (if x then [src2.val] else []) ([vd.val, vs1.val] ++ (if x then [] else [src2.val]))
  | .vfmax vd vs1 src2 x _ pfx => withPfx pfx (if x then [src2.val] else []) ([vd.val, vs1.val] ++ (if x then [] else [src2.val]))
  | .vfma vd vs1 src2 x _ pfx => withPfx pfx (if x then [src2.val] else []) ([vd.val, vs1.val] ++ (if x then [] else [src2.val]))
  | .vfms vd vs1 src2 x _ pfx => withPfx pfx (if x then [src2.val] else []) ([vd.val, vs1.val] ++ (if x then [] else [src2.val]))
  | .vfnma vd vs1 src2 x _ pfx => withPfx pfx (if x then [src2.val] else []) ([vd.val, vs1.val] ++ (if x then [] else [src2.val]))
  | .vfabs vd vs1 _ pfx => withPfx pfx [] [vd.val, vs1.val]
  | .vfneg vd vs1 _ pfx => withPfx pfx [] [vd.val, vs1.val]
  | .vscacc vd vs1 vs2 pfx => withPfx pfx [] [vd.val, vs1.val, vs2.val]
  | .vfdivF32 vd vs1 vs2 _ pfx => withPfx pfx [] [vd.val, vs1.val, vs2.val]
  | .vfsqrtF32 vd vs1 _ pfx => withPfx pfx [] [vd.val, vs1.val]
  | .vfdivBf16 vd vs1 vs2 _ pfx => withPfx pfx [] [vd.val, vs1.val, vs2.val]
  | .vfsqrtBf16 vd vs1 _ pfx => withPfx pfx [] [vd.val, vs1.val]
  | .vfdivF16 vd vs1 vs2 _ pfx => withPfx pfx [] [vd.val, vs1.val, vs2.val]
  | .vfsqrtF16 vd vs1 _ pfx => withPfx pfx [] [vd.val, vs1.val]
  | .vexp2 vd vs1 _ pfx => withPfx pfx [] [vd.val, vs1.val]
  | .vlog2 vd vs1 _ pfx => withPfx pfx [] [vd.val, vs1.val]
  | .vrcp vd vs1 _ pfx => withPfx pfx [] [vd.val, vs1.val]
  | .vrsqrt vd vs1 _ pfx => withPfx pfx [] [vd.val, vs1.val]
  | .vsqrt vd vs1 _ pfx => withPfx pfx [] [vd.val, vs1.val]
  | .vtanh vd vs1 _ pfx => withPfx pfx [] [vd.val, vs1.val]
  | .vsin vd vs1 _ pfx => withPfx pfx [] [vd.val, vs1.val]
  | .vcos vd vs1 _ pfx => withPfx pfx [] [vd.val, vs1.val]
  | .vcvt vd vs1 _ _ _ pfx => withPfx pfx [] [vd.val, vs1.val]
  | .vtrans vd vs1 pfx => withPfx pfx [] [vd.val, vs1.val]
  | .vperm vd vs1 vs2 pfx => withPfx pfx [] [vd.val, vs1.val, vs2.val]
  | .vslideC vd vs1 xs pfx => withPfx pfx [xs.val] [vd.val, vs1.val]
  | .vslideR vd vs1 xs pfx => withPfx pfx [xs.val] [vd.val, vs1.val]
  | .vbcastR vd vs1 xs pfx => withPfx pfx [xs.val] [vd.val, vs1.val]
  | .vbcastC vd vs1 xs pfx => withPfx pfx [xs.val] [vd.val, vs1.val]
  | .vredsum vd vs1 _ _ pfx => withPfx pfx [] [vd.val, vs1.val]
  | .vredmin vd vs1 _ _ pfx => withPfx pfx [] [vd.val, vs1.val]
  | .vredmax vd vs1 _ _ pfx => withPfx pfx [] [vd.val, vs1.val]
  | .vrand vd pfx => withPfx pfx [] [vd.val]
  | .vrandf vd pfx => withPfx pfx [] [vd.val]
  | .vcmp xd vs1 vs2 _ _ pfx => withPfx pfx [xd.val] [vs1.val, vs2.val]
  | .vsel vd vs1 vs2 pfx => withPfx pfx [] [vd.val, vs1.val, vs2.val]
  | .vmv vd vs1 pfx => withPfx pfx [] [vd.val, vs1.val]
  | .vgetx xd vs1 xs pfx => withPfx pfx [xd.val, xs.val] [vs1.val]
  | .vsetx vd xa xs pfx => withPfx pfx [xa.val, xs.val] [vd.val]
  | .vbcx vd xa pfx => withPfx pfx [xa.val] [vd.val]
  | .tshape _ _ pfx => withPfx pfx [] []
  | .yield => ([], [])
  | .suspend rs1 => ([rs1.val], [])
  | .exit => ([], [])
  | .join rs1 => ([rs1.val], [])
  | .spawnl rd rs1 rs2 => ([rd.val, rs1.val, rs2.val], [])
  | .gang => ([], [])
  | .ungang => ([], [])
  | .fork xs xj _ => ([xs.val, xj.val], [])
  | .spawn rs1 _ => ([rs1.val], [])
  | .spawnN rs1 _ => ([rs1.val], [])
  | .send rd rs1 rs2 _ _ => ([rd.val, rs1.val, rs2.val], [])
  | .sendp rd rs1 rs2 _ _ => ([rd.val, rs1.val, rs2.val], [])
  | .tagen rd rs1 => ([rd.val, rs1.val], [])
  | .tagdis rd rs1 => ([rd.val, rs1.val], [])
  | .tagset rd rs1 => ([rd.val, rs1.val], [])
  | .tagclr rd rs1 => ([rd.val, rs1.val], [])
  | .tagq rd rs1 => ([rd.val, rs1.val], [])
  | .tagw rs1 rs2 xc => ([rs1.val, rs2.val, xc.val], [])
  | .wait rs1 _ => ([rs1.val], [])
  | .bara _ => ([], [])
  | .barw _ => ([], [])
  | .bar _ => ([], [])
  | .give rs1 _ => ([rs1.val], [])
  | .take rs1 _ => ([rs1.val], [])
  | .mlease rs1 => ([rs1.val], [])
  | .mfree => ([], [])
  | .cdopen rd rs1 => ([rd.val, rs1.val], [])
  | .cdclose => ([], [])
  | .cdabort => ([], [])
  | .qstat rd _ => ([rd.val], [])
  | _ => ([], [])

/-- Whether an instruction's major belongs to slot B (09 R188). -/
def majorB (i : Instr) : Bool :=
  match i with
  | .vld _ _ _ _ _ => true
  | .vldb _ _ _ _ _ => true
  | .vlds _ _ _ _ _ => true
  | .vldg _ _ _ _ _ => true
  | .vst _ _ _ _ => true
  | .vsts _ _ _ _ => true
  | .vstg _ _ _ _ => true
  | .vadd _ _ _ _ _ _ => true
  | .vsub _ _ _ _ _ _ => true
  | .vmul _ _ _ _ _ _ => true
  | .vmulh _ _ _ _ _ _ => true
  | .vmin _ _ _ _ _ _ => true
  | .vmax _ _ _ _ _ _ => true
  | .vand _ _ _ _ _ _ => true
  | .vor _ _ _ _ _ _ => true
  | .vxor _ _ _ _ _ _ => true
  | .vsll _ _ _ _ _ _ => true
  | .vsr _ _ _ _ _ _ => true
  | .vabsd _ _ _ _ _ _ => true
  | .vfadd _ _ _ _ _ _ => true
  | .vfsub _ _ _ _ _ _ => true
  | .vfmul _ _ _ _ _ _ => true
  | .vfmin _ _ _ _ _ _ => true
  | .vfmax _ _ _ _ _ _ => true
  | .vfma _ _ _ _ _ _ => true
  | .vfms _ _ _ _ _ _ => true
  | .vfnma _ _ _ _ _ _ => true
  | .vfabs _ _ _ _ => true
  | .vfneg _ _ _ _ => true
  | .vscacc _ _ _ _ => true
  | .vfdivF32 _ _ _ _ _ => true
  | .vfsqrtF32 _ _ _ _ => true
  | .vfdivBf16 _ _ _ _ _ => true
  | .vfsqrtBf16 _ _ _ _ => true
  | .vfdivF16 _ _ _ _ _ => true
  | .vfsqrtF16 _ _ _ _ => true
  | .vexp2 _ _ _ _ => true
  | .vlog2 _ _ _ _ => true
  | .vrcp _ _ _ _ => true
  | .vrsqrt _ _ _ _ => true
  | .vsqrt _ _ _ _ => true
  | .vtanh _ _ _ _ => true
  | .vsin _ _ _ _ => true
  | .vcos _ _ _ _ => true
  | .vcvt _ _ _ _ _ _ => true
  | .vtrans _ _ _ => true
  | .vperm _ _ _ _ => true
  | .vslideC _ _ _ _ => true
  | .vslideR _ _ _ _ => true
  | .vbcastR _ _ _ _ => true
  | .vbcastC _ _ _ _ => true
  | .vredsum _ _ _ _ _ => true
  | .vredmin _ _ _ _ _ => true
  | .vredmax _ _ _ _ _ => true
  | .vrand _ _ => true
  | .vrandf _ _ => true
  | .vcmp _ _ _ _ _ _ => true
  | .vsel _ _ _ _ => true
  | .vmv _ _ _ => true
  | .vgetx _ _ _ _ => true
  | .vsetx _ _ _ _ => true
  | .vbcx _ _ _ => true
  | .tshape _ _ _ => true
  | .give _ _ => true
  | .take _ _ => true
  | .mlease _ => true
  | .mfree => true
  | .cdopen _ _ => true
  | .cdclose => true
  | .cdabort => true
  | .qstat _ _ => true
  | _ => false

/-- Whether an instruction takes slot B: its major, or a slot A major that names a queue port (09 R188). -/
def slotB (i : Instr) : Bool := majorB i || (namesOf i).1.any (fun r => decide (28 ≤ r))

/-- Whether a tile instruction names a format other than FP32 (21 R470). -/
def otherFmt (i : Instr) : Bool :=
  match i with
  | .vadd _ _ _ _ _ _ => true
  | .vsub _ _ _ _ _ _ => true
  | .vmul _ _ _ _ _ _ => true
  | .vmulh _ _ _ _ _ _ => true
  | .vmin _ _ _ _ _ _ => true
  | .vmax _ _ _ _ _ _ => true
  | .vand _ _ _ _ _ _ => true
  | .vor _ _ _ _ _ _ => true
  | .vxor _ _ _ _ _ _ => true
  | .vsll _ _ _ _ _ _ => true
  | .vsr _ _ _ _ _ _ => true
  | .vabsd _ _ _ _ _ _ => true
  | .vfadd _ _ _ _ ty _ => ty != .f32
  | .vfsub _ _ _ _ ty _ => ty != .f32
  | .vfmul _ _ _ _ ty _ => ty != .f32
  | .vfmin _ _ _ _ ty _ => ty != .f32
  | .vfmax _ _ _ _ ty _ => ty != .f32
  | .vfma _ _ _ _ ty _ => ty != .f32
  | .vfms _ _ _ _ ty _ => ty != .f32
  | .vfnma _ _ _ _ ty _ => ty != .f32
  | .vfabs _ _ ty _ => ty != .f32
  | .vfneg _ _ ty _ => ty != .f32
  | .vfdivBf16 _ _ _ _ _ => true
  | .vfsqrtBf16 _ _ _ _ => true
  | .vfdivF16 _ _ _ _ _ => true
  | .vfsqrtF16 _ _ _ _ => true
  | .vcvt _ _ dst src _ _ => dst != .f32 || src != .f32
  | .vredsum _ _ _ fmt _ => fmt != .f32
  | .vredmin _ _ _ fmt _ => fmt != .f32
  | .vredmax _ _ _ fmt _ => fmt != .f32
  | .vcmp _ _ _ _ fmt _ => fmt != .f32
  | _ => false

/-- Whether a constructor is an event that the schedule may name. ILLEGAL_INSTRUCTION and FETCH_FAULT are no moves of their
own: the fetch raises them. -/
def isEvent (i : Instr) : Bool :=
  match i with
  | .nodeComplete _ _ => true
  | .mxTurnStart _ => true
  | .mxTurnTimeout _ => true
  | .taskPick _ => true
  | .steal _ => true
  | .coreSleepTimeout _ => true
  | .fifoAging _ => true
  | .messageArrival _ _ => true
  | .inboxHeldAction _ => true
  | .niResend _ _ => true
  | .remoteWordAccess _ => true
  | .trapAsync _ => true
  | .laResultArrive _ _ => true
  | .pageWalk _ _ _ => true
  | .ilApply _ => true
  | .scbDrainTimeout _ => true
  | .rpAgedWriteback _ => true
  | .remoteTxnFail _ _ => true
  | .rfmComplete _ _ => true
  | .refreshWindowEnd => true
  | .hbmScrub _ _ => true
  | .ceFilterClear => true
  | .fabricTxnArrive _ => true
  | .fabricAckReceive _ => true
  | .mapNackReceive _ _ => true
  | .rotorSlotBoundary _ _ => true
  | .wlRetrainDone _ _ _ => true
  | .fabricResendTimeout _ => true
  | .mapPrepare _ _ _ => true
  | .mapCommit _ => true
  | .dieLossVerdict _ => true
  | .voteTimeout _ => true
  | .cdRollback _ _ => true
  | .barNotifyArrive _ _ => true
  | .hqDoorbell _ _ => true
  | .hqctlWrite _ _ => true
  | .packetRead _ => true
  | .pktNop _ => true
  | .pktLaunch _ => true
  | .pktCopy _ => true
  | .pktSignal _ => true
  | .pktWait _ => true
  | .pktWaitPoll _ => true
  | .moduleLoad _ => true
  | .moduleUnload _ => true
  | .barnStart _ => true
  | .barnComplete _ _ => true
  | .preemptBatch _ => true
  | .preemptForce _ => true
  | .preemptResume _ => true
  | .hangDetect _ => true
  | .paddockWrite _ _ => true
  | .barrierDescriptorWrite _ _ _ => true
  | .vmrootWrite _ _ => true
  | .spcfgWrite _ _ => true
  | .splitChangeComplete _ => true
  | .migcfgFlush _ => true
  | .l2cfgWrite _ _ => true
  | .keycmdNone _ => true
  | .keycmdLoad _ => true
  | .keycmdErase _ => true
  | .ivsetWrite _ => true
  | .pvsetWrite _ => true
  | .ygsetWrite _ => true
  | .hdmcfgWrite _ => true
  | .dbgresumeGo _ => true
  | .registerWrite _ _ _ _ => true
  | .traceSample _ => true
  | .lifetimeUpdate => true
  | .ckptIntervalUpdate => true
  | .powerCapStep _ => true
  | .thermalShutdown => true
  | .coldReset _ => true
  | .coreReset _ => true
  | .fwMailboxLoad _ => true
  | .enterFullService => true
  | .l2ResizeComplete _ => true
  | .keyCommandComplete => true
  | .electricalPortDown _ => true
  | .electricalPortUp _ => true
  | .flitCheckFailure _ _ _ => true
  | .fibreLoss _ _ => true
  | .planeLoss _ => true
  | .moduleLossVerdict _ => true
  | .serviceProcessorFailure _ => true
  | .dieFailure _ => true
  | .linkTrainingDone => true
  | .hbmTrainingDone => true
  | .dieSelfTestDone => true
  | .hostMemoryAccess _ _ _ _ => true
  | .hostSnoop _ _ _ _ _ => true
  | .clockStepUp _ => true
  | _ => false

end Sys2Proof.Machine
end

