-- ==== Sys2Proof/Machine/Issue.lean ====
section
/-!
DEFINITION. What a core does at an instruction boundary: the faults and traps that come before the next instruction (18 R417,
R418, R422), fetch, the waits and checks at issue (09 R190, R198 to R200), and the pairing of a gang (08 R180).
-/

noncomputable section

namespace Sys2Proof.Machine

open Sys2Proof

/-- A pending asynchronous trap: the cause word with ASYNC and ENGINE, TVAL, and the core once it is taken (18 R417, R418,
R424). -/
structure Pending where
  causeW : Nat
  tval : Word
  rest : CoreSt

/-- The first pending asynchronous trap in the order of 18 R417; a fault on a spill access comes last (08 R170; log 29). -/
def pendingTrap (x : CoreSt) : Option Pending :=
  if x.stepPend then some ⟨2 ^ 63 + 0xA03, 0, { x with stepPend := false }⟩
  else if x.bkpPend then some ⟨2 ^ 63 + 0xA02, x.gtid, { x with bkpPend := false }⟩
  else
    match x.hangPend, x.trapQ, x.ovfPend with
    | some d, _, _ => some ⟨2 ^ 63 + 0x901, d, { x with hangPend := none }⟩
    | none, e :: rest, _ => some ⟨2 ^ 63 + 2 ^ 62 + e.cause % 2 ^ 12, wd e.node, { x with trapQ := rest }⟩
    | none, [], k :: rest => some ⟨2 ^ 63 + 0xA04, wd k, { x with ovfPend := rest }⟩
    | none, [], [] => if x.spillPend then some ⟨2 ^ 63 + 0x504, 0, { x with spillPend := false }⟩ else none

/-- Whether a core's stall can be abandoned (18 R418): the stalls of R409 with codes 1 to 8. Log 57, DEDUCED, unsafe. -/
def canAbandon (x : CoreSt) : Bool :=
  match x.stall with
  | none => true
  | some w => decide (1 ≤ w.what) && decide (w.what ≤ 8)

/-- Whether an instruction that stalled has its answer, so that it only has to complete. -/
def answered (x : CoreSt) : Bool :=
  (match x.sendReq with | .result _ => true | _ => false) || (match x.leaseReq with | .result _ => true | _ => false)

/-- Whether a core takes an asynchronous trap now (18 R418; 10 R242). Log 57, DEDUCED, unsafe. -/
def asyncReady (x : CoreSt) : Bool :=
  match x.run with
  | .running => (!(isSup x) || bit x.status.toNat 2) && canAbandon x && !(answered x) && !(windowAway x)
  | .idle => !x.picking
  | .reserved => !x.picking
  | .halted => bit x.status.toNat 2
  | .stopped => false

/-- A bar that has made its arrival leaves ARRIVED (18 R418). -/
def leaveArrived (c : Nat) (s : State) : State :=
  modCore c (fun x => if x.barArrived then { x with status := x.status ||| 0x80 } else x) s

/-- The fault that a window carries is taken at the boundary core c stands at (18 R422): the instruction that stalls there is
abandoned as by an asynchronous trap, for it executes again after eret. -/
def takeWindowFault (c : Nat) (s : State) : State :=
  if trapWaits (coreOf s c) then setStall c 12 0 s else takeTrap c 0 0 (coreOf s c).pc (abandon c (leaveArrived c s))

/-- An asynchronous trap is taken on core c (18 R415, R418): a stalled instruction is abandoned, a bar after its arrival
leaves ARRIVED, and a sleeping core leaves IDLE. -/
def takeAsync (c : Nat) (s : State) : State :=
  let x := coreOf s c
  match pendingTrap x with
  | none => s
  | some p =>
    if asyncReady x = false then s
    else if (windowFault x).isSome then takeWindowFault c s
    else
      let asleep := decide (x.run = .idle ∨ x.run = .reserved)
      let t := abandon c (leaveArrived c (setCore c { p.rest with status := x.status ||| (if asleep then 0x41 else 0) } s))
      enterTrap c p.causeW p.tval (if asleep then 0 else x.pc) t

/-- TRAP_ASYNC (18 R418). -/
def execTrapAsync (c : Nat) (s : State) : Host.Outcome State Fault Refusal := .next (takeAsync c s)

/-- ILLEGAL_INSTRUCTION (09 R190). -/
def execIllegalInstruction (cause : Nat) (tval : Word) (s : State) : Host.Outcome State Fault Refusal :=
  .next (takeTrap s.cur (cause % 256) tval (me s).pc s)

/-- FETCH_FAULT (04 R88). -/
def execFetchFault (cause : Nat) (tval : Word) (s : State) : Host.Outcome State Fault Refusal :=
  .next (takeTrap s.cur cause tval (me s).pc s)

/-- Whether a word of a tile major names a format other than FP32, whatever its other fields hold (21 R470; 13 R295 to R308). -/
def wordFmt (w : Nat) : Bool :=
  let m := bits w 6 2
  let f3 := bits w 14 12
  let f3b := bits w 27 25
  let other (c : Nat) : Bool := (Fmt.ofCode c).any (fun f => f != .f32)
  if m = 18 then true
  else if m = 19 then f3 == 1 || f3 == 2 || (f3 == 7 && decide (2 ≤ f3b) && decide (f3b ≤ 5))
  else if m = 20 then (f3 == 0 && (other (bits w 31 28) || other (bits w 23 20))) || (f3 == 2 && other (bits w 23 20))
  else m == 21 && f3 == 0 && (CmpFmt.ofCode f3b (bit w 31)).any (fun f => f != .f32)

/-- The detail of a word that decodes to no instruction (09 R190): in reduced service a format other than FP32 is 0x04 (21
R470), which comes before the details of its other fields. -/
def badDetail (d w : Nat) (s : State) : Nat :=
  if reducedService s && [0x05, 0x06, 0x12, 0x13].contains d && wordFmt w then 0x04 else d

/-- The details of class 0 that depend on the core's state and come before a lookahead violation (09 R190). Log 58, DEDUCED,
unsafe. -/
def earlyDetail (i : Instr) (s : State) : Bool :=
  (otherFmt i && reducedService s) ||
  (match i with
    | .csrrw _ _ n => (csrDetail n.val s.cur s).isSome
    | .csrrs _ _ n => (csrDetail n.val s.cur s).isSome
    | .csrrc _ _ n => (csrDetail n.val s.cur s).isSome
    | .csrrwi _ _ n => (csrDetail n.val s.cur s).isSome
    | .csrrsi _ _ n => (csrDetail n.val s.cur s).isSome
    | .csrrci _ _ n => (csrDetail n.val s.cur s).isSome
    | .eret => !(isSup (me s))
    | .halt => !(isSup (me s))
    | .tlblog _ _ _ _ => !(isSup (me s))
    | .tlblogw _ _ _ _ => !(isSup (me s))
    | _ => false)

/-- Ends the oldest window still counting (09 R198). -/
def endOldest : List Window → List Window
  | [] => []
  | w :: l => if w.remain = 0 then w :: endOldest l else { w with remain := 0 } :: l

/-- The windows for which the next instruction waits: those that have counted all their instructions (09 R199), and the
oldest of four when it would open a fifth (09 R198). -/
def dueWins (long : Bool) (ws : List Window) : List Window :=
  if long && decide (4 ≤ (ws.filter (fun w => decide (0 < w.remain))).length) then endOldest ws else ws

/-- A wait at issue for the result of a window (09 R199), as the wait table shows it (17 R409). Log 54, DEDUCED, unsafe. -/
def winWait (ws : List Window) : Option (Nat × Word) :=
  ws.findSome? (fun w =>
    if w.remain = 0 then
      (match w.st with
        | .waitTag _ _ va => some (1, wd va)
        | .waitTxn _ => some (12, 0)
        | _ => none)
    else none)

/-- The windows whose count is complete have their results, and close (09 R198). -/
def settleWins (x : CoreSt) : CoreSt :=
  let due (w : Window) : Bool := w.remain == 0 && (match w.st with | .flying => true | _ => false)
  let y := x.windows.foldl (fun y w => if due w then deliverWin w y else y) x
  closeWins { y with windows := y.windows.map (fun w => if due w then arrivedWin w else w) }

/-- The window that an instruction violates, by its instruction's address (09 R200). Log 59, DEDUCED, unsafe. -/
def violated (i : Instr) (ws : List Window) : Option Nat :=
  let n := namesOf i
  (ws.find? (fun w => w.dx.any (fun r => n.1.contains r) || w.dv.any (fun r => n.2.contains r))).map (fun w => w.pcw)

/-- Whether the task's innermost domain has a detected error and awaits its rollback, or has been killed (20 R454, R455). -/
def domHeld (s : State) (x : CoreSt) : Bool :=
  !(isSup x) && domainOf x != 0 &&
    (s.killed.contains (domainOf x) || s.doms.any (fun e => e.2.id == domainOf x && e.2.err.isSome))

/-- Whether the partners of a ganged core c can issue the slot B instruction that pairs with its next one, or have (08 R180).
Log 115, DEDUCED, unsafe. -/
def gangReady (s : State) (c : Nat) : Bool :=
  let x := coreOf s c
  (List.range 4).all (fun m =>
    let y := coreOf s (quadCore c m)
    quadCore c m == c || !y.ganged || y.gangCnt == x.gangCnt + 1 || (y.gangCnt == x.gangCnt && y.gangWait != 0))

/-- What a core does next: it has moved on, or instruction i executes in a state. -/
inductive Ready where
  | done (s : State)
  | run (i : Instr) (s : State)

/-- The checks and waits at issue of a decoded instruction (09 R190, R198 to R200). -/
def atIssue (i : Instr) (s : State) : Ready :=
  let c := s.cur
  let ws := dueWins (isLong i) (me s).windows
  match winWait ws with
  | some (what, v) => .done (setStallAs c what v (if (winWait (me s).windows).isSome then 0x80 else 0x81) s)
  | none =>
    let t := modCore c (fun x => settleWins { x with windows := ws }) s
    if earlyDetail i t then .run i t
    else
      match violated i (me t).windows with
      | some pcw => .run (.illegalInstruction 0x20 (wd pcw)) (if trapWaits (me t) then t else count 0x82 1 c t)
      | none => .run i t

/-- A core at an instruction boundary. Log 58, DEDUCED, unsafe. -/
def issueCore (s : State) : Ready :=
  let c := s.cur
  let x := me s
  let fetch (_ : Unit) : Ready :=
    match fetchInstr c x.pc.toNat s with
    | .error (.fetch k v) => .run (.fetchFault k v) s
    | .error (.bad d v) => .run (.illegalInstruction (badDetail d v.toNat s) v) s
    | .error (.wait t) => .done (setStall c 12 0 t)
    | .ok (i, _, t) => atIssue i t
  match x.run with
  | .running =>
    if answered x then fetch ()
    else if domHeld s x then .done (setStall c 12 0 s)
    else if spBusy s c then .done (setStall c 12 0 s)
    else if (windowFault x).isSome then .done (takeWindowFault c s)
    else if !(x.redo.isEmpty) || x.ereting then .done (reopenGo c s)
    else
      match x.steFault with
      | some (k, v) => .done (takeTrap c k v x.pc (clearStall c s))
      | none =>
        if (pendingTrap x).isSome && asyncReady x then .run (.trapAsync c) s
        else if (pendingTrap x).isSome && windowAway x && (!(isSup x) || bit x.status.toNat 2) && canAbandon x then .done s
        else fetch ()
  | .stopped => .done s
  | .halted => if (pendingTrap x).isSome && asyncReady x then .run (.trapAsync c) s else .done s
  | _ => if (pendingTrap x).isSome && asyncReady x then .run (.trapAsync c) s else .done s

/-- What an instruction i that a core executed in s, leaving t, comes to (08 R180): a ganged task's slot B instruction takes
effect once each partner can issue the one that pairs with it, and is then counted, while its partners still read the core's
registers as they were; before that the core waits, and t is not taken. One that stalls by itself is not ready for its
partners. Log 115, DEDUCED, unsafe. -/
def afterIssue (i : Instr) (s t : State) : State :=
  let c := s.cur
  let x := me s
  if x.ganged && slotB i && !(isSup x) then
    let y := coreOf t c
    if y.run = .running ∧ y.ganged = true ∧ y.stall = none ∧ isSup y = false then
      if gangReady s c then modCore c (fun z => { z with gangCnt := x.gangCnt + 1, gangWait := 0, prevTiles := x.tiles }) t
      else setStall c 12 0 (modCore c (fun z => { z with gangWait := 3 }) s)
    else modCore c (fun z => { z with gangWait := 0 }) t
  else t

end Sys2Proof.Machine

end
end

