-- ==== Sys2Proof/Machine/Sched.lean ====
section
/-!
DEFINITION. Who moves next: the schedule of moves in State, and what passes before each (log 4, log 14).
-/

noncomputable section

namespace Sys2Proof.Machine

open Sys2Proof

/-- The next move: the first of the schedule, or with an empty one the last core again, one cycle later. Log 4, DESIGN CHOICE,
unsafe. -/
def nextMove (s : State) : Move := s.sched.headD { ns := 0, cyc := 1, who := .core s.cur }

/-- The state in which the next move is made: time has passed, the pushes that wait for room have been tried (08 R169), and the
turns of the matrix arrays that have ended are marked (14 R321). Log 4, DESIGN CHOICE, unsafe. -/
def beforeMove (s : State) : State :=
  endTurns (retryAll (advance (nextMove s).ns (nextMove s).cyc { s with sched := s.sched.drop 1 }))

/-- What the next move is: nobody's, a state it leaves, an event, or an instruction that a core executes. -/
inductive Turned where
  | nobody
  | done (s : State)
  | event (i : Instr) (s : State)
  | run (i : Instr) (s : State)

/-- A core moves: it stands at an instruction boundary. -/
def coreMove (c : Nat) (s : State) : Turned :=
  if 1024 ≤ c then .nobody
  else
    match issueCore { s with cur := c } with
    | .done t => .done t
    | .run i t => .run i t

/-- The next move of the module. -/
def turn (s : State) : Turned :=
  match (nextMove s).who with
  | .core c => coreMove c (beforeMove s)
  | .engine cl n =>
    if 128 ≤ cl then .nobody
    else
      match AList.find? (clusterOf (beforeMove s) cl).nodes n with
      | none => .done (beforeMove s)
      | some d => .event d.cmd { beforeMove s with curNode := some (cl, n) }
  | .event e => if isEvent e then .event e (beforeMove s) else .nobody

/-! Placing an instruction for a run from any state (log 5). -/

/-- Core c as the sole runner of the word at its pc: in supervisor mode with translation off, at an address of HBM, with
nothing cached, open or waiting. -/
def readyCore (x : CoreSt) : CoreSt :=
  { x with
    run := .running, stall := none, status := 1, vmroot := 0, windows := [], redo := [], ereting := false, fbuf := [], i0 := [], scb := [], stepPend := false
    bkpPend := false, hangPend := none, trapQ := [], ovfPend := [], spillPend := false, steFault := none, sendReq := .none, leaseReq := .none
    spcfg := wd (bits x.spcfg.toNat 62 0), pc := wd (x.pc.toNat % 2 ^ 20 / 4 * 4), ganged := false }

/-- The bytes of an instruction word as the hardware stores them at an address: in little-endian order (09 R183), 8 bytes. -/
def placeBytes (pa w : Nat) (m : Memory) : Memory := Memory.writeN pa (w % 2 ^ 64) 8 m

/-- The state with a word placed where core 0 fetches its next instruction, and core 0 to move next. Log 5, DESIGN CHOICE,
unsafe. -/
def placeWord (w : Nat) (s : State) : State :=
  let x := readyCore (coreOf s 0)
  let pa := x.pc.toNat
  setCore 0 x
    { s with
      sched := [], cur := 0, mem := placeBytes pa w s.mem, poison := [], ivset := 0, pvset := 0, live := insertNat 0 s.live, dead := AList.del 0 s.dead
      keys := AList.put 0 1 s.keys
      lineKey := AList.del (pa / 128) (AList.del (pa / 128 + 1) s.lineKey)
      clusters := AList.put 0 { clusterOf s 0 with i1 := [] } s.clusters
      dies := AList.put 0 { dieOf s 0 with i2 := [], l2 := [], ceInj := [], ueInj := [], l2cfg := wd (bits (dieOf s 0).l2cfg.toNat 62 0) } s.dies }

end Sys2Proof.Machine

end
end

