-- ==== Sys2Proof/Machine/Dispatch.lean ====
section
/-!
DEFINITION. The meaning of every instruction, command and event: one arm per constructor of Instr.
-/

namespace Sys2Proof.Machine

-- The compiler of this Lean builds no value of a constructor numbered above 244, so exec is noncomputable; the kernel
-- evaluates it.
open Sys2Proof in /-- Runs an instruction, a command or an event. -/ noncomputable def exec (i : Instr) (s : State) : Host.Outcome State Fault Refusal :=
  match i with
  | .add rd rs1 rs2 => Sys2Proof.Machine.execAdd rd rs1 rs2 s
  | .sll rd rs1 rs2 => Sys2Proof.Machine.execSll rd rs1 rs2 s
  | .slt rd rs1 rs2 => Sys2Proof.Machine.execSlt rd rs1 rs2 s
  | .sltu rd rs1 rs2 => Sys2Proof.Machine.execSltu rd rs1 rs2 s
  | .xor rd rs1 rs2 => Sys2Proof.Machine.execXor rd rs1 rs2 s
  | .srl rd rs1 rs2 => Sys2Proof.Machine.execSrl rd rs1 rs2 s
  | .or rd rs1 rs2 => Sys2Proof.Machine.execOr rd rs1 rs2 s
  | .and rd rs1 rs2 => Sys2Proof.Machine.execAnd rd rs1 rs2 s
  | .sub rd rs1 rs2 => Sys2Proof.Machine.execSub rd rs1 rs2 s
  | .sra rd rs1 rs2 => Sys2Proof.Machine.execSra rd rs1 rs2 s
  | .mul rd rs1 rs2 => Sys2Proof.Machine.execMul rd rs1 rs2 s
  | .mulh rd rs1 rs2 => Sys2Proof.Machine.execMulh rd rs1 rs2 s
  | .mulhsu rd rs1 rs2 => Sys2Proof.Machine.execMulhsu rd rs1 rs2 s
  | .mulhu rd rs1 rs2 => Sys2Proof.Machine.execMulhu rd rs1 rs2 s
  | .addw rd rs1 rs2 => Sys2Proof.Machine.execAddw rd rs1 rs2 s
  | .subw rd rs1 rs2 => Sys2Proof.Machine.execSubw rd rs1 rs2 s
  | .sllw rd rs1 rs2 => Sys2Proof.Machine.execSllw rd rs1 rs2 s
  | .srlw rd rs1 rs2 => Sys2Proof.Machine.execSrlw rd rs1 rs2 s
  | .sraw rd rs1 rs2 => Sys2Proof.Machine.execSraw rd rs1 rs2 s
  | .mulw rd rs1 rs2 => Sys2Proof.Machine.execMulw rd rs1 rs2 s
  | .addi rd rs1 imm => Sys2Proof.Machine.execAddi rd rs1 imm s
  | .slti rd rs1 imm => Sys2Proof.Machine.execSlti rd rs1 imm s
  | .sltiu rd rs1 imm => Sys2Proof.Machine.execSltiu rd rs1 imm s
  | .xori rd rs1 imm => Sys2Proof.Machine.execXori rd rs1 imm s
  | .ori rd rs1 imm => Sys2Proof.Machine.execOri rd rs1 imm s
  | .andi rd rs1 imm => Sys2Proof.Machine.execAndi rd rs1 imm s
  | .slli rd rs1 sh => Sys2Proof.Machine.execSlli rd rs1 sh s
  | .srli rd rs1 sh => Sys2Proof.Machine.execSrli rd rs1 sh s
  | .srai rd rs1 sh => Sys2Proof.Machine.execSrai rd rs1 sh s
  | .addiw rd rs1 imm => Sys2Proof.Machine.execAddiw rd rs1 imm s
  | .slliw rd rs1 sh => Sys2Proof.Machine.execSlliw rd rs1 sh s
  | .srliw rd rs1 sh => Sys2Proof.Machine.execSrliw rd rs1 sh s
  | .sraiw rd rs1 sh => Sys2Proof.Machine.execSraiw rd rs1 sh s
  | .lui rd imm => Sys2Proof.Machine.execLui rd imm s
  | .auipc rd imm => Sys2Proof.Machine.execAuipc rd imm s
  | .div rd rs1 rs2 la => Sys2Proof.Machine.execDiv rd rs1 rs2 la s
  | .divu rd rs1 rs2 la => Sys2Proof.Machine.execDivu rd rs1 rs2 la s
  | .rem rd rs1 rs2 la => Sys2Proof.Machine.execRem rd rs1 rs2 la s
  | .remu rd rs1 rs2 la => Sys2Proof.Machine.execRemu rd rs1 rs2 la s
  | .divw rd rs1 rs2 la => Sys2Proof.Machine.execDivw rd rs1 rs2 la s
  | .divuw rd rs1 rs2 la => Sys2Proof.Machine.execDivuw rd rs1 rs2 la s
  | .remw rd rs1 rs2 la => Sys2Proof.Machine.execRemw rd rs1 rs2 la s
  | .remuw rd rs1 rs2 la => Sys2Proof.Machine.execRemuw rd rs1 rs2 la s
  | .andn rd rs1 rs2 => Sys2Proof.Machine.execAndn rd rs1 rs2 s
  | .orn rd rs1 rs2 => Sys2Proof.Machine.execOrn rd rs1 rs2 s
  | .min rd rs1 rs2 => Sys2Proof.Machine.execMin rd rs1 rs2 s
  | .max rd rs1 rs2 => Sys2Proof.Machine.execMax rd rs1 rs2 s
  | .minu rd rs1 rs2 => Sys2Proof.Machine.execMinu rd rs1 rs2 s
  | .maxu rd rs1 rs2 => Sys2Proof.Machine.execMaxu rd rs1 rs2 s
  | .rol rd rs1 rs2 => Sys2Proof.Machine.execRol rd rs1 rs2 s
  | .ror rd rs1 rs2 => Sys2Proof.Machine.execRor rd rs1 rs2 s
  | .clmul rd rs1 rs2 => Sys2Proof.Machine.execClmul rd rs1 rs2 s
  | .clmulh rd rs1 rs2 => Sys2Proof.Machine.execClmulh rd rs1 rs2 s
  | .clmulr rd rs1 rs2 => Sys2Proof.Machine.execClmulr rd rs1 rs2 s
  | .bext rd rs1 rs2 => Sys2Proof.Machine.execBext rd rs1 rs2 s
  | .bdep rd rs1 rs2 => Sys2Proof.Machine.execBdep rd rs1 rs2 s
  | .clz rd rs1 => Sys2Proof.Machine.execClz rd rs1 s
  | .ctz rd rs1 => Sys2Proof.Machine.execCtz rd rs1 s
  | .popc rd rs1 => Sys2Proof.Machine.execPopc rd rs1 s
  | .brev rd rs1 => Sys2Proof.Machine.execBrev rd rs1 s
  | .bswap rd rs1 => Sys2Proof.Machine.execBswap rd rs1 s
  | .sextB rd rs1 => Sys2Proof.Machine.execSextB rd rs1 s
  | .sextH rd rs1 => Sys2Proof.Machine.execSextH rd rs1 s
  | .sextW rd rs1 => Sys2Proof.Machine.execSextW rd rs1 s
  | .zextB rd rs1 => Sys2Proof.Machine.execZextB rd rs1 s
  | .zextH rd rs1 => Sys2Proof.Machine.execZextH rd rs1 s
  | .zextW rd rs1 => Sys2Proof.Machine.execZextW rd rs1 s
  | .rori rd rs1 sh => Sys2Proof.Machine.execRori rd rs1 sh s
  | .modp rd rs1 c => Sys2Proof.Machine.execModp rd rs1 c s
  | .beq rs1 rs2 off => Sys2Proof.Machine.execBeq rs1 rs2 off s
  | .bne rs1 rs2 off => Sys2Proof.Machine.execBne rs1 rs2 off s
  | .bbs rs1 rs2 off => Sys2Proof.Machine.execBbs rs1 rs2 off s
  | .bbc rs1 rs2 off => Sys2Proof.Machine.execBbc rs1 rs2 off s
  | .blt rs1 rs2 off => Sys2Proof.Machine.execBlt rs1 rs2 off s
  | .bge rs1 rs2 off => Sys2Proof.Machine.execBge rs1 rs2 off s
  | .bltu rs1 rs2 off => Sys2Proof.Machine.execBltu rs1 rs2 off s
  | .bgeu rs1 rs2 off => Sys2Proof.Machine.execBgeu rs1 rs2 off s
  | .jal rd off => Sys2Proof.Machine.execJal rd off s
  | .jalr rd rs1 imm => Sys2Proof.Machine.execJalr rd rs1 imm s
  | .jalp rd rs1 => Sys2Proof.Machine.execJalp rd rs1 s
  | .faddS rd rs1 rs2 rm => Sys2Proof.Machine.execFaddS rd rs1 rs2 rm s
  | .fsubS rd rs1 rs2 rm => Sys2Proof.Machine.execFsubS rd rs1 rs2 rm s
  | .fmulS rd rs1 rs2 rm => Sys2Proof.Machine.execFmulS rd rs1 rs2 rm s
  | .fminS rd rs1 rs2 => Sys2Proof.Machine.execFminS rd rs1 rs2 s
  | .fmaxS rd rs1 rs2 => Sys2Proof.Machine.execFmaxS rd rs1 rs2 s
  | .fsgnjS rd rs1 rs2 => Sys2Proof.Machine.execFsgnjS rd rs1 rs2 s
  | .fsgnjnS rd rs1 rs2 => Sys2Proof.Machine.execFsgnjnS rd rs1 rs2 s
  | .fsgnjxS rd rs1 rs2 => Sys2Proof.Machine.execFsgnjxS rd rs1 rs2 s
  | .fleS rd rs1 rs2 => Sys2Proof.Machine.execFleS rd rs1 rs2 s
  | .fltS rd rs1 rs2 => Sys2Proof.Machine.execFltS rd rs1 rs2 s
  | .feqS rd rs1 rs2 => Sys2Proof.Machine.execFeqS rd rs1 rs2 s
  | .fclassS rd rs1 => Sys2Proof.Machine.execFclassS rd rs1 s
  | .fcvtWS rd rs1 rm => Sys2Proof.Machine.execFcvtWS rd rs1 rm s
  | .fcvtWuS rd rs1 rm => Sys2Proof.Machine.execFcvtWuS rd rs1 rm s
  | .fcvtLS rd rs1 rm => Sys2Proof.Machine.execFcvtLS rd rs1 rm s
  | .fcvtLuS rd rs1 rm => Sys2Proof.Machine.execFcvtLuS rd rs1 rm s
  | .fcvtSW rd rs1 rm => Sys2Proof.Machine.execFcvtSW rd rs1 rm s
  | .fcvtSWu rd rs1 rm => Sys2Proof.Machine.execFcvtSWu rd rs1 rm s
  | .fcvtSL rd rs1 rm => Sys2Proof.Machine.execFcvtSL rd rs1 rm s
  | .fcvtSLu rd rs1 rm => Sys2Proof.Machine.execFcvtSLu rd rs1 rm s
  | .fdivS rd rs1 rs2 rm la => Sys2Proof.Machine.execFdivS rd rs1 rs2 rm la s
  | .fsqrtS rd rs1 rm la => Sys2Proof.Machine.execFsqrtS rd rs1 rm la s
  | .fmaddS rd rs1 rs2 rs3 rm => Sys2Proof.Machine.execFmaddS rd rs1 rs2 rs3 rm s
  | .fmsubS rd rs1 rs2 rs3 rm => Sys2Proof.Machine.execFmsubS rd rs1 rs2 rs3 rm s
  | .fnmsubS rd rs1 rs2 rs3 rm => Sys2Proof.Machine.execFnmsubS rd rs1 rs2 rs3 rm s
  | .fnmaddS rd rs1 rs2 rs3 rm => Sys2Proof.Machine.execFnmaddS rd rs1 rs2 rs3 rm s
  | .csrrw rd rs1 csr => Sys2Proof.Machine.execCsrrw rd rs1 csr s
  | .csrrs rd rs1 csr => Sys2Proof.Machine.execCsrrs rd rs1 csr s
  | .csrrc rd rs1 csr => Sys2Proof.Machine.execCsrrc rd rs1 csr s
  | .csrrwi rd u csr => Sys2Proof.Machine.execCsrrwi rd u csr s
  | .csrrsi rd u csr => Sys2Proof.Machine.execCsrrsi rd u csr s
  | .csrrci rd u csr => Sys2Proof.Machine.execCsrrci rd u csr s
  | .trap imm => Sys2Proof.Machine.execTrap imm s
  | .eret => Sys2Proof.Machine.execEret s
  | .halt => Sys2Proof.Machine.execHalt s
  | .brk => Sys2Proof.Machine.execBrk s
  | .lb rd rs1 imm la => Sys2Proof.Machine.execLb rd rs1 imm la s
  | .lh rd rs1 imm la => Sys2Proof.Machine.execLh rd rs1 imm la s
  | .lw rd rs1 imm la => Sys2Proof.Machine.execLw rd rs1 imm la s
  | .ld rd rs1 imm la => Sys2Proof.Machine.execLd rd rs1 imm la s
  | .lbu rd rs1 imm la => Sys2Proof.Machine.execLbu rd rs1 imm la s
  | .lhu rd rs1 imm la => Sys2Proof.Machine.execLhu rd rs1 imm la s
  | .lwu rd rs1 imm la => Sys2Proof.Machine.execLwu rd rs1 imm la s
  | .loadAcquire rd rs1 size sc la => Sys2Proof.Machine.execLoadAcquire rd rs1 size sc la s
  | .sb rs2 rs1 imm => Sys2Proof.Machine.execSb rs2 rs1 imm s
  | .sh rs2 rs1 imm => Sys2Proof.Machine.execSh rs2 rs1 imm s
  | .sw rs2 rs1 imm => Sys2Proof.Machine.execSw rs2 rs1 imm s
  | .sd rs2 rs1 imm => Sys2Proof.Machine.execSd rs2 rs1 imm s
  | .storeRelease rs2 rs1 size sc => Sys2Proof.Machine.execStoreRelease rs2 rs1 size sc s
  | .vld vd rs1 imm la pfx => Sys2Proof.Machine.execVld vd rs1 imm la pfx s
  | .vldb vd rs1 imm la pfx => Sys2Proof.Machine.execVldb vd rs1 imm la pfx s
  | .vlds vd rs1 rs2 la pfx => Sys2Proof.Machine.execVlds vd rs1 rs2 la pfx s
  | .vldg vd rs1 vs2 la pfx => Sys2Proof.Machine.execVldg vd rs1 vs2 la pfx s
  | .vst vs rs1 imm pfx => Sys2Proof.Machine.execVst vs rs1 imm pfx s
  | .vsts vs rs1 rs2 pfx => Sys2Proof.Machine.execVsts vs rs1 rs2 pfx s
  | .vstg vs rs1 vs2 pfx => Sys2Proof.Machine.execVstg vs rs1 vs2 pfx s
  | .ldfE rd rs1 imm la => Sys2Proof.Machine.execLdfE rd rs1 imm la s
  | .ldfF rd rs1 imm la => Sys2Proof.Machine.execLdfF rd rs1 imm la s
  | .ste rs2 rs1 imm => Sys2Proof.Machine.execSte rs2 rs1 imm s
  | .stf rs2 rs1 imm => Sys2Proof.Machine.execStf rs2 rs1 imm s
  | .fetag rd rs1 imm => Sys2Proof.Machine.execFetag rd rs1 imm s
  | .fsetE rs1 imm => Sys2Proof.Machine.execFsetE rs1 imm s
  | .fsetF rs1 imm => Sys2Proof.Machine.execFsetF rs1 imm s
  | .amoswap rd rs1 dbl aq rl sc la => Sys2Proof.Machine.execAmoswap rd rs1 dbl aq rl sc la s
  | .amoadd rd rs1 dbl aq rl sc la => Sys2Proof.Machine.execAmoadd rd rs1 dbl aq rl sc la s
  | .amoand rd rs1 dbl aq rl sc la => Sys2Proof.Machine.execAmoand rd rs1 dbl aq rl sc la s
  | .amoor rd rs1 dbl aq rl sc la => Sys2Proof.Machine.execAmoor rd rs1 dbl aq rl sc la s
  | .amoxor rd rs1 dbl aq rl sc la => Sys2Proof.Machine.execAmoxor rd rs1 dbl aq rl sc la s
  | .amomin rd rs1 dbl aq rl sc la => Sys2Proof.Machine.execAmomin rd rs1 dbl aq rl sc la s
  | .amomax rd rs1 dbl aq rl sc la => Sys2Proof.Machine.execAmomax rd rs1 dbl aq rl sc la s
  | .amominu rd rs1 dbl aq rl sc la => Sys2Proof.Machine.execAmominu rd rs1 dbl aq rl sc la s
  | .amomaxu rd rs1 dbl aq rl sc la => Sys2Proof.Machine.execAmomaxu rd rs1 dbl aq rl sc la s
  | .amofadd rd rs1 aq rl sc la => Sys2Proof.Machine.execAmofadd rd rs1 aq rl sc la s
  | .amocas rd rs1 dbl aq rl sc la => Sys2Proof.Machine.execAmocas rd rs1 dbl aq rl sc la s
  | .lr rd rs1 dbl aq sc la => Sys2Proof.Machine.execLr rd rs1 dbl aq sc la s
  | .sc rd rs1 dbl rl sc la => Sys2Proof.Machine.execSc rd rs1 dbl rl sc la s
  | .redadd rs2 rs1 dbl => Sys2Proof.Machine.execRedadd rs2 rs1 dbl s
  | .redand rs2 rs1 dbl => Sys2Proof.Machine.execRedand rs2 rs1 dbl s
  | .redor rs2 rs1 dbl => Sys2Proof.Machine.execRedor rs2 rs1 dbl s
  | .redxor rs2 rs1 dbl => Sys2Proof.Machine.execRedxor rs2 rs1 dbl s
  | .redmin rs2 rs1 dbl => Sys2Proof.Machine.execRedmin rs2 rs1 dbl s
  | .redmax rs2 rs1 dbl => Sys2Proof.Machine.execRedmax rs2 rs1 dbl s
  | .redminu rs2 rs1 dbl => Sys2Proof.Machine.execRedminu rs2 rs1 dbl s
  | .redmaxu rs2 rs1 dbl => Sys2Proof.Machine.execRedmaxu rs2 rs1 dbl s
  | .redfadd rs2 rs1 => Sys2Proof.Machine.execRedfadd rs2 rs1 s
  | .fence pred succ sc => Sys2Proof.Machine.execFence pred succ sc s
  | .ifence => Sys2Proof.Machine.execIfence s
  | .codeinv rs1 rs2 sc => Sys2Proof.Machine.execCodeinv rs1 rs2 sc s
  | .ipref rs2 rs1 => Sys2Proof.Machine.execIpref rs2 rs1 s
  | .dpref rs1 imm => Sys2Proof.Machine.execDpref rs1 imm s
  | .tlblog rd rs1 rs2 die => Sys2Proof.Machine.execTlblog rd rs1 rs2 die s
  | .tlblogw rd rs1 rs2 die => Sys2Proof.Machine.execTlblogw rd rs1 rs2 die s
  | .vadd vd vs1 src2 x ty pfx => Sys2Proof.Machine.execVadd vd vs1 src2 x ty pfx s
  | .vsub vd vs1 src2 x ty pfx => Sys2Proof.Machine.execVsub vd vs1 src2 x ty pfx s
  | .vmul vd vs1 src2 x ty pfx => Sys2Proof.Machine.execVmul vd vs1 src2 x ty pfx s
  | .vmulh vd vs1 src2 x ty pfx => Sys2Proof.Machine.execVmulh vd vs1 src2 x ty pfx s
  | .vmin vd vs1 src2 x ty pfx => Sys2Proof.Machine.execVmin vd vs1 src2 x ty pfx s
  | .vmax vd vs1 src2 x ty pfx => Sys2Proof.Machine.execVmax vd vs1 src2 x ty pfx s
  | .vand vd vs1 src2 x ty pfx => Sys2Proof.Machine.execVand vd vs1 src2 x ty pfx s
  | .vor vd vs1 src2 x ty pfx => Sys2Proof.Machine.execVor vd vs1 src2 x ty pfx s
  | .vxor vd vs1 src2 x ty pfx => Sys2Proof.Machine.execVxor vd vs1 src2 x ty pfx s
  | .vsll vd vs1 src2 x ty pfx => Sys2Proof.Machine.execVsll vd vs1 src2 x ty pfx s
  | .vsr vd vs1 src2 x ty pfx => Sys2Proof.Machine.execVsr vd vs1 src2 x ty pfx s
  | .vabsd vd vs1 src2 x ty pfx => Sys2Proof.Machine.execVabsd vd vs1 src2 x ty pfx s
  | .vfadd vd vs1 src2 x ty pfx => Sys2Proof.Machine.execVfadd vd vs1 src2 x ty pfx s
  | .vfsub vd vs1 src2 x ty pfx => Sys2Proof.Machine.execVfsub vd vs1 src2 x ty pfx s
  | .vfmul vd vs1 src2 x ty pfx => Sys2Proof.Machine.execVfmul vd vs1 src2 x ty pfx s
  | .vfmin vd vs1 src2 x ty pfx => Sys2Proof.Machine.execVfmin vd vs1 src2 x ty pfx s
  | .vfmax vd vs1 src2 x ty pfx => Sys2Proof.Machine.execVfmax vd vs1 src2 x ty pfx s
  | .vfma vd vs1 src2 x ty pfx => Sys2Proof.Machine.execVfma vd vs1 src2 x ty pfx s
  | .vfms vd vs1 src2 x ty pfx => Sys2Proof.Machine.execVfms vd vs1 src2 x ty pfx s
  | .vfnma vd vs1 src2 x ty pfx => Sys2Proof.Machine.execVfnma vd vs1 src2 x ty pfx s
  | .vfabs vd vs1 ty pfx => Sys2Proof.Machine.execVfabs vd vs1 ty pfx s
  | .vfneg vd vs1 ty pfx => Sys2Proof.Machine.execVfneg vd vs1 ty pfx s
  | .vscacc vd vs1 vs2 pfx => Sys2Proof.Machine.execVscacc vd vs1 vs2 pfx s
  | .vfdivF32 vd vs1 vs2 la pfx => Sys2Proof.Machine.execVfdivF32 vd vs1 vs2 la pfx s
  | .vfsqrtF32 vd vs1 la pfx => Sys2Proof.Machine.execVfsqrtF32 vd vs1 la pfx s
  | .vfdivBf16 vd vs1 vs2 la pfx => Sys2Proof.Machine.execVfdivBf16 vd vs1 vs2 la pfx s
  | .vfsqrtBf16 vd vs1 la pfx => Sys2Proof.Machine.execVfsqrtBf16 vd vs1 la pfx s
  | .vfdivF16 vd vs1 vs2 la pfx => Sys2Proof.Machine.execVfdivF16 vd vs1 vs2 la pfx s
  | .vfsqrtF16 vd vs1 la pfx => Sys2Proof.Machine.execVfsqrtF16 vd vs1 la pfx s
  | .vexp2 vd vs1 la pfx => Sys2Proof.Machine.execVexp2 vd vs1 la pfx s
  | .vlog2 vd vs1 la pfx => Sys2Proof.Machine.execVlog2 vd vs1 la pfx s
  | .vrcp vd vs1 la pfx => Sys2Proof.Machine.execVrcp vd vs1 la pfx s
  | .vrsqrt vd vs1 la pfx => Sys2Proof.Machine.execVrsqrt vd vs1 la pfx s
  | .vsqrt vd vs1 la pfx => Sys2Proof.Machine.execVsqrt vd vs1 la pfx s
  | .vtanh vd vs1 la pfx => Sys2Proof.Machine.execVtanh vd vs1 la pfx s
  | .vsin vd vs1 la pfx => Sys2Proof.Machine.execVsin vd vs1 la pfx s
  | .vcos vd vs1 la pfx => Sys2Proof.Machine.execVcos vd vs1 la pfx s
  | .vcvt vd vs1 dst src part pfx => Sys2Proof.Machine.execVcvt vd vs1 dst src part pfx s
  | .vtrans vd vs1 pfx => Sys2Proof.Machine.execVtrans vd vs1 pfx s
  | .vperm vd vs1 vs2 pfx => Sys2Proof.Machine.execVperm vd vs1 vs2 pfx s
  | .vslideC vd vs1 xs pfx => Sys2Proof.Machine.execVslideC vd vs1 xs pfx s
  | .vslideR vd vs1 xs pfx => Sys2Proof.Machine.execVslideR vd vs1 xs pfx s
  | .vbcastR vd vs1 xs pfx => Sys2Proof.Machine.execVbcastR vd vs1 xs pfx s
  | .vbcastC vd vs1 xs pfx => Sys2Proof.Machine.execVbcastC vd vs1 xs pfx s
  | .vredsum vd vs1 col fmt pfx => Sys2Proof.Machine.execVredsum vd vs1 col fmt pfx s
  | .vredmin vd vs1 col fmt pfx => Sys2Proof.Machine.execVredmin vd vs1 col fmt pfx s
  | .vredmax vd vs1 col fmt pfx => Sys2Proof.Machine.execVredmax vd vs1 col fmt pfx s
  | .vrand vd pfx => Sys2Proof.Machine.execVrand vd pfx s
  | .vrandf vd pfx => Sys2Proof.Machine.execVrandf vd pfx s
  | .vcmp xd vs1 vs2 cond fmt pfx => Sys2Proof.Machine.execVcmp xd vs1 vs2 cond fmt pfx s
  | .vsel vd vs1 vs2 pfx => Sys2Proof.Machine.execVsel vd vs1 vs2 pfx s
  | .vmv vd vs1 pfx => Sys2Proof.Machine.execVmv vd vs1 pfx s
  | .vgetx xd vs1 xs pfx => Sys2Proof.Machine.execVgetx xd vs1 xs pfx s
  | .vsetx vd xa xs pfx => Sys2Proof.Machine.execVsetx vd xa xs pfx s
  | .vbcx vd xa pfx => Sys2Proof.Machine.execVbcx vd xa pfx s
  | .tshape rows cols pfx => Sys2Proof.Machine.execTshape rows cols pfx s
  | .yield => Sys2Proof.Machine.execYield s
  | .suspend rs1 => Sys2Proof.Machine.execSuspend rs1 s
  | .exit => Sys2Proof.Machine.execExit s
  | .join rs1 => Sys2Proof.Machine.execJoin rs1 s
  | .spawnl rd rs1 rs2 => Sys2Proof.Machine.execSpawnl rd rs1 rs2 s
  | .gang => Sys2Proof.Machine.execGang s
  | .ungang => Sys2Proof.Machine.execUngang s
  | .fork xs xj off => Sys2Proof.Machine.execFork xs xj off s
  | .spawn rs1 prio => Sys2Proof.Machine.execSpawn rs1 prio s
  | .spawnN rs1 prio => Sys2Proof.Machine.execSpawnN rs1 prio s
  | .send rd rs1 rs2 n sc => Sys2Proof.Machine.execSend rd rs1 rs2 n sc s
  | .sendp rd rs1 rs2 n sc => Sys2Proof.Machine.execSendp rd rs1 rs2 n sc s
  | .tagen rd rs1 => Sys2Proof.Machine.execTagen rd rs1 s
  | .tagdis rd rs1 => Sys2Proof.Machine.execTagdis rd rs1 s
  | .tagset rd rs1 => Sys2Proof.Machine.execTagset rd rs1 s
  | .tagclr rd rs1 => Sys2Proof.Machine.execTagclr rd rs1 s
  | .tagq rd rs1 => Sys2Proof.Machine.execTagq rd rs1 s
  | .tagw rs1 rs2 xc => Sys2Proof.Machine.execTagw rs1 rs2 xc s
  | .wait rs1 grp => Sys2Proof.Machine.execWait rs1 grp s
  | .bara d => Sys2Proof.Machine.execBara d s
  | .barw d => Sys2Proof.Machine.execBarw d s
  | .bar d => Sys2Proof.Machine.execBar d s
  | .give rs1 cnt => Sys2Proof.Machine.execGive rs1 cnt s
  | .take rs1 cnt => Sys2Proof.Machine.execTake rs1 cnt s
  | .mlease rs1 => Sys2Proof.Machine.execMlease rs1 s
  | .mfree => Sys2Proof.Machine.execMfree s
  | .cdopen rd rs1 => Sys2Proof.Machine.execCdopen rd rs1 s
  | .cdclose => Sys2Proof.Machine.execCdclose s
  | .cdabort => Sys2Proof.Machine.execCdabort s
  | .qstat rd p => Sys2Proof.Machine.execQstat rd p s
  | .mxZero h negz acls => Sys2Proof.Machine.execMxZero h negz acls s
  | .mxLdb h ld => Sys2Proof.Machine.execMxLdb h ld s
  | .mxGatha h ld icore ioff => Sys2Proof.Machine.execMxGatha h ld icore ioff s
  | .mxDensa h ld => Sys2Proof.Machine.execMxDensa h ld s
  | .mxCsrb h rowptr colidx vals kcnt koff bank fmt => Sys2Proof.Machine.execMxCsrb h rowptr colidx vals kcnt koff bank fmt s
  | .mxRun h kcnt koff abank bbank m n => Sys2Proof.Machine.execMxRun h kcnt koff abank bbank m n s
  | .mxDrain h dr => Sys2Proof.Machine.execMxDrain h dr s
  | .mxStat h clr core off => Sys2Proof.Machine.execMxStat h clr core off s
  | .cpG2s h va sp => Sys2Proof.Machine.execCpG2s h va sp s
  | .cpS2g h va sp => Sys2Proof.Machine.execCpS2g h va sp s
  | .cpS2s h sp ddie dclus dcore doff => Sys2Proof.Machine.execCpS2s h sp ddie dclus dcore doff s
  | .cp2d h va dir sp gstride sstride rows => Sys2Proof.Machine.execCp2d h va dir sp gstride sstride rows s
  | .cpGath h va sp icore ioff cnt => Sys2Proof.Machine.execCpGath h va sp icore ioff cnt s
  | .cpRget h va sp planes path => Sys2Proof.Machine.execCpRget h va sp planes path s
  | .cpRput h va sp planes path => Sys2Proof.Machine.execCpRput h va sp planes path s
  | .cpRred h va sp planes path op dbl => Sys2Proof.Machine.execCpRred h va sp planes path op dbl s
  | .cpCk h src dst len => Sys2Proof.Machine.execCpCk h src dst len s
  | .cpNop h => Sys2Proof.Machine.execCpNop h s
  | .hgCount h core off cnt => Sys2Proof.Machine.execHgCount h core off cnt s
  | .hgLatch h first n clr wr base core off => Sys2Proof.Machine.execHgLatch h first n clr wr base core off s
  | .hgClear h => Sys2Proof.Machine.execHgClear h s
  | .bdGath h src dst icore ioff cnt rowu stack => Sys2Proof.Machine.execBdGath h src dst icore ioff cnt rowu stack s
  | .bdRed h src dst n vstr ecnt fmt rm sat stack => Sys2Proof.Machine.execBdRed h src dst n vstr ecnt fmt rm sat stack s
  | .bdCvt h src dst sfmt dfmt rm sat ecnt stack => Sys2Proof.Machine.execBdCvt h src dst sfmt dfmt rm sat ecnt stack s
  | .bdCopy h src dst len stack => Sys2Proof.Machine.execBdCopy h src dst len stack s
  | .nodeComplete cl node => Sys2Proof.Machine.execNodeComplete cl node s
  | .mxTurnStart cl => Sys2Proof.Machine.execMxTurnStart cl s
  | .mxTurnTimeout cl => Sys2Proof.Machine.execMxTurnTimeout cl s
  | .taskPick c => Sys2Proof.Machine.execTaskPick c s
  | .steal c => Sys2Proof.Machine.execSteal c s
  | .coreSleepTimeout c => Sys2Proof.Machine.execCoreSleepTimeout c s
  | .fifoAging c => Sys2Proof.Machine.execFifoAging c s
  | .messageArrival cl k => Sys2Proof.Machine.execMessageArrival cl k s
  | .inboxHeldAction c => Sys2Proof.Machine.execInboxHeldAction c s
  | .niResend cl k => Sys2Proof.Machine.execNiResend cl k s
  | .remoteWordAccess c => Sys2Proof.Machine.execRemoteWordAccess c s
  | .trapAsync c => Sys2Proof.Machine.execTrapAsync c s
  | .laResultArrive c k => Sys2Proof.Machine.execLaResultArrive c k s
  | .pageWalk c va acc => Sys2Proof.Machine.execPageWalk c va acc s
  | .ilApply d => Sys2Proof.Machine.execIlApply d s
  | .scbDrainTimeout c => Sys2Proof.Machine.execScbDrainTimeout c s
  | .rpAgedWriteback d => Sys2Proof.Machine.execRpAgedWriteback d s
  | .remoteTxnFail k cause => Sys2Proof.Machine.execRemoteTxnFail k cause s
  | .rfmComplete d bank => Sys2Proof.Machine.execRfmComplete d bank s
  | .refreshWindowEnd => Sys2Proof.Machine.execRefreshWindowEnd s
  | .hbmScrub d line => Sys2Proof.Machine.execHbmScrub d line s
  | .ceFilterClear => Sys2Proof.Machine.execCeFilterClear s
  | .fabricTxnArrive k => Sys2Proof.Machine.execFabricTxnArrive k s
  | .fabricAckReceive k => Sys2Proof.Machine.execFabricAckReceive k s
  | .mapNackReceive cl k => Sys2Proof.Machine.execMapNackReceive cl k s
  | .rotorSlotBoundary plane seen => Sys2Proof.Machine.execRotorSlotBoundary plane seen s
  | .wlRetrainDone plane fibre wl => Sys2Proof.Machine.execWlRetrainDone plane fibre wl s
  | .fabricResendTimeout k => Sys2Proof.Machine.execFabricResendTimeout k s
  | .mapPrepare cl e v => Sys2Proof.Machine.execMapPrepare cl e v s
  | .mapCommit cl => Sys2Proof.Machine.execMapCommit cl s
  | .dieLossVerdict d => Sys2Proof.Machine.execDieLossVerdict d s
  | .voteTimeout d => Sys2Proof.Machine.execVoteTimeout d s
  | .cdRollback dom cause => Sys2Proof.Machine.execCdRollback dom cause s
  | .barNotifyArrive cl k => Sys2Proof.Machine.execBarNotifyArrive cl k s
  | .hqDoorbell q v => Sys2Proof.Machine.execHqDoorbell q v s
  | .hqctlWrite q v => Sys2Proof.Machine.execHqctlWrite q v s
  | .packetRead q => Sys2Proof.Machine.execPacketRead q s
  | .pktNop q => Sys2Proof.Machine.execPktNop q s
  | .pktLaunch q => Sys2Proof.Machine.execPktLaunch q s
  | .pktCopy q => Sys2Proof.Machine.execPktCopy q s
  | .pktSignal q => Sys2Proof.Machine.execPktSignal q s
  | .pktWait q => Sys2Proof.Machine.execPktWait q s
  | .pktWaitPoll q => Sys2Proof.Machine.execPktWaitPoll q s
  | .moduleLoad q => Sys2Proof.Machine.execModuleLoad q s
  | .moduleUnload q => Sys2Proof.Machine.execModuleUnload q s
  | .barnStart q => Sys2Proof.Machine.execBarnStart q s
  | .barnComplete q seq => Sys2Proof.Machine.execBarnComplete q seq s
  | .preemptBatch t => Sys2Proof.Machine.execPreemptBatch t s
  | .preemptForce t => Sys2Proof.Machine.execPreemptForce t s
  | .preemptResume t => Sys2Proof.Machine.execPreemptResume t s
  | .hangDetect q => Sys2Proof.Machine.execHangDetect q s
  | .paddockWrite t v => Sys2Proof.Machine.execPaddockWrite t v s
  | .barrierDescriptorWrite cl d v => Sys2Proof.Machine.execBarrierDescriptorWrite cl d v s
  | .vmrootWrite c v => Sys2Proof.Machine.execVmrootWrite c v s
  | .spcfgWrite c v => Sys2Proof.Machine.execSpcfgWrite c v s
  | .splitChangeComplete c => Sys2Proof.Machine.execSplitChangeComplete c s
  | .migcfgFlush c => Sys2Proof.Machine.execMigcfgFlush c s
  | .l2cfgWrite d v => Sys2Proof.Machine.execL2cfgWrite d v s
  | .keycmdNone v => Sys2Proof.Machine.execKeycmdNone v s
  | .keycmdLoad v => Sys2Proof.Machine.execKeycmdLoad v s
  | .keycmdErase v => Sys2Proof.Machine.execKeycmdErase v s
  | .ivsetWrite v => Sys2Proof.Machine.execIvsetWrite v s
  | .pvsetWrite v => Sys2Proof.Machine.execPvsetWrite v s
  | .ygsetWrite v => Sys2Proof.Machine.execYgsetWrite v s
  | .hdmcfgWrite v => Sys2Proof.Machine.execHdmcfgWrite v s
  | .dbgresumeGo v => Sys2Proof.Machine.execDbgresumeGo v s
  | .registerWrite host off size v => Sys2Proof.Machine.execRegisterWrite host off size v s
  | .traceSample c => Sys2Proof.Machine.execTraceSample c s
  | .lifetimeUpdate => Sys2Proof.Machine.execLifetimeUpdate s
  | .ckptIntervalUpdate => Sys2Proof.Machine.execCkptIntervalUpdate s
  | .powerCapStep d => Sys2Proof.Machine.execPowerCapStep d s
  | .thermalShutdown => Sys2Proof.Machine.execThermalShutdown s
  | .coldReset ok => Sys2Proof.Machine.execColdReset ok s
  | .coreReset c => Sys2Proof.Machine.execCoreReset c s
  | .fwMailboxLoad ok => Sys2Proof.Machine.execFwMailboxLoad ok s
  | .enterFullService => Sys2Proof.Machine.execEnterFullService s
  | .illegalInstruction cause tval => Sys2Proof.Machine.execIllegalInstruction cause tval s
  | .fetchFault cause tval => Sys2Proof.Machine.execFetchFault cause tval s
  | .l2ResizeComplete d => Sys2Proof.Machine.execL2ResizeComplete d s
  | .keyCommandComplete => Sys2Proof.Machine.execKeyCommandComplete s
  | .electricalPortDown k => Sys2Proof.Machine.execElectricalPortDown k s
  | .electricalPortUp k => Sys2Proof.Machine.execElectricalPortUp k s
  | .flitCheckFailure plane fibre wl => Sys2Proof.Machine.execFlitCheckFailure plane fibre wl s
  | .fibreLoss plane fibre => Sys2Proof.Machine.execFibreLoss plane fibre s
  | .planeLoss k => Sys2Proof.Machine.execPlaneLoss k s
  | .moduleLossVerdict k => Sys2Proof.Machine.execModuleLossVerdict k s
  | .serviceProcessorFailure k => Sys2Proof.Machine.execServiceProcessorFailure k s
  | .dieFailure k => Sys2Proof.Machine.execDieFailure k s
  | .linkTrainingDone => Sys2Proof.Machine.execLinkTrainingDone s
  | .hbmTrainingDone => Sys2Proof.Machine.execHbmTrainingDone s
  | .dieSelfTestDone => Sys2Proof.Machine.execDieSelfTestDone s
  | .hostMemoryAccess wr addr len v => Sys2Proof.Machine.execHostMemoryAccess wr addr len v s
  | .hostSnoop line inval off len v => Sys2Proof.Machine.execHostSnoop line inval off len v s
  | .clockStepUp d => Sys2Proof.Machine.execClockStepUp d s

end Sys2Proof.Machine
end

