-- ==== Sys2Proof/Machine/Step.lean ====
section
/-!
DEFINITION. One step of the module: the next move of the schedule is made. What is noncomputable here is so because this
Lean's compiler builds no value of a constructor numbered above 244; the kernel evaluates all of it.
-/

namespace Sys2Proof.Machine

open Sys2Proof

/-- One step: the next move's event, command or instruction runs. -/
noncomputable def step (s : State) : Host.Outcome State Fault Refusal :=
  match turn s with
  | .nobody => .fault .noAgent
  | .done t => .next t
  | .event i t => exec i t
  | .run i t =>
    match exec i t with
    | .next u => .next (afterIssue i t u)
    | .fault f => .fault f
    | .refused r => .refused r

/-- The state with an instruction of the opcode table placed so that the next step fetches and runs it (log 5). Log 5, DESIGN
CHOICE, unsafe. -/
noncomputable def State.withFetchWord (s : State) (nbits w : Nat) : State := placeWord (w % 2 ^ nbits) s

end Sys2Proof.Machine
end

