-- ==== Sys2Proof/Laws/Words.lean ====
section
/-!
SUPPORT. The fields of the 32-bit instruction formats read back from assembled words.
-/

namespace Sys2Proof.Laws.Words

open Sys2Proof

set_option linter.all false

theorem fin_val (k : Nat) [NeZero k] (n : Nat) (r : Fin k) (h : n % k = r.val) : Fin.ofNat k n = r := by
  apply Fin.ext; simpa [Fin.ofNat] using h

theorem b2n_true : b2n true = 1 := rfl
theorem b2n_false : b2n false = 0 := rfl
theorem b2n_lt (b : Bool) : b2n b < 2 := by cases b <;> decide

theorem bit_val (w i : Nat) (b : Bool) (h : w / 2 ^ i % 2 = b2n b) : bit w i = b := by
  cases b <;> simp_all [bit, b2n]

theorem ux_lt (n : Nat) (i : Int) : ux n i < 2 ^ n := by
  have hp : 0 < 2 ^ n := Nat.two_pow_pos n
  have : (0 : Int) < ((2 ^ n : Nat) : Int) := by omega
  have h := Int.emod_lt_of_pos i this
  have h0 := Int.emod_nonneg i (Int.ne_of_gt this)
  unfold ux; omega

theorem sx_of (n v : Nat) (i : Int) (h : inRange n i = true) (hn : 0 < n) (hv : v % 2 ^ n = ux n i) : sx n v = i := by
  obtain ⟨k, rfl⟩ : ∃ k, n = k + 1 := ⟨n - 1, by omega⟩
  simp only [inRange, decide_eq_true_eq, Nat.add_sub_cancel] at h
  have hp : 2 ^ (k + 1) = 2 * 2 ^ k := by omega
  unfold sx
  rw [hv, Nat.add_sub_cancel]
  unfold ux
  generalize 2 ^ k = m at *
  rw [hp]
  by_cases hi : 0 ≤ i
  · have : i % ((2 * m : Nat) : Int) = i := Int.emod_eq_of_lt hi (by omega)
    rw [this]; split <;> omega
  · have : i % ((2 * m : Nat) : Int) = i + (2 * m : Nat) := by
      rw [← Int.add_emod_right, Int.emod_eq_of_lt (by omega) (by omega)]
    rw [this]; split <;> omega

theorem scope_lt (sc : Scope) : sc.code < 7 := by cases sc <;> decide
theorem tint_lt (t : TInt) : t.code < 7 := by cases t <;> decide
theorem tflt_lt (t : TFlt) : t.code < 3 := by cases t <;> decide
theorem fmt_lt (t : Fmt) : t.code < 15 := by cases t <;> decide
theorem cond_lt (t : Cond) : t.code < 6 := by cases t <;> decide
theorem cmpFmt_lt (t : CmpFmt) : t.code < 6 := by cases t <;> decide

theorem scope_of (t : Scope) : Scope.ofCode t.code = some t := by cases t <;> rfl
theorem tint_of (t : TInt) : TInt.ofCode t.code = some t := by cases t <;> rfl
theorem tflt_of (t : TFlt) : TFlt.ofCode t.code = some t := by cases t <;> rfl
theorem fmt_of (t : Fmt) : Fmt.ofCode t.code = some t := by cases t <;> rfl
theorem cond_of (t : Cond) : Cond.ofCode t.code = some t := by cases t <;> rfl
theorem cmpFmt_of (t : CmpFmt) : CmpFmt.ofCode t.code t.isU = some t := by cases t <;> rfl

theorem tflt_ne (t : TFlt) : (t.code = 7) = False := by cases t <;> decide
theorem tint_ne (t : TInt) : (t.code = 7) = False := by cases t <;> decide
theorem partOk_eq (d s : Fmt) (n : Nat) : partOk d s n = wfPart d s n := rfl

/-- An instruction without a prefix field is read back from its word. -/
theorem single (i : Instr) (w : Nat) (hp : i.pfx? = none) (hw : encWord i = w) (h0 : w ≠ 0) (h4 : w % 4 = 3)
    (hx : isPfxWord w = false) (hd : decMajor w none = .ok i) (hq : i.pfxDetail = none) :
    decodeWords (encode i) = .ok (i, 4 * (encode i).length) := by
  simp [encode, hp, hw, decodeWords, decodeBase, h0, h4, hx, hd, hq]

theorem pfx_back (p : Pfx) : pfxOfWord (encPfx p) = p := by
  obtain ⟨sat, gang, goff, v4, op4, rm, zero, mask⟩ := p
  have := goff.isLt; have := op4.isLt; have := rm.isLt; have := mask.isLt
  have := b2n_lt sat; have := b2n_lt gang; have := b2n_lt v4; have := b2n_lt zero
  obtain ⟨w, hw⟩ : ∃ w, w = encPfx ⟨sat, gang, goff, v4, op4, rm, zero, mask⟩ := ⟨_, rfl⟩
  rw [← hw]
  simp only [encPfx] at hw
  simp only [pfxOfWord, Pfx.mk.injEq, rg]
  exact ⟨bit_val _ _ _ (by omega), bit_val _ _ _ (by omega), fin_val _ _ _ (by omega), bit_val _ _ _ (by omega),
    fin_val _ _ _ (by omega), fin_val _ _ _ (by omega), bit_val _ _ _ (by omega), fin_val _ _ _ (by omega)⟩

theorem pfx_word (p : Pfx) : isPfxWord (encPfx p) = true ∧ bits (encPfx p) 31 26 = 0 := by
  obtain ⟨sat, gang, goff, v4, op4, rm, zero, mask⟩ := p
  have := goff.isLt; have := op4.isLt; have := rm.isLt; have := mask.isLt
  have := b2n_lt sat; have := b2n_lt gang; have := b2n_lt v4; have := b2n_lt zero
  simp only [isPfxWord, bits, encPfx, beq_iff_eq]
  omega

/-- An instruction with a prefix field is read back from its one or two words. -/
theorem paired (i : Instr) (w : Nat) (p : Option Pfx) (hp : i.pfx? = p) (hw : encWord i = w) (h0 : w ≠ 0) (h4 : w % 4 = 3)
    (hx : isPfxWord w = false) (ht : tileMajor w = true) (hd : decMajor w p = .ok i) (hq : i.pfxDetail = none) :
    decodeWords (encode i) = .ok (i, 4 * (encode i).length) := by
  cases p with
  | none => exact single i w hp hw h0 h4 hx hd hq
  | some q =>
    simp [encode, hp, hw, decodeWords, decodeBase, h0, h4, hx, pfx_back, (pfx_word q).1, (pfx_word q).2, ht, hd, hq]


/-- A word of the 32-bit formats by its fields: bits 31 to 25, 24 to 20, 19 to 15, 14 to 12, 11 to 7 and 6 to 2. -/
structure Asm (f7 r2 r1 f3 rd mj w : Nat) : Prop where
  eq : w = f7 * 2 ^ 25 + r2 * 2 ^ 20 + r1 * 2 ^ 15 + f3 * 2 ^ 12 + rd * 2 ^ 7 + mj * 4 + 3
  h7 : f7 < 128
  h2 : r2 < 32
  h1 : r1 < 32
  h3 : f3 < 8
  hd : rd < 32
  hm : mj < 32

section
variable {f7 r2 r1 f3 rd mj w : Nat} (h : Asm f7 r2 r1 f3 rd mj w)
include h

theorem b_6_2 : bits w 6 2 = mj := by
  obtain ⟨_, _, _, _, _, _, _⟩ := h; simp only [bits]; omega

theorem b_9_7 : bits w 9 7 = (rd % 8) := by
  obtain ⟨_, _, _, _, _, _, _⟩ := h; simp only [bits]; omega

theorem b_11_7 : bits w 11 7 = rd := by
  obtain ⟨_, _, _, _, _, _, _⟩ := h; simp only [bits]; omega

theorem b_11_10 : bits w 11 10 = (rd / 8) := by
  obtain ⟨_, _, _, _, _, _, _⟩ := h; simp only [bits]; omega

theorem b_14_12 : bits w 14 12 = f3 := by
  obtain ⟨_, _, _, _, _, _, _⟩ := h; simp only [bits]; omega

theorem b_15_15 : bits w 15 15 = (r1 % 2) := by
  obtain ⟨_, _, _, _, _, _, _⟩ := h; simp only [bits]; omega

theorem b_19_15 : bits w 19 15 = r1 := by
  obtain ⟨_, _, _, _, _, _, _⟩ := h; simp only [bits]; omega

theorem b_19_18 : bits w 19 18 = (r1 / 8) := by
  obtain ⟨_, _, _, _, _, _, _⟩ := h; simp only [bits]; omega

theorem b_20_20 : bits w 20 20 = (r2 % 2) := by
  obtain ⟨_, _, _, _, _, _, _⟩ := h; simp only [bits]; omega

theorem b_21_20 : bits w 21 20 = (r2 % 4) := by
  obtain ⟨_, _, _, _, _, _, _⟩ := h; simp only [bits]; omega

theorem b_22_22 : bits w 22 22 = (r2 / 4 % 2) := by
  obtain ⟨_, _, _, _, _, _, _⟩ := h; simp only [bits]; omega

theorem b_23_20 : bits w 23 20 = (r2 % 16) := by
  obtain ⟨_, _, _, _, _, _, _⟩ := h; simp only [bits]; omega

theorem b_24_20 : bits w 24 20 = r2 := by
  obtain ⟨_, _, _, _, _, _, _⟩ := h; simp only [bits]; omega

theorem b_24_22 : bits w 24 22 = (r2 / 4) := by
  obtain ⟨_, _, _, _, _, _, _⟩ := h; simp only [bits]; omega

theorem b_24_23 : bits w 24 23 = (r2 / 8) := by
  obtain ⟨_, _, _, _, _, _, _⟩ := h; simp only [bits]; omega

theorem b_24_24 : bits w 24 24 = (r2 / 16) := by
  obtain ⟨_, _, _, _, _, _, _⟩ := h; simp only [bits]; omega

theorem b_25_25 : bits w 25 25 = (f7 % 2) := by
  obtain ⟨_, _, _, _, _, _, _⟩ := h; simp only [bits]; omega

theorem b_26_25 : bits w 26 25 = (f7 % 4) := by
  obtain ⟨_, _, _, _, _, _, _⟩ := h; simp only [bits]; omega

theorem b_27_24 : bits w 27 24 = ((f7 % 8) * 2) + (r2 / 16) := by
  obtain ⟨_, _, _, _, _, _, _⟩ := h; simp only [bits]; omega

theorem b_27_25 : bits w 27 25 = (f7 % 8) := by
  obtain ⟨_, _, _, _, _, _, _⟩ := h; simp only [bits]; omega

theorem b_27_26 : bits w 27 26 = (f7 / 2 % 4) := by
  obtain ⟨_, _, _, _, _, _, _⟩ := h; simp only [bits]; omega

theorem b_27_27 : bits w 27 27 = (f7 / 4 % 2) := by
  obtain ⟨_, _, _, _, _, _, _⟩ := h; simp only [bits]; omega

theorem b_28_25 : bits w 28 25 = (f7 % 16) := by
  obtain ⟨_, _, _, _, _, _, _⟩ := h; simp only [bits]; omega

theorem b_28_28 : bits w 28 28 = (f7 / 8 % 2) := by
  obtain ⟨_, _, _, _, _, _, _⟩ := h; simp only [bits]; omega

theorem b_30_28 : bits w 30 28 = (f7 / 8 % 8) := by
  obtain ⟨_, _, _, _, _, _, _⟩ := h; simp only [bits]; omega

theorem b_31_15 : bits w 31 15 = f7 * 1024 + r2 * 32 + r1 := by
  obtain ⟨_, _, _, _, _, _, _⟩ := h; simp only [bits]; omega

theorem b_31_20 : bits w 31 20 = f7 * 32 + r2 := by
  obtain ⟨_, _, _, _, _, _, _⟩ := h; simp only [bits]; omega

theorem b_31_22 : bits w 31 22 = f7 * 8 + (r2 / 4) := by
  obtain ⟨_, _, _, _, _, _, _⟩ := h; simp only [bits]; omega

theorem b_31_23 : bits w 31 23 = f7 * 4 + (r2 / 8) := by
  obtain ⟨_, _, _, _, _, _, _⟩ := h; simp only [bits]; omega

theorem b_31_25 : bits w 31 25 = f7 := by
  obtain ⟨_, _, _, _, _, _, _⟩ := h; simp only [bits]; omega

theorem b_31_26 : bits w 31 26 = (f7 / 2) := by
  obtain ⟨_, _, _, _, _, _, _⟩ := h; simp only [bits]; omega

theorem b_31_28 : bits w 31 28 = (f7 / 8) := by
  obtain ⟨_, _, _, _, _, _, _⟩ := h; simp only [bits]; omega

theorem b_31_29 : bits w 31 29 = (f7 / 16) := by
  obtain ⟨_, _, _, _, _, _, _⟩ := h; simp only [bits]; omega

theorem b_31_30 : bits w 31 30 = (f7 / 32) := by
  obtain ⟨_, _, _, _, _, _, _⟩ := h; simp only [bits]; omega

theorem t_21 (b : Bool) (e : (r2 / 2 % 2) = b2n b) : bit w 21 = b := by
  obtain ⟨_, _, _, _, _, _, _⟩ := h; exact bit_val _ _ _ (by omega)

theorem t_22 (b : Bool) (e : (r2 / 4 % 2) = b2n b) : bit w 22 = b := by
  obtain ⟨_, _, _, _, _, _, _⟩ := h; exact bit_val _ _ _ (by omega)

theorem t_23 (b : Bool) (e : (r2 / 8 % 2) = b2n b) : bit w 23 = b := by
  obtain ⟨_, _, _, _, _, _, _⟩ := h; exact bit_val _ _ _ (by omega)

theorem t_24 (b : Bool) (e : (r2 / 16) = b2n b) : bit w 24 = b := by
  obtain ⟨_, _, _, _, _, _, _⟩ := h; exact bit_val _ _ _ (by omega)

theorem t_25 (b : Bool) (e : (f7 % 2) = b2n b) : bit w 25 = b := by
  obtain ⟨_, _, _, _, _, _, _⟩ := h; exact bit_val _ _ _ (by omega)

theorem t_29 (b : Bool) (e : (f7 / 16 % 2) = b2n b) : bit w 29 = b := by
  obtain ⟨_, _, _, _, _, _, _⟩ := h; exact bit_val _ _ _ (by omega)

theorem t_31 (b : Bool) (e : (f7 / 64) = b2n b) : bit w 31 = b := by
  obtain ⟨_, _, _, _, _, _, _⟩ := h; exact bit_val _ _ _ (by omega)

theorem r_7_32 (r : Fin 32) (e : rd = r.val) : Fin.ofNat 32 (w / 2 ^ 7) = r := by
  obtain ⟨_, _, _, _, _, _, _⟩ := h; exact fin_val _ _ _ (by omega)

theorem r_12_8 (r : Fin 8) (e : f3 = r.val) : Fin.ofNat 8 (w / 2 ^ 12) = r := by
  obtain ⟨_, _, _, _, _, _, _⟩ := h; exact fin_val _ _ _ (by omega)

theorem r_12_1048576 (r : Fin 1048576) (e : f7 * 8192 + r2 * 256 + r1 * 8 + f3 = r.val) : Fin.ofNat 1048576 (w / 2 ^ 12) = r := by
  obtain ⟨_, _, _, _, _, _, _⟩ := h; exact fin_val _ _ _ (by omega)

theorem r_15_8 (r : Fin 8) (e : (r1 % 8) = r.val) : Fin.ofNat 8 (w / 2 ^ 15) = r := by
  obtain ⟨_, _, _, _, _, _, _⟩ := h; exact fin_val _ _ _ (by omega)

theorem r_15_32 (r : Fin 32) (e : r1 = r.val) : Fin.ofNat 32 (w / 2 ^ 15) = r := by
  obtain ⟨_, _, _, _, _, _, _⟩ := h; exact fin_val _ _ _ (by omega)

theorem r_16_256 (r : Fin 256) (e : ((r2 % 16) * 16) + (r1 / 2) = r.val) : Fin.ofNat 256 (w / 2 ^ 16) = r := by
  obtain ⟨_, _, _, _, _, _, _⟩ := h; exact fin_val _ _ _ (by omega)

theorem r_20_4 (r : Fin 4) (e : (r2 % 4) = r.val) : Fin.ofNat 4 (w / 2 ^ 20) = r := by
  obtain ⟨_, _, _, _, _, _, _⟩ := h; exact fin_val _ _ _ (by omega)

theorem r_20_8 (r : Fin 8) (e : (r2 % 8) = r.val) : Fin.ofNat 8 (w / 2 ^ 20) = r := by
  obtain ⟨_, _, _, _, _, _, _⟩ := h; exact fin_val _ _ _ (by omega)

theorem r_20_32 (r : Fin 32) (e : r2 = r.val) : Fin.ofNat 32 (w / 2 ^ 20) = r := by
  obtain ⟨_, _, _, _, _, _, _⟩ := h; exact fin_val _ _ _ (by omega)

theorem r_20_64 (r : Fin 64) (e : ((f7 % 2) * 32) + r2 = r.val) : Fin.ofNat 64 (w / 2 ^ 20) = r := by
  obtain ⟨_, _, _, _, _, _, _⟩ := h; exact fin_val _ _ _ (by omega)

theorem r_20_256 (r : Fin 256) (e : ((f7 % 8) * 32) + r2 = r.val) : Fin.ofNat 256 (w / 2 ^ 20) = r := by
  obtain ⟨_, _, _, _, _, _, _⟩ := h; exact fin_val _ _ _ (by omega)

theorem r_20_4096 (r : Fin 4096) (e : f7 * 32 + r2 = r.val) : Fin.ofNat 4096 (w / 2 ^ 20) = r := by
  obtain ⟨_, _, _, _, _, _, _⟩ := h; exact fin_val _ _ _ (by omega)

theorem r_22_8 (r : Fin 8) (e : (r2 / 4) = r.val) : Fin.ofNat 8 (w / 2 ^ 22) = r := by
  obtain ⟨_, _, _, _, _, _, _⟩ := h; exact fin_val _ _ _ (by omega)

theorem r_24_256 (r : Fin 256) (e : f7 * 2 + (r2 / 16) = r.val) : Fin.ofNat 256 (w / 2 ^ 24) = r := by
  obtain ⟨_, _, _, _, _, _, _⟩ := h; exact fin_val _ _ _ (by omega)

theorem r_25_4 (r : Fin 4) (e : (f7 % 4) = r.val) : Fin.ofNat 4 (w / 2 ^ 25) = r := by
  obtain ⟨_, _, _, _, _, _, _⟩ := h; exact fin_val _ _ _ (by omega)

theorem r_25_8 (r : Fin 8) (e : (f7 % 8) = r.val) : Fin.ofNat 8 (w / 2 ^ 25) = r := by
  obtain ⟨_, _, _, _, _, _, _⟩ := h; exact fin_val _ _ _ (by omega)

theorem r_27_4 (r : Fin 4) (e : (f7 / 4 % 4) = r.val) : Fin.ofNat 4 (w / 2 ^ 27) = r := by
  obtain ⟨_, _, _, _, _, _, _⟩ := h; exact fin_val _ _ _ (by omega)

theorem r_27_32 (r : Fin 32) (e : (f7 / 4) = r.val) : Fin.ofNat 32 (w / 2 ^ 27) = r := by
  obtain ⟨_, _, _, _, _, _, _⟩ := h; exact fin_val _ _ _ (by omega)

theorem r_28_16 (r : Fin 16) (e : (f7 / 8) = r.val) : Fin.ofNat 16 (w / 2 ^ 28) = r := by
  obtain ⟨_, _, _, _, _, _, _⟩ := h; exact fin_val _ _ _ (by omega)

theorem i_immI (i : Int) (hi : inRange 12 i = true) (e : f7 * 32 + r2 = ux 12 i) : immI w = i := by
  obtain ⟨_, _, _, _, _, _, _⟩ := h
  rw [immI, sx_of 12 _ i hi (by decide)]
  try simp only [bits]
  omega

theorem i_immS (i : Int) (hi : inRange 12 i = true) (e : f7 * 32 + rd = ux 12 i) : immS w = i := by
  rw [immS, b_31_25 h, b_11_7 h]
  obtain ⟨_, _, _, _, _, _, _⟩ := h
  exact sx_of 12 _ i hi (by decide) (by omega)

theorem i_immL (i : Int) (hi : inRange 8 i = true) (e : f7 % 8 * 32 + r2 = ux 8 i) : immL w = i := by
  obtain ⟨_, _, _, _, _, _, _⟩ := h
  rw [immL, sx_of 8 _ i hi (by decide)]
  try simp only [bits]
  omega

theorem i_offJ (i : Int) (hi : inRange 20 i = true) (e : f7 * 2 ^ 13 + r2 * 2 ^ 8 + r1 * 8 + f3 = ux 20 i) : offJ w = i := by
  obtain ⟨_, _, _, _, _, _, _⟩ := h
  rw [offJ, sx_of 20 _ i hi (by decide)]
  try simp only [bits]
  omega

theorem word_ok (h7 : mj ≠ 7) : w ≠ 0 ∧ w % 4 = 3 ∧ isPfxWord w = false := by
  obtain ⟨_, _, _, _, _, _, _⟩ := h
  simp only [isPfxWord, beq_eq_false_iff_ne]
  omega
end

end Sys2Proof.Laws.Words
end

