-- ==== Sys2Proof/Laws/PerInstr.lean ====
section
/-!
SUPPORT. Decoding and encoding agree on every CPU instruction, one lemma per constructor of Instr.
-/

namespace Sys2Proof.Laws.RoundTrip

open Sys2Proof Sys2Proof.Laws.Words

set_option linter.all false

/-- The decoder reads a well-formed CPU instruction back from its words, with its length in bytes. -/
def Statement (i : Instr) : Prop :=
  i.isCpu = true → i.wellFormed = true → decodeWords (encode i) = .ok (i, 4 * (encode i).length)

theorem add (rd : Reg) (rs1 : Reg) (rs2 : Reg) : Statement (.add rd rs1 rs2) := by
  intro _ hwf
  have := rd.isLt
  have := rs1.isLt
  have := rs2.isLt
  obtain ⟨w, hw⟩ : ∃ w, w = encR 0 rs2 rs1 0 rd 12 := ⟨_, rfl⟩
  have A : Asm 0 rs2.val rs1.val 0 rd.val 12 w := ⟨by rw [hw]; first | decide | (simp only [encR] <;> omega), by decide, by omega, by omega, by decide, by omega, by decide⟩
  have f0 : bits w 6 2 = 12 := (b_6_2 A).trans (rfl)
  have f1 : bits w 14 12 = 0 := (b_14_12 A).trans (rfl)
  have f2 : bits w 31 25 = 0 := (b_31_25 A).trans (rfl)
  have f3 : bits w 27 25 = 0 := (b_27_25 A).trans (rfl)
  have f4 : rg w 15 = rs1 := r_15_32 A rs1 (by omega)
  have f5 : rg w 20 = rs2 := r_20_32 A rs2 (by omega)
  have f6 : rg w 7 = rd := r_7_32 A rd (by omega)
  have f7 : laOf w = (0 : Fin 16) := r_28_16 A (0 : Fin 16) (rfl)
  obtain ⟨w0, w4, wx⟩ := word_ok A (by decide)
  refine single _ w rfl hw.symm w0 w4 wx ?_ rfl
  simp only [decMajor, decOp, f0, f1, f2, f3, f4, f5, f6, f7] <;> (try simp [failIf, withScope, port, scope_of, tint_of, tflt_of, fmt_of, cond_of, cmpFmt_of, partOk_eq, tflt_ne, tint_ne]) <;> (repeat' split) <;> first | rfl | (exfalso; omega)

theorem sll (rd : Reg) (rs1 : Reg) (rs2 : Reg) : Statement (.sll rd rs1 rs2) := by
  intro _ hwf
  have := rd.isLt
  have := rs1.isLt
  have := rs2.isLt
  obtain ⟨w, hw⟩ : ∃ w, w = encR 0 rs2 rs1 1 rd 12 := ⟨_, rfl⟩
  have A : Asm 0 rs2.val rs1.val 1 rd.val 12 w := ⟨by rw [hw]; first | decide | (simp only [encR] <;> omega), by decide, by omega, by omega, by decide, by omega, by decide⟩
  have f0 : bits w 6 2 = 12 := (b_6_2 A).trans (rfl)
  have f1 : bits w 14 12 = 1 := (b_14_12 A).trans (rfl)
  have f2 : bits w 31 25 = 0 := (b_31_25 A).trans (rfl)
  have f3 : bits w 27 25 = 0 := (b_27_25 A).trans (rfl)
  have f4 : rg w 15 = rs1 := r_15_32 A rs1 (by omega)
  have f5 : rg w 20 = rs2 := r_20_32 A rs2 (by omega)
  have f6 : rg w 7 = rd := r_7_32 A rd (by omega)
  have f7 : laOf w = (0 : Fin 16) := r_28_16 A (0 : Fin 16) (rfl)
  obtain ⟨w0, w4, wx⟩ := word_ok A (by decide)
  refine single _ w rfl hw.symm w0 w4 wx ?_ rfl
  simp only [decMajor, decOp, f0, f1, f2, f3, f4, f5, f6, f7] <;> (try simp [failIf, withScope, port, scope_of, tint_of, tflt_of, fmt_of, cond_of, cmpFmt_of, partOk_eq, tflt_ne, tint_ne]) <;> (repeat' split) <;> first | rfl | (exfalso; omega)

theorem slt (rd : Reg) (rs1 : Reg) (rs2 : Reg) : Statement (.slt rd rs1 rs2) := by
  intro _ hwf
  have := rd.isLt
  have := rs1.isLt
  have := rs2.isLt
  obtain ⟨w, hw⟩ : ∃ w, w = encR 0 rs2 rs1 2 rd 12 := ⟨_, rfl⟩
  have A : Asm 0 rs2.val rs1.val 2 rd.val 12 w := ⟨by rw [hw]; first | decide | (simp only [encR] <;> omega), by decide, by omega, by omega, by decide, by omega, by decide⟩
  have f0 : bits w 6 2 = 12 := (b_6_2 A).trans (rfl)
  have f1 : bits w 14 12 = 2 := (b_14_12 A).trans (rfl)
  have f2 : bits w 31 25 = 0 := (b_31_25 A).trans (rfl)
  have f3 : bits w 27 25 = 0 := (b_27_25 A).trans (rfl)
  have f4 : rg w 15 = rs1 := r_15_32 A rs1 (by omega)
  have f5 : rg w 20 = rs2 := r_20_32 A rs2 (by omega)
  have f6 : rg w 7 = rd := r_7_32 A rd (by omega)
  have f7 : laOf w = (0 : Fin 16) := r_28_16 A (0 : Fin 16) (rfl)
  obtain ⟨w0, w4, wx⟩ := word_ok A (by decide)
  refine single _ w rfl hw.symm w0 w4 wx ?_ rfl
  simp only [decMajor, decOp, f0, f1, f2, f3, f4, f5, f6, f7] <;> (try simp [failIf, withScope, port, scope_of, tint_of, tflt_of, fmt_of, cond_of, cmpFmt_of, partOk_eq, tflt_ne, tint_ne]) <;> (repeat' split) <;> first | rfl | (exfalso; omega)

theorem sltu (rd : Reg) (rs1 : Reg) (rs2 : Reg) : Statement (.sltu rd rs1 rs2) := by
  intro _ hwf
  have := rd.isLt
  have := rs1.isLt
  have := rs2.isLt
  obtain ⟨w, hw⟩ : ∃ w, w = encR 0 rs2 rs1 3 rd 12 := ⟨_, rfl⟩
  have A : Asm 0 rs2.val rs1.val 3 rd.val 12 w := ⟨by rw [hw]; first | decide | (simp only [encR] <;> omega), by decide, by omega, by omega, by decide, by omega, by decide⟩
  have f0 : bits w 6 2 = 12 := (b_6_2 A).trans (rfl)
  have f1 : bits w 14 12 = 3 := (b_14_12 A).trans (rfl)
  have f2 : bits w 31 25 = 0 := (b_31_25 A).trans (rfl)
  have f3 : bits w 27 25 = 0 := (b_27_25 A).trans (rfl)
  have f4 : rg w 15 = rs1 := r_15_32 A rs1 (by omega)
  have f5 : rg w 20 = rs2 := r_20_32 A rs2 (by omega)
  have f6 : rg w 7 = rd := r_7_32 A rd (by omega)
  have f7 : laOf w = (0 : Fin 16) := r_28_16 A (0 : Fin 16) (rfl)
  obtain ⟨w0, w4, wx⟩ := word_ok A (by decide)
  refine single _ w rfl hw.symm w0 w4 wx ?_ rfl
  simp only [decMajor, decOp, f0, f1, f2, f3, f4, f5, f6, f7] <;> (try simp [failIf, withScope, port, scope_of, tint_of, tflt_of, fmt_of, cond_of, cmpFmt_of, partOk_eq, tflt_ne, tint_ne]) <;> (repeat' split) <;> first | rfl | (exfalso; omega)

theorem xor (rd : Reg) (rs1 : Reg) (rs2 : Reg) : Statement (.xor rd rs1 rs2) := by
  intro _ hwf
  have := rd.isLt
  have := rs1.isLt
  have := rs2.isLt
  obtain ⟨w, hw⟩ : ∃ w, w = encR 0 rs2 rs1 4 rd 12 := ⟨_, rfl⟩
  have A : Asm 0 rs2.val rs1.val 4 rd.val 12 w := ⟨by rw [hw]; first | decide | (simp only [encR] <;> omega), by decide, by omega, by omega, by decide, by omega, by decide⟩
  have f0 : bits w 6 2 = 12 := (b_6_2 A).trans (rfl)
  have f1 : bits w 14 12 = 4 := (b_14_12 A).trans (rfl)
  have f2 : bits w 31 25 = 0 := (b_31_25 A).trans (rfl)
  have f3 : bits w 27 25 = 0 := (b_27_25 A).trans (rfl)
  have f4 : rg w 15 = rs1 := r_15_32 A rs1 (by omega)
  have f5 : rg w 20 = rs2 := r_20_32 A rs2 (by omega)
  have f6 : rg w 7 = rd := r_7_32 A rd (by omega)
  have f7 : laOf w = (0 : Fin 16) := r_28_16 A (0 : Fin 16) (rfl)
  obtain ⟨w0, w4, wx⟩ := word_ok A (by decide)
  refine single _ w rfl hw.symm w0 w4 wx ?_ rfl
  simp only [decMajor, decOp, f0, f1, f2, f3, f4, f5, f6, f7] <;> (try simp [failIf, withScope, port, scope_of, tint_of, tflt_of, fmt_of, cond_of, cmpFmt_of, partOk_eq, tflt_ne, tint_ne]) <;> (repeat' split) <;> first | rfl | (exfalso; omega)

theorem srl (rd : Reg) (rs1 : Reg) (rs2 : Reg) : Statement (.srl rd rs1 rs2) := by
  intro _ hwf
  have := rd.isLt
  have := rs1.isLt
  have := rs2.isLt
  obtain ⟨w, hw⟩ : ∃ w, w = encR 0 rs2 rs1 5 rd 12 := ⟨_, rfl⟩
  have A : Asm 0 rs2.val rs1.val 5 rd.val 12 w := ⟨by rw [hw]; first | decide | (simp only [encR] <;> omega), by decide, by omega, by omega, by decide, by omega, by decide⟩
  have f0 : bits w 6 2 = 12 := (b_6_2 A).trans (rfl)
  have f1 : bits w 14 12 = 5 := (b_14_12 A).trans (rfl)
  have f2 : bits w 31 25 = 0 := (b_31_25 A).trans (rfl)
  have f3 : bits w 27 25 = 0 := (b_27_25 A).trans (rfl)
  have f4 : rg w 15 = rs1 := r_15_32 A rs1 (by omega)
  have f5 : rg w 20 = rs2 := r_20_32 A rs2 (by omega)
  have f6 : rg w 7 = rd := r_7_32 A rd (by omega)
  have f7 : laOf w = (0 : Fin 16) := r_28_16 A (0 : Fin 16) (rfl)
  obtain ⟨w0, w4, wx⟩ := word_ok A (by decide)
  refine single _ w rfl hw.symm w0 w4 wx ?_ rfl
  simp only [decMajor, decOp, f0, f1, f2, f3, f4, f5, f6, f7] <;> (try simp [failIf, withScope, port, scope_of, tint_of, tflt_of, fmt_of, cond_of, cmpFmt_of, partOk_eq, tflt_ne, tint_ne]) <;> (repeat' split) <;> first | rfl | (exfalso; omega)

theorem or (rd : Reg) (rs1 : Reg) (rs2 : Reg) : Statement (.or rd rs1 rs2) := by
  intro _ hwf
  have := rd.isLt
  have := rs1.isLt
  have := rs2.isLt
  obtain ⟨w, hw⟩ : ∃ w, w = encR 0 rs2 rs1 6 rd 12 := ⟨_, rfl⟩
  have A : Asm 0 rs2.val rs1.val 6 rd.val 12 w := ⟨by rw [hw]; first | decide | (simp only [encR] <;> omega), by decide, by omega, by omega, by decide, by omega, by decide⟩
  have f0 : bits w 6 2 = 12 := (b_6_2 A).trans (rfl)
  have f1 : bits w 14 12 = 6 := (b_14_12 A).trans (rfl)
  have f2 : bits w 31 25 = 0 := (b_31_25 A).trans (rfl)
  have f3 : bits w 27 25 = 0 := (b_27_25 A).trans (rfl)
  have f4 : rg w 15 = rs1 := r_15_32 A rs1 (by omega)
  have f5 : rg w 20 = rs2 := r_20_32 A rs2 (by omega)
  have f6 : rg w 7 = rd := r_7_32 A rd (by omega)
  have f7 : laOf w = (0 : Fin 16) := r_28_16 A (0 : Fin 16) (rfl)
  obtain ⟨w0, w4, wx⟩ := word_ok A (by decide)
  refine single _ w rfl hw.symm w0 w4 wx ?_ rfl
  simp only [decMajor, decOp, f0, f1, f2, f3, f4, f5, f6, f7] <;> (try simp [failIf, withScope, port, scope_of, tint_of, tflt_of, fmt_of, cond_of, cmpFmt_of, partOk_eq, tflt_ne, tint_ne]) <;> (repeat' split) <;> first | rfl | (exfalso; omega)

theorem and (rd : Reg) (rs1 : Reg) (rs2 : Reg) : Statement (.and rd rs1 rs2) := by
  intro _ hwf
  have := rd.isLt
  have := rs1.isLt
  have := rs2.isLt
  obtain ⟨w, hw⟩ : ∃ w, w = encR 0 rs2 rs1 7 rd 12 := ⟨_, rfl⟩
  have A : Asm 0 rs2.val rs1.val 7 rd.val 12 w := ⟨by rw [hw]; first | decide | (simp only [encR] <;> omega), by decide, by omega, by omega, by decide, by omega, by decide⟩
  have f0 : bits w 6 2 = 12 := (b_6_2 A).trans (rfl)
  have f1 : bits w 14 12 = 7 := (b_14_12 A).trans (rfl)
  have f2 : bits w 31 25 = 0 := (b_31_25 A).trans (rfl)
  have f3 : bits w 27 25 = 0 := (b_27_25 A).trans (rfl)
  have f4 : rg w 15 = rs1 := r_15_32 A rs1 (by omega)
  have f5 : rg w 20 = rs2 := r_20_32 A rs2 (by omega)
  have f6 : rg w 7 = rd := r_7_32 A rd (by omega)
  have f7 : laOf w = (0 : Fin 16) := r_28_16 A (0 : Fin 16) (rfl)
  obtain ⟨w0, w4, wx⟩ := word_ok A (by decide)
  refine single _ w rfl hw.symm w0 w4 wx ?_ rfl
  simp only [decMajor, decOp, f0, f1, f2, f3, f4, f5, f6, f7] <;> (try simp [failIf, withScope, port, scope_of, tint_of, tflt_of, fmt_of, cond_of, cmpFmt_of, partOk_eq, tflt_ne, tint_ne]) <;> (repeat' split) <;> first | rfl | (exfalso; omega)

theorem sub (rd : Reg) (rs1 : Reg) (rs2 : Reg) : Statement (.sub rd rs1 rs2) := by
  intro _ hwf
  have := rd.isLt
  have := rs1.isLt
  have := rs2.isLt
  obtain ⟨w, hw⟩ : ∃ w, w = encR 32 rs2 rs1 0 rd 12 := ⟨_, rfl⟩
  have A : Asm 32 rs2.val rs1.val 0 rd.val 12 w := ⟨by rw [hw]; first | decide | (simp only [encR] <;> omega), by decide, by omega, by omega, by decide, by omega, by decide⟩
  have f0 : bits w 6 2 = 12 := (b_6_2 A).trans (rfl)
  have f1 : bits w 14 12 = 0 := (b_14_12 A).trans (rfl)
  have f2 : bits w 31 25 = 32 := (b_31_25 A).trans (rfl)
  have f3 : bits w 27 25 = 0 := (b_27_25 A).trans (rfl)
  have f4 : rg w 15 = rs1 := r_15_32 A rs1 (by omega)
  have f5 : rg w 20 = rs2 := r_20_32 A rs2 (by omega)
  have f6 : rg w 7 = rd := r_7_32 A rd (by omega)
  have f7 : laOf w = (4 : Fin 16) := r_28_16 A (4 : Fin 16) (rfl)
  obtain ⟨w0, w4, wx⟩ := word_ok A (by decide)
  refine single _ w rfl hw.symm w0 w4 wx ?_ rfl
  simp only [decMajor, decOp, f0, f1, f2, f3, f4, f5, f6, f7] <;> (try simp [failIf, withScope, port, scope_of, tint_of, tflt_of, fmt_of, cond_of, cmpFmt_of, partOk_eq, tflt_ne, tint_ne]) <;> (repeat' split) <;> first | rfl | (exfalso; omega)

theorem sra (rd : Reg) (rs1 : Reg) (rs2 : Reg) : Statement (.sra rd rs1 rs2) := by
  intro _ hwf
  have := rd.isLt
  have := rs1.isLt
  have := rs2.isLt
  obtain ⟨w, hw⟩ : ∃ w, w = encR 32 rs2 rs1 5 rd 12 := ⟨_, rfl⟩
  have A : Asm 32 rs2.val rs1.val 5 rd.val 12 w := ⟨by rw [hw]; first | decide | (simp only [encR] <;> omega), by decide, by omega, by omega, by decide, by omega, by decide⟩
  have f0 : bits w 6 2 = 12 := (b_6_2 A).trans (rfl)
  have f1 : bits w 14 12 = 5 := (b_14_12 A).trans (rfl)
  have f2 : bits w 31 25 = 32 := (b_31_25 A).trans (rfl)
  have f3 : bits w 27 25 = 0 := (b_27_25 A).trans (rfl)
  have f4 : rg w 15 = rs1 := r_15_32 A rs1 (by omega)
  have f5 : rg w 20 = rs2 := r_20_32 A rs2 (by omega)
  have f6 : rg w 7 = rd := r_7_32 A rd (by omega)
  have f7 : laOf w = (4 : Fin 16) := r_28_16 A (4 : Fin 16) (rfl)
  obtain ⟨w0, w4, wx⟩ := word_ok A (by decide)
  refine single _ w rfl hw.symm w0 w4 wx ?_ rfl
  simp only [decMajor, decOp, f0, f1, f2, f3, f4, f5, f6, f7] <;> (try simp [failIf, withScope, port, scope_of, tint_of, tflt_of, fmt_of, cond_of, cmpFmt_of, partOk_eq, tflt_ne, tint_ne]) <;> (repeat' split) <;> first | rfl | (exfalso; omega)

theorem mul (rd : Reg) (rs1 : Reg) (rs2 : Reg) : Statement (.mul rd rs1 rs2) := by
  intro _ hwf
  have := rd.isLt
  have := rs1.isLt
  have := rs2.isLt
  obtain ⟨w, hw⟩ : ∃ w, w = encR 1 rs2 rs1 0 rd 12 := ⟨_, rfl⟩
  have A : Asm 1 rs2.val rs1.val 0 rd.val 12 w := ⟨by rw [hw]; first | decide | (simp only [encR] <;> omega), by decide, by omega, by omega, by decide, by omega, by decide⟩
  have f0 : bits w 6 2 = 12 := (b_6_2 A).trans (rfl)
  have f1 : bits w 14 12 = 0 := (b_14_12 A).trans (rfl)
  have f2 : bits w 31 25 = 1 := (b_31_25 A).trans (rfl)
  have f3 : bits w 27 25 = 1 := (b_27_25 A).trans (rfl)
  have f4 : rg w 15 = rs1 := r_15_32 A rs1 (by omega)
  have f5 : rg w 20 = rs2 := r_20_32 A rs2 (by omega)
  have f6 : rg w 7 = rd := r_7_32 A rd (by omega)
  have f7 : laOf w = (0 : Fin 16) := r_28_16 A (0 : Fin 16) (rfl)
  obtain ⟨w0, w4, wx⟩ := word_ok A (by decide)
  refine single _ w rfl hw.symm w0 w4 wx ?_ rfl
  simp only [decMajor, decOp, f0, f1, f2, f3, f4, f5, f6, f7] <;> (try simp [failIf, withScope, port, scope_of, tint_of, tflt_of, fmt_of, cond_of, cmpFmt_of, partOk_eq, tflt_ne, tint_ne]) <;> (repeat' split) <;> first | rfl | (exfalso; omega)

theorem mulh (rd : Reg) (rs1 : Reg) (rs2 : Reg) : Statement (.mulh rd rs1 rs2) := by
  intro _ hwf
  have := rd.isLt
  have := rs1.isLt
  have := rs2.isLt
  obtain ⟨w, hw⟩ : ∃ w, w = encR 1 rs2 rs1 1 rd 12 := ⟨_, rfl⟩
  have A : Asm 1 rs2.val rs1.val 1 rd.val 12 w := ⟨by rw [hw]; first | decide | (simp only [encR] <;> omega), by decide, by omega, by omega, by decide, by omega, by decide⟩
  have f0 : bits w 6 2 = 12 := (b_6_2 A).trans (rfl)
  have f1 : bits w 14 12 = 1 := (b_14_12 A).trans (rfl)
  have f2 : bits w 31 25 = 1 := (b_31_25 A).trans (rfl)
  have f3 : bits w 27 25 = 1 := (b_27_25 A).trans (rfl)
  have f4 : rg w 15 = rs1 := r_15_32 A rs1 (by omega)
  have f5 : rg w 20 = rs2 := r_20_32 A rs2 (by omega)
  have f6 : rg w 7 = rd := r_7_32 A rd (by omega)
  have f7 : laOf w = (0 : Fin 16) := r_28_16 A (0 : Fin 16) (rfl)
  obtain ⟨w0, w4, wx⟩ := word_ok A (by decide)
  refine single _ w rfl hw.symm w0 w4 wx ?_ rfl
  simp only [decMajor, decOp, f0, f1, f2, f3, f4, f5, f6, f7] <;> (try simp [failIf, withScope, port, scope_of, tint_of, tflt_of, fmt_of, cond_of, cmpFmt_of, partOk_eq, tflt_ne, tint_ne]) <;> (repeat' split) <;> first | rfl | (exfalso; omega)

theorem mulhsu (rd : Reg) (rs1 : Reg) (rs2 : Reg) : Statement (.mulhsu rd rs1 rs2) := by
  intro _ hwf
  have := rd.isLt
  have := rs1.isLt
  have := rs2.isLt
  obtain ⟨w, hw⟩ : ∃ w, w = encR 1 rs2 rs1 2 rd 12 := ⟨_, rfl⟩
  have A : Asm 1 rs2.val rs1.val 2 rd.val 12 w := ⟨by rw [hw]; first | decide | (simp only [encR] <;> omega), by decide, by omega, by omega, by decide, by omega, by decide⟩
  have f0 : bits w 6 2 = 12 := (b_6_2 A).trans (rfl)
  have f1 : bits w 14 12 = 2 := (b_14_12 A).trans (rfl)
  have f2 : bits w 31 25 = 1 := (b_31_25 A).trans (rfl)
  have f3 : bits w 27 25 = 1 := (b_27_25 A).trans (rfl)
  have f4 : rg w 15 = rs1 := r_15_32 A rs1 (by omega)
  have f5 : rg w 20 = rs2 := r_20_32 A rs2 (by omega)
  have f6 : rg w 7 = rd := r_7_32 A rd (by omega)
  have f7 : laOf w = (0 : Fin 16) := r_28_16 A (0 : Fin 16) (rfl)
  obtain ⟨w0, w4, wx⟩ := word_ok A (by decide)
  refine single _ w rfl hw.symm w0 w4 wx ?_ rfl
  simp only [decMajor, decOp, f0, f1, f2, f3, f4, f5, f6, f7] <;> (try simp [failIf, withScope, port, scope_of, tint_of, tflt_of, fmt_of, cond_of, cmpFmt_of, partOk_eq, tflt_ne, tint_ne]) <;> (repeat' split) <;> first | rfl | (exfalso; omega)

theorem mulhu (rd : Reg) (rs1 : Reg) (rs2 : Reg) : Statement (.mulhu rd rs1 rs2) := by
  intro _ hwf
  have := rd.isLt
  have := rs1.isLt
  have := rs2.isLt
  obtain ⟨w, hw⟩ : ∃ w, w = encR 1 rs2 rs1 3 rd 12 := ⟨_, rfl⟩
  have A : Asm 1 rs2.val rs1.val 3 rd.val 12 w := ⟨by rw [hw]; first | decide | (simp only [encR] <;> omega), by decide, by omega, by omega, by decide, by omega, by decide⟩
  have f0 : bits w 6 2 = 12 := (b_6_2 A).trans (rfl)
  have f1 : bits w 14 12 = 3 := (b_14_12 A).trans (rfl)
  have f2 : bits w 31 25 = 1 := (b_31_25 A).trans (rfl)
  have f3 : bits w 27 25 = 1 := (b_27_25 A).trans (rfl)
  have f4 : rg w 15 = rs1 := r_15_32 A rs1 (by omega)
  have f5 : rg w 20 = rs2 := r_20_32 A rs2 (by omega)
  have f6 : rg w 7 = rd := r_7_32 A rd (by omega)
  have f7 : laOf w = (0 : Fin 16) := r_28_16 A (0 : Fin 16) (rfl)
  obtain ⟨w0, w4, wx⟩ := word_ok A (by decide)
  refine single _ w rfl hw.symm w0 w4 wx ?_ rfl
  simp only [decMajor, decOp, f0, f1, f2, f3, f4, f5, f6, f7] <;> (try simp [failIf, withScope, port, scope_of, tint_of, tflt_of, fmt_of, cond_of, cmpFmt_of, partOk_eq, tflt_ne, tint_ne]) <;> (repeat' split) <;> first | rfl | (exfalso; omega)

theorem addw (rd : Reg) (rs1 : Reg) (rs2 : Reg) : Statement (.addw rd rs1 rs2) := by
  intro _ hwf
  have := rd.isLt
  have := rs1.isLt
  have := rs2.isLt
  obtain ⟨w, hw⟩ : ∃ w, w = encR 0 rs2 rs1 0 rd 14 := ⟨_, rfl⟩
  have A : Asm 0 rs2.val rs1.val 0 rd.val 14 w := ⟨by rw [hw]; first | decide | (simp only [encR] <;> omega), by decide, by omega, by omega, by decide, by omega, by decide⟩
  have f0 : bits w 6 2 = 14 := (b_6_2 A).trans (rfl)
  have f1 : bits w 14 12 = 0 := (b_14_12 A).trans (rfl)
  have f2 : bits w 31 25 = 0 := (b_31_25 A).trans (rfl)
  have f3 : bits w 27 25 = 0 := (b_27_25 A).trans (rfl)
  have f4 : rg w 15 = rs1 := r_15_32 A rs1 (by omega)
  have f5 : rg w 20 = rs2 := r_20_32 A rs2 (by omega)
  have f6 : rg w 7 = rd := r_7_32 A rd (by omega)
  have f7 : laOf w = (0 : Fin 16) := r_28_16 A (0 : Fin 16) (rfl)
  obtain ⟨w0, w4, wx⟩ := word_ok A (by decide)
  refine single _ w rfl hw.symm w0 w4 wx ?_ rfl
  simp only [decMajor, decOp32, f0, f1, f2, f3, f4, f5, f6, f7] <;> (try simp [failIf, withScope, port, scope_of, tint_of, tflt_of, fmt_of, cond_of, cmpFmt_of, partOk_eq, tflt_ne, tint_ne]) <;> (repeat' split) <;> first | rfl | (exfalso; omega)

theorem subw (rd : Reg) (rs1 : Reg) (rs2 : Reg) : Statement (.subw rd rs1 rs2) := by
  intro _ hwf
  have := rd.isLt
  have := rs1.isLt
  have := rs2.isLt
  obtain ⟨w, hw⟩ : ∃ w, w = encR 32 rs2 rs1 0 rd 14 := ⟨_, rfl⟩
  have A : Asm 32 rs2.val rs1.val 0 rd.val 14 w := ⟨by rw [hw]; first | decide | (simp only [encR] <;> omega), by decide, by omega, by omega, by decide, by omega, by decide⟩
  have f0 : bits w 6 2 = 14 := (b_6_2 A).trans (rfl)
  have f1 : bits w 14 12 = 0 := (b_14_12 A).trans (rfl)
  have f2 : bits w 31 25 = 32 := (b_31_25 A).trans (rfl)
  have f3 : bits w 27 25 = 0 := (b_27_25 A).trans (rfl)
  have f4 : rg w 15 = rs1 := r_15_32 A rs1 (by omega)
  have f5 : rg w 20 = rs2 := r_20_32 A rs2 (by omega)
  have f6 : rg w 7 = rd := r_7_32 A rd (by omega)
  have f7 : laOf w = (4 : Fin 16) := r_28_16 A (4 : Fin 16) (rfl)
  obtain ⟨w0, w4, wx⟩ := word_ok A (by decide)
  refine single _ w rfl hw.symm w0 w4 wx ?_ rfl
  simp only [decMajor, decOp32, f0, f1, f2, f3, f4, f5, f6, f7] <;> (try simp [failIf, withScope, port, scope_of, tint_of, tflt_of, fmt_of, cond_of, cmpFmt_of, partOk_eq, tflt_ne, tint_ne]) <;> (repeat' split) <;> first | rfl | (exfalso; omega)

theorem sllw (rd : Reg) (rs1 : Reg) (rs2 : Reg) : Statement (.sllw rd rs1 rs2) := by
  intro _ hwf
  have := rd.isLt
  have := rs1.isLt
  have := rs2.isLt
  obtain ⟨w, hw⟩ : ∃ w, w = encR 0 rs2 rs1 1 rd 14 := ⟨_, rfl⟩
  have A : Asm 0 rs2.val rs1.val 1 rd.val 14 w := ⟨by rw [hw]; first | decide | (simp only [encR] <;> omega), by decide, by omega, by omega, by decide, by omega, by decide⟩
  have f0 : bits w 6 2 = 14 := (b_6_2 A).trans (rfl)
  have f1 : bits w 14 12 = 1 := (b_14_12 A).trans (rfl)
  have f2 : bits w 31 25 = 0 := (b_31_25 A).trans (rfl)
  have f3 : bits w 27 25 = 0 := (b_27_25 A).trans (rfl)
  have f4 : rg w 15 = rs1 := r_15_32 A rs1 (by omega)
  have f5 : rg w 20 = rs2 := r_20_32 A rs2 (by omega)
  have f6 : rg w 7 = rd := r_7_32 A rd (by omega)
  have f7 : laOf w = (0 : Fin 16) := r_28_16 A (0 : Fin 16) (rfl)
  obtain ⟨w0, w4, wx⟩ := word_ok A (by decide)
  refine single _ w rfl hw.symm w0 w4 wx ?_ rfl
  simp only [decMajor, decOp32, f0, f1, f2, f3, f4, f5, f6, f7] <;> (try simp [failIf, withScope, port, scope_of, tint_of, tflt_of, fmt_of, cond_of, cmpFmt_of, partOk_eq, tflt_ne, tint_ne]) <;> (repeat' split) <;> first | rfl | (exfalso; omega)

theorem srlw (rd : Reg) (rs1 : Reg) (rs2 : Reg) : Statement (.srlw rd rs1 rs2) := by
  intro _ hwf
  have := rd.isLt
  have := rs1.isLt
  have := rs2.isLt
  obtain ⟨w, hw⟩ : ∃ w, w = encR 0 rs2 rs1 5 rd 14 := ⟨_, rfl⟩
  have A : Asm 0 rs2.val rs1.val 5 rd.val 14 w := ⟨by rw [hw]; first | decide | (simp only [encR] <;> omega), by decide, by omega, by omega, by decide, by omega, by decide⟩
  have f0 : bits w 6 2 = 14 := (b_6_2 A).trans (rfl)
  have f1 : bits w 14 12 = 5 := (b_14_12 A).trans (rfl)
  have f2 : bits w 31 25 = 0 := (b_31_25 A).trans (rfl)
  have f3 : bits w 27 25 = 0 := (b_27_25 A).trans (rfl)
  have f4 : rg w 15 = rs1 := r_15_32 A rs1 (by omega)
  have f5 : rg w 20 = rs2 := r_20_32 A rs2 (by omega)
  have f6 : rg w 7 = rd := r_7_32 A rd (by omega)
  have f7 : laOf w = (0 : Fin 16) := r_28_16 A (0 : Fin 16) (rfl)
  obtain ⟨w0, w4, wx⟩ := word_ok A (by decide)
  refine single _ w rfl hw.symm w0 w4 wx ?_ rfl
  simp only [decMajor, decOp32, f0, f1, f2, f3, f4, f5, f6, f7] <;> (try simp [failIf, withScope, port, scope_of, tint_of, tflt_of, fmt_of, cond_of, cmpFmt_of, partOk_eq, tflt_ne, tint_ne]) <;> (repeat' split) <;> first | rfl | (exfalso; omega)

theorem sraw (rd : Reg) (rs1 : Reg) (rs2 : Reg) : Statement (.sraw rd rs1 rs2) := by
  intro _ hwf
  have := rd.isLt
  have := rs1.isLt
  have := rs2.isLt
  obtain ⟨w, hw⟩ : ∃ w, w = encR 32 rs2 rs1 5 rd 14 := ⟨_, rfl⟩
  have A : Asm 32 rs2.val rs1.val 5 rd.val 14 w := ⟨by rw [hw]; first | decide | (simp only [encR] <;> omega), by decide, by omega, by omega, by decide, by omega, by decide⟩
  have f0 : bits w 6 2 = 14 := (b_6_2 A).trans (rfl)
  have f1 : bits w 14 12 = 5 := (b_14_12 A).trans (rfl)
  have f2 : bits w 31 25 = 32 := (b_31_25 A).trans (rfl)
  have f3 : bits w 27 25 = 0 := (b_27_25 A).trans (rfl)
  have f4 : rg w 15 = rs1 := r_15_32 A rs1 (by omega)
  have f5 : rg w 20 = rs2 := r_20_32 A rs2 (by omega)
  have f6 : rg w 7 = rd := r_7_32 A rd (by omega)
  have f7 : laOf w = (4 : Fin 16) := r_28_16 A (4 : Fin 16) (rfl)
  obtain ⟨w0, w4, wx⟩ := word_ok A (by decide)
  refine single _ w rfl hw.symm w0 w4 wx ?_ rfl
  simp only [decMajor, decOp32, f0, f1, f2, f3, f4, f5, f6, f7] <;> (try simp [failIf, withScope, port, scope_of, tint_of, tflt_of, fmt_of, cond_of, cmpFmt_of, partOk_eq, tflt_ne, tint_ne]) <;> (repeat' split) <;> first | rfl | (exfalso; omega)

theorem mulw (rd : Reg) (rs1 : Reg) (rs2 : Reg) : Statement (.mulw rd rs1 rs2) := by
  intro _ hwf
  have := rd.isLt
  have := rs1.isLt
  have := rs2.isLt
  obtain ⟨w, hw⟩ : ∃ w, w = encR 1 rs2 rs1 0 rd 14 := ⟨_, rfl⟩
  have A : Asm 1 rs2.val rs1.val 0 rd.val 14 w := ⟨by rw [hw]; first | decide | (simp only [encR] <;> omega), by decide, by omega, by omega, by decide, by omega, by decide⟩
  have f0 : bits w 6 2 = 14 := (b_6_2 A).trans (rfl)
  have f1 : bits w 14 12 = 0 := (b_14_12 A).trans (rfl)
  have f2 : bits w 31 25 = 1 := (b_31_25 A).trans (rfl)
  have f3 : bits w 27 25 = 1 := (b_27_25 A).trans (rfl)
  have f4 : rg w 15 = rs1 := r_15_32 A rs1 (by omega)
  have f5 : rg w 20 = rs2 := r_20_32 A rs2 (by omega)
  have f6 : rg w 7 = rd := r_7_32 A rd (by omega)
  have f7 : laOf w = (0 : Fin 16) := r_28_16 A (0 : Fin 16) (rfl)
  obtain ⟨w0, w4, wx⟩ := word_ok A (by decide)
  refine single _ w rfl hw.symm w0 w4 wx ?_ rfl
  simp only [decMajor, decOp32, f0, f1, f2, f3, f4, f5, f6, f7] <;> (try simp [failIf, withScope, port, scope_of, tint_of, tflt_of, fmt_of, cond_of, cmpFmt_of, partOk_eq, tflt_ne, tint_ne]) <;> (repeat' split) <;> first | rfl | (exfalso; omega)

theorem addi (rd : Reg) (rs1 : Reg) (imm : Int) : Statement (.addi rd rs1 imm) := by
  intro _ hwf
  have h2 : (inRange 12 imm) = true := (Bool.and_eq_true_iff.mp hwf).2
  have := rd.isLt
  have := rs1.isLt
  have := ux_lt 12 imm
  obtain ⟨w, hw⟩ : ∃ w, w = encI (ux 12 imm) rs1 0 rd 4 := ⟨_, rfl⟩
  have A : Asm ((ux 12 imm) / 32) ((ux 12 imm) % 32) rs1.val 0 rd.val 4 w := ⟨by rw [hw]; first | decide | (simp only [encI] <;> omega), by omega, by omega, by omega, by decide, by omega, by decide⟩
  have f0 : bits w 6 2 = 4 := (b_6_2 A).trans (rfl)
  have f1 : bits w 14 12 = 0 := (b_14_12 A).trans (rfl)
  have f2 : rg w 15 = rs1 := r_15_32 A rs1 (by omega)
  have f3 : rg w 7 = rd := r_7_32 A rd (by omega)
  have f4 : immI w = imm := i_immI A imm (h2) (by omega)
  obtain ⟨w0, w4, wx⟩ := word_ok A (by decide)
  refine single _ w rfl hw.symm w0 w4 wx ?_ rfl
  try simp [plain] at h2
  simp only [decMajor, decOpImm, f0, f1, f2, f3, f4] <;> (try simp [failIf, withScope, port, scope_of, tint_of, tflt_of, fmt_of, cond_of, cmpFmt_of, partOk_eq, tflt_ne, tint_ne, h2]) <;> (repeat' split) <;> first | rfl | (exfalso; omega)

theorem slti (rd : Reg) (rs1 : Reg) (imm : Int) : Statement (.slti rd rs1 imm) := by
  intro _ hwf
  have h2 : (inRange 12 imm) = true := (Bool.and_eq_true_iff.mp hwf).2
  have := rd.isLt
  have := rs1.isLt
  have := ux_lt 12 imm
  obtain ⟨w, hw⟩ : ∃ w, w = encI (ux 12 imm) rs1 2 rd 4 := ⟨_, rfl⟩
  have A : Asm ((ux 12 imm) / 32) ((ux 12 imm) % 32) rs1.val 2 rd.val 4 w := ⟨by rw [hw]; first | decide | (simp only [encI] <;> omega), by omega, by omega, by omega, by decide, by omega, by decide⟩
  have f0 : bits w 6 2 = 4 := (b_6_2 A).trans (rfl)
  have f1 : bits w 14 12 = 2 := (b_14_12 A).trans (rfl)
  have f2 : rg w 15 = rs1 := r_15_32 A rs1 (by omega)
  have f3 : rg w 7 = rd := r_7_32 A rd (by omega)
  have f4 : immI w = imm := i_immI A imm (h2) (by omega)
  obtain ⟨w0, w4, wx⟩ := word_ok A (by decide)
  refine single _ w rfl hw.symm w0 w4 wx ?_ rfl
  try simp [plain] at h2
  simp only [decMajor, decOpImm, f0, f1, f2, f3, f4] <;> (try simp [failIf, withScope, port, scope_of, tint_of, tflt_of, fmt_of, cond_of, cmpFmt_of, partOk_eq, tflt_ne, tint_ne, h2]) <;> (repeat' split) <;> first | rfl | (exfalso; omega)

theorem sltiu (rd : Reg) (rs1 : Reg) (imm : Int) : Statement (.sltiu rd rs1 imm) := by
  intro _ hwf
  have h2 : (inRange 12 imm) = true := (Bool.and_eq_true_iff.mp hwf).2
  have := rd.isLt
  have := rs1.isLt
  have := ux_lt 12 imm
  obtain ⟨w, hw⟩ : ∃ w, w = encI (ux 12 imm) rs1 3 rd 4 := ⟨_, rfl⟩
  have A : Asm ((ux 12 imm) / 32) ((ux 12 imm) % 32) rs1.val 3 rd.val 4 w := ⟨by rw [hw]; first | decide | (simp only [encI] <;> omega), by omega, by omega, by omega, by decide, by omega, by decide⟩
  have f0 : bits w 6 2 = 4 := (b_6_2 A).trans (rfl)
  have f1 : bits w 14 12 = 3 := (b_14_12 A).trans (rfl)
  have f2 : rg w 15 = rs1 := r_15_32 A rs1 (by omega)
  have f3 : rg w 7 = rd := r_7_32 A rd (by omega)
  have f4 : immI w = imm := i_immI A imm (h2) (by omega)
  obtain ⟨w0, w4, wx⟩ := word_ok A (by decide)
  refine single _ w rfl hw.symm w0 w4 wx ?_ rfl
  try simp [plain] at h2
  simp only [decMajor, decOpImm, f0, f1, f2, f3, f4] <;> (try simp [failIf, withScope, port, scope_of, tint_of, tflt_of, fmt_of, cond_of, cmpFmt_of, partOk_eq, tflt_ne, tint_ne, h2]) <;> (repeat' split) <;> first | rfl | (exfalso; omega)

theorem xori (rd : Reg) (rs1 : Reg) (imm : Int) : Statement (.xori rd rs1 imm) := by
  intro _ hwf
  have h2 : (inRange 12 imm) = true := (Bool.and_eq_true_iff.mp hwf).2
  have := rd.isLt
  have := rs1.isLt
  have := ux_lt 12 imm
  obtain ⟨w, hw⟩ : ∃ w, w = encI (ux 12 imm) rs1 4 rd 4 := ⟨_, rfl⟩
  have A : Asm ((ux 12 imm) / 32) ((ux 12 imm) % 32) rs1.val 4 rd.val 4 w := ⟨by rw [hw]; first | decide | (simp only [encI] <;> omega), by omega, by omega, by omega, by decide, by omega, by decide⟩
  have f0 : bits w 6 2 = 4 := (b_6_2 A).trans (rfl)
  have f1 : bits w 14 12 = 4 := (b_14_12 A).trans (rfl)
  have f2 : rg w 15 = rs1 := r_15_32 A rs1 (by omega)
  have f3 : rg w 7 = rd := r_7_32 A rd (by omega)
  have f4 : immI w = imm := i_immI A imm (h2) (by omega)
  obtain ⟨w0, w4, wx⟩ := word_ok A (by decide)
  refine single _ w rfl hw.symm w0 w4 wx ?_ rfl
  try simp [plain] at h2
  simp only [decMajor, decOpImm, f0, f1, f2, f3, f4] <;> (try simp [failIf, withScope, port, scope_of, tint_of, tflt_of, fmt_of, cond_of, cmpFmt_of, partOk_eq, tflt_ne, tint_ne, h2]) <;> (repeat' split) <;> first | rfl | (exfalso; omega)

theorem ori (rd : Reg) (rs1 : Reg) (imm : Int) : Statement (.ori rd rs1 imm) := by
  intro _ hwf
  have h2 : (inRange 12 imm) = true := (Bool.and_eq_true_iff.mp hwf).2
  have := rd.isLt
  have := rs1.isLt
  have := ux_lt 12 imm
  obtain ⟨w, hw⟩ : ∃ w, w = encI (ux 12 imm) rs1 6 rd 4 := ⟨_, rfl⟩
  have A : Asm ((ux 12 imm) / 32) ((ux 12 imm) % 32) rs1.val 6 rd.val 4 w := ⟨by rw [hw]; first | decide | (simp only [encI] <;> omega), by omega, by omega, by omega, by decide, by omega, by decide⟩
  have f0 : bits w 6 2 = 4 := (b_6_2 A).trans (rfl)
  have f1 : bits w 14 12 = 6 := (b_14_12 A).trans (rfl)
  have f2 : rg w 15 = rs1 := r_15_32 A rs1 (by omega)
  have f3 : rg w 7 = rd := r_7_32 A rd (by omega)
  have f4 : immI w = imm := i_immI A imm (h2) (by omega)
  obtain ⟨w0, w4, wx⟩ := word_ok A (by decide)
  refine single _ w rfl hw.symm w0 w4 wx ?_ rfl
  try simp [plain] at h2
  simp only [decMajor, decOpImm, f0, f1, f2, f3, f4] <;> (try simp [failIf, withScope, port, scope_of, tint_of, tflt_of, fmt_of, cond_of, cmpFmt_of, partOk_eq, tflt_ne, tint_ne, h2]) <;> (repeat' split) <;> first | rfl | (exfalso; omega)

theorem andi (rd : Reg) (rs1 : Reg) (imm : Int) : Statement (.andi rd rs1 imm) := by
  intro _ hwf
  have h2 : (inRange 12 imm) = true := (Bool.and_eq_true_iff.mp hwf).2
  have := rd.isLt
  have := rs1.isLt
  have := ux_lt 12 imm
  obtain ⟨w, hw⟩ : ∃ w, w = encI (ux 12 imm) rs1 7 rd 4 := ⟨_, rfl⟩
  have A : Asm ((ux 12 imm) / 32) ((ux 12 imm) % 32) rs1.val 7 rd.val 4 w := ⟨by rw [hw]; first | decide | (simp only [encI] <;> omega), by omega, by omega, by omega, by decide, by omega, by decide⟩
  have f0 : bits w 6 2 = 4 := (b_6_2 A).trans (rfl)
  have f1 : bits w 14 12 = 7 := (b_14_12 A).trans (rfl)
  have f2 : rg w 15 = rs1 := r_15_32 A rs1 (by omega)
  have f3 : rg w 7 = rd := r_7_32 A rd (by omega)
  have f4 : immI w = imm := i_immI A imm (h2) (by omega)
  obtain ⟨w0, w4, wx⟩ := word_ok A (by decide)
  refine single _ w rfl hw.symm w0 w4 wx ?_ rfl
  try simp [plain] at h2
  simp only [decMajor, decOpImm, f0, f1, f2, f3, f4] <;> (try simp [failIf, withScope, port, scope_of, tint_of, tflt_of, fmt_of, cond_of, cmpFmt_of, partOk_eq, tflt_ne, tint_ne, h2]) <;> (repeat' split) <;> first | rfl | (exfalso; omega)

theorem slli (rd : Reg) (rs1 : Reg) (sh : Fin 64) : Statement (.slli rd rs1 sh) := by
  intro _ hwf
  have := rd.isLt
  have := rs1.isLt
  have := sh.isLt
  obtain ⟨w, hw⟩ : ∃ w, w = encI sh.val rs1 1 rd 4 := ⟨_, rfl⟩
  have A : Asm (sh.val / 32) (sh.val % 32) rs1.val 1 rd.val 4 w := ⟨by rw [hw]; first | decide | (simp only [encI] <;> omega), by omega, by omega, by omega, by decide, by omega, by decide⟩
  have f0 : bits w 6 2 = 4 := (b_6_2 A).trans (rfl)
  have f1 : bits w 14 12 = 1 := (b_14_12 A).trans (rfl)
  have f2 : bits w 31 26 = 0 := (b_31_26 A).trans (by omega)
  have f3 : rg w 15 = rs1 := r_15_32 A rs1 (by omega)
  have f4 : rg w 7 = rd := r_7_32 A rd (by omega)
  have f5 : Fin.ofNat 64 (w / 2 ^ 20) = sh := r_20_64 A sh (by omega)
  obtain ⟨w0, w4, wx⟩ := word_ok A (by decide)
  refine single _ w rfl hw.symm w0 w4 wx ?_ rfl
  simp only [decMajor, decOpImm, f0, f1, f2, f3, f4, f5] <;> (try simp [failIf, withScope, port, scope_of, tint_of, tflt_of, fmt_of, cond_of, cmpFmt_of, partOk_eq, tflt_ne, tint_ne]) <;> (repeat' split) <;> first | rfl | (exfalso; omega)

theorem srli (rd : Reg) (rs1 : Reg) (sh : Fin 64) : Statement (.srli rd rs1 sh) := by
  intro _ hwf
  have := rd.isLt
  have := rs1.isLt
  have := sh.isLt
  obtain ⟨w, hw⟩ : ∃ w, w = encI sh.val rs1 5 rd 4 := ⟨_, rfl⟩
  have A : Asm (sh.val / 32) (sh.val % 32) rs1.val 5 rd.val 4 w := ⟨by rw [hw]; first | decide | (simp only [encI] <;> omega), by omega, by omega, by omega, by decide, by omega, by decide⟩
  have f0 : bits w 6 2 = 4 := (b_6_2 A).trans (rfl)
  have f1 : bits w 14 12 = 5 := (b_14_12 A).trans (rfl)
  have f2 : bits w 31 26 = 0 := (b_31_26 A).trans (by omega)
  have f3 : rg w 15 = rs1 := r_15_32 A rs1 (by omega)
  have f4 : rg w 7 = rd := r_7_32 A rd (by omega)
  have f5 : Fin.ofNat 64 (w / 2 ^ 20) = sh := r_20_64 A sh (by omega)
  obtain ⟨w0, w4, wx⟩ := word_ok A (by decide)
  refine single _ w rfl hw.symm w0 w4 wx ?_ rfl
  simp only [decMajor, decOpImm, f0, f1, f2, f3, f4, f5] <;> (try simp [failIf, withScope, port, scope_of, tint_of, tflt_of, fmt_of, cond_of, cmpFmt_of, partOk_eq, tflt_ne, tint_ne]) <;> (repeat' split) <;> first | rfl | (exfalso; omega)

theorem srai (rd : Reg) (rs1 : Reg) (sh : Fin 64) : Statement (.srai rd rs1 sh) := by
  intro _ hwf
  have := rd.isLt
  have := rs1.isLt
  have := sh.isLt
  obtain ⟨w, hw⟩ : ∃ w, w = encI (1024 + sh.val) rs1 5 rd 4 := ⟨_, rfl⟩
  have A : Asm ((1024 + sh.val) / 32) ((1024 + sh.val) % 32) rs1.val 5 rd.val 4 w := ⟨by rw [hw]; first | decide | (simp only [encI] <;> omega), by omega, by omega, by omega, by decide, by omega, by decide⟩
  have f0 : bits w 6 2 = 4 := (b_6_2 A).trans (rfl)
  have f1 : bits w 14 12 = 5 := (b_14_12 A).trans (rfl)
  have f2 : bits w 31 26 = 16 := (b_31_26 A).trans (by omega)
  have f3 : rg w 15 = rs1 := r_15_32 A rs1 (by omega)
  have f4 : rg w 7 = rd := r_7_32 A rd (by omega)
  have f5 : Fin.ofNat 64 (w / 2 ^ 20) = sh := r_20_64 A sh (by omega)
  obtain ⟨w0, w4, wx⟩ := word_ok A (by decide)
  refine single _ w rfl hw.symm w0 w4 wx ?_ rfl
  simp only [decMajor, decOpImm, f0, f1, f2, f3, f4, f5] <;> (try simp [failIf, withScope, port, scope_of, tint_of, tflt_of, fmt_of, cond_of, cmpFmt_of, partOk_eq, tflt_ne, tint_ne]) <;> (repeat' split) <;> first | rfl | (exfalso; omega)

theorem addiw (rd : Reg) (rs1 : Reg) (imm : Int) : Statement (.addiw rd rs1 imm) := by
  intro _ hwf
  have h2 : (inRange 12 imm) = true := (Bool.and_eq_true_iff.mp hwf).2
  have := rd.isLt
  have := rs1.isLt
  have := ux_lt 12 imm
  obtain ⟨w, hw⟩ : ∃ w, w = encI (ux 12 imm) rs1 0 rd 6 := ⟨_, rfl⟩
  have A : Asm ((ux 12 imm) / 32) ((ux 12 imm) % 32) rs1.val 0 rd.val 6 w := ⟨by rw [hw]; first | decide | (simp only [encI] <;> omega), by omega, by omega, by omega, by decide, by omega, by decide⟩
  have f0 : bits w 6 2 = 6 := (b_6_2 A).trans (rfl)
  have f1 : bits w 14 12 = 0 := (b_14_12 A).trans (rfl)
  have f2 : rg w 15 = rs1 := r_15_32 A rs1 (by omega)
  have f3 : rg w 7 = rd := r_7_32 A rd (by omega)
  have f4 : immI w = imm := i_immI A imm (h2) (by omega)
  obtain ⟨w0, w4, wx⟩ := word_ok A (by decide)
  refine single _ w rfl hw.symm w0 w4 wx ?_ rfl
  try simp [plain] at h2
  simp only [decMajor, decOpImm32, f0, f1, f2, f3, f4] <;> (try simp [failIf, withScope, port, scope_of, tint_of, tflt_of, fmt_of, cond_of, cmpFmt_of, partOk_eq, tflt_ne, tint_ne, h2]) <;> (repeat' split) <;> first | rfl | (exfalso; omega)

theorem slliw (rd : Reg) (rs1 : Reg) (sh : Fin 32) : Statement (.slliw rd rs1 sh) := by
  intro _ hwf
  have := rd.isLt
  have := rs1.isLt
  have := sh.isLt
  obtain ⟨w, hw⟩ : ∃ w, w = encI sh.val rs1 1 rd 6 := ⟨_, rfl⟩
  have A : Asm (sh.val / 32) (sh.val % 32) rs1.val 1 rd.val 6 w := ⟨by rw [hw]; first | decide | (simp only [encI] <;> omega), by omega, by omega, by omega, by decide, by omega, by decide⟩
  have f0 : bits w 6 2 = 6 := (b_6_2 A).trans (rfl)
  have f1 : bits w 14 12 = 1 := (b_14_12 A).trans (rfl)
  have f2 : bits w 31 25 = 0 := (b_31_25 A).trans (by omega)
  have f3 : rg w 15 = rs1 := r_15_32 A rs1 (by omega)
  have f4 : rg w 7 = rd := r_7_32 A rd (by omega)
  have f5 : Fin.ofNat 32 (w / 2 ^ 20) = sh := r_20_32 A sh (by omega)
  obtain ⟨w0, w4, wx⟩ := word_ok A (by decide)
  refine single _ w rfl hw.symm w0 w4 wx ?_ rfl
  simp only [decMajor, decOpImm32, f0, f1, f2, f3, f4, f5] <;> (try simp [failIf, withScope, port, scope_of, tint_of, tflt_of, fmt_of, cond_of, cmpFmt_of, partOk_eq, tflt_ne, tint_ne]) <;> (repeat' split) <;> first | rfl | (exfalso; omega)

theorem srliw (rd : Reg) (rs1 : Reg) (sh : Fin 32) : Statement (.srliw rd rs1 sh) := by
  intro _ hwf
  have := rd.isLt
  have := rs1.isLt
  have := sh.isLt
  obtain ⟨w, hw⟩ : ∃ w, w = encI sh.val rs1 5 rd 6 := ⟨_, rfl⟩
  have A : Asm (sh.val / 32) (sh.val % 32) rs1.val 5 rd.val 6 w := ⟨by rw [hw]; first | decide | (simp only [encI] <;> omega), by omega, by omega, by omega, by decide, by omega, by decide⟩
  have f0 : bits w 6 2 = 6 := (b_6_2 A).trans (rfl)
  have f1 : bits w 14 12 = 5 := (b_14_12 A).trans (rfl)
  have f2 : bits w 31 25 = 0 := (b_31_25 A).trans (by omega)
  have f3 : rg w 15 = rs1 := r_15_32 A rs1 (by omega)
  have f4 : rg w 7 = rd := r_7_32 A rd (by omega)
  have f5 : Fin.ofNat 32 (w / 2 ^ 20) = sh := r_20_32 A sh (by omega)
  obtain ⟨w0, w4, wx⟩ := word_ok A (by decide)
  refine single _ w rfl hw.symm w0 w4 wx ?_ rfl
  simp only [decMajor, decOpImm32, f0, f1, f2, f3, f4, f5] <;> (try simp [failIf, withScope, port, scope_of, tint_of, tflt_of, fmt_of, cond_of, cmpFmt_of, partOk_eq, tflt_ne, tint_ne]) <;> (repeat' split) <;> first | rfl | (exfalso; omega)

theorem sraiw (rd : Reg) (rs1 : Reg) (sh : Fin 32) : Statement (.sraiw rd rs1 sh) := by
  intro _ hwf
  have := rd.isLt
  have := rs1.isLt
  have := sh.isLt
  obtain ⟨w, hw⟩ : ∃ w, w = encI (1024 + sh.val) rs1 5 rd 6 := ⟨_, rfl⟩
  have A : Asm ((1024 + sh.val) / 32) ((1024 + sh.val) % 32) rs1.val 5 rd.val 6 w := ⟨by rw [hw]; first | decide | (simp only [encI] <;> omega), by omega, by omega, by omega, by decide, by omega, by decide⟩
  have f0 : bits w 6 2 = 6 := (b_6_2 A).trans (rfl)
  have f1 : bits w 14 12 = 5 := (b_14_12 A).trans (rfl)
  have f2 : bits w 31 25 = 32 := (b_31_25 A).trans (by omega)
  have f3 : rg w 15 = rs1 := r_15_32 A rs1 (by omega)
  have f4 : rg w 7 = rd := r_7_32 A rd (by omega)
  have f5 : Fin.ofNat 32 (w / 2 ^ 20) = sh := r_20_32 A sh (by omega)
  obtain ⟨w0, w4, wx⟩ := word_ok A (by decide)
  refine single _ w rfl hw.symm w0 w4 wx ?_ rfl
  simp only [decMajor, decOpImm32, f0, f1, f2, f3, f4, f5] <;> (try simp [failIf, withScope, port, scope_of, tint_of, tflt_of, fmt_of, cond_of, cmpFmt_of, partOk_eq, tflt_ne, tint_ne]) <;> (repeat' split) <;> first | rfl | (exfalso; omega)

theorem lui (rd : Reg) (imm : Fin 1048576) : Statement (.lui rd imm) := by
  intro _ hwf
  have := rd.isLt
  have := imm.isLt
  obtain ⟨w, hw⟩ : ∃ w, w = encU imm.val rd 13 := ⟨_, rfl⟩
  have A : Asm (imm.val / 2 ^ 13) (imm.val / 2 ^ 8 % 32) (imm.val / 2 ^ 3 % 32) (imm.val % 8) rd.val 13 w := ⟨by rw [hw]; first | decide | (simp only [encU] <;> omega), by omega, by omega, by omega, by omega, by omega, by decide⟩
  have f0 : bits w 6 2 = 13 := (b_6_2 A).trans (rfl)
  have f1 : rg w 7 = rd := r_7_32 A rd (by omega)
  have f2 : Fin.ofNat 1048576 (w / 2 ^ 12) = imm := r_12_1048576 A imm (by omega)
  obtain ⟨w0, w4, wx⟩ := word_ok A (by decide)
  refine single _ w rfl hw.symm w0 w4 wx ?_ rfl
  simp only [decMajor, f0, f1, f2] <;> (try simp [failIf, withScope, port, scope_of, tint_of, tflt_of, fmt_of, cond_of, cmpFmt_of, partOk_eq, tflt_ne, tint_ne]) <;> (repeat' split) <;> first | rfl | (exfalso; omega)

theorem auipc (rd : Reg) (imm : Fin 1048576) : Statement (.auipc rd imm) := by
  intro _ hwf
  have := rd.isLt
  have := imm.isLt
  obtain ⟨w, hw⟩ : ∃ w, w = encU imm.val rd 5 := ⟨_, rfl⟩
  have A : Asm (imm.val / 2 ^ 13) (imm.val / 2 ^ 8 % 32) (imm.val / 2 ^ 3 % 32) (imm.val % 8) rd.val 5 w := ⟨by rw [hw]; first | decide | (simp only [encU] <;> omega), by omega, by omega, by omega, by omega, by omega, by decide⟩
  have f0 : bits w 6 2 = 5 := (b_6_2 A).trans (rfl)
  have f1 : rg w 7 = rd := r_7_32 A rd (by omega)
  have f2 : Fin.ofNat 1048576 (w / 2 ^ 12) = imm := r_12_1048576 A imm (by omega)
  obtain ⟨w0, w4, wx⟩ := word_ok A (by decide)
  refine single _ w rfl hw.symm w0 w4 wx ?_ rfl
  simp only [decMajor, f0, f1, f2] <;> (try simp [failIf, withScope, port, scope_of, tint_of, tflt_of, fmt_of, cond_of, cmpFmt_of, partOk_eq, tflt_ne, tint_ne]) <;> (repeat' split) <;> first | rfl | (exfalso; omega)

theorem div (rd : Reg) (rs1 : Reg) (rs2 : Reg) (la : La) : Statement (.div rd rs1 rs2 la) := by
  intro _ hwf
  have h2 : (plain rd) = true := (Bool.and_eq_true_iff.mp hwf).2
  have := rd.isLt
  have := rs1.isLt
  have := rs2.isLt
  have := la.isLt
  obtain ⟨w, hw⟩ : ∃ w, w = encV la.val 7 rs2 rs1 0 rd 12 := ⟨_, rfl⟩
  have A : Asm (la.val * 8 + 7) rs2.val rs1.val 0 rd.val 12 w := ⟨by rw [hw]; first | decide | (simp only [encV] <;> omega), by omega, by omega, by omega, by decide, by omega, by decide⟩
  have f0 : bits w 6 2 = 12 := (b_6_2 A).trans (rfl)
  have f1 : bits w 14 12 = 0 := (b_14_12 A).trans (rfl)
  have f2 : bits w 27 25 = 7 := (b_27_25 A).trans (by omega)
  have f3 : rg w 15 = rs1 := r_15_32 A rs1 (by omega)
  have f4 : rg w 20 = rs2 := r_20_32 A rs2 (by omega)
  have f5 : rg w 7 = rd := r_7_32 A rd (by omega)
  have f6 : laOf w = la := r_28_16 A la (by omega)
  obtain ⟨w0, w4, wx⟩ := word_ok A (by decide)
  refine single _ w rfl hw.symm w0 w4 wx ?_ rfl
  try simp [plain] at h2
  simp only [decMajor, decOp, f0, f1, f2, f3, f4, f5, f6] <;> (try simp [failIf, withScope, port, scope_of, tint_of, tflt_of, fmt_of, cond_of, cmpFmt_of, partOk_eq, tflt_ne, tint_ne, h2]) <;> (repeat' split) <;> first | rfl | (exfalso; omega)

theorem divu (rd : Reg) (rs1 : Reg) (rs2 : Reg) (la : La) : Statement (.divu rd rs1 rs2 la) := by
  intro _ hwf
  have h2 : (plain rd) = true := (Bool.and_eq_true_iff.mp hwf).2
  have := rd.isLt
  have := rs1.isLt
  have := rs2.isLt
  have := la.isLt
  obtain ⟨w, hw⟩ : ∃ w, w = encV la.val 7 rs2 rs1 1 rd 12 := ⟨_, rfl⟩
  have A : Asm (la.val * 8 + 7) rs2.val rs1.val 1 rd.val 12 w := ⟨by rw [hw]; first | decide | (simp only [encV] <;> omega), by omega, by omega, by omega, by decide, by omega, by decide⟩
  have f0 : bits w 6 2 = 12 := (b_6_2 A).trans (rfl)
  have f1 : bits w 14 12 = 1 := (b_14_12 A).trans (rfl)
  have f2 : bits w 27 25 = 7 := (b_27_25 A).trans (by omega)
  have f3 : rg w 15 = rs1 := r_15_32 A rs1 (by omega)
  have f4 : rg w 20 = rs2 := r_20_32 A rs2 (by omega)
  have f5 : rg w 7 = rd := r_7_32 A rd (by omega)
  have f6 : laOf w = la := r_28_16 A la (by omega)
  obtain ⟨w0, w4, wx⟩ := word_ok A (by decide)
  refine single _ w rfl hw.symm w0 w4 wx ?_ rfl
  try simp [plain] at h2
  simp only [decMajor, decOp, f0, f1, f2, f3, f4, f5, f6] <;> (try simp [failIf, withScope, port, scope_of, tint_of, tflt_of, fmt_of, cond_of, cmpFmt_of, partOk_eq, tflt_ne, tint_ne, h2]) <;> (repeat' split) <;> first | rfl | (exfalso; omega)

theorem rem (rd : Reg) (rs1 : Reg) (rs2 : Reg) (la : La) : Statement (.rem rd rs1 rs2 la) := by
  intro _ hwf
  have h2 : (plain rd) = true := (Bool.and_eq_true_iff.mp hwf).2
  have := rd.isLt
  have := rs1.isLt
  have := rs2.isLt
  have := la.isLt
  obtain ⟨w, hw⟩ : ∃ w, w = encV la.val 7 rs2 rs1 2 rd 12 := ⟨_, rfl⟩
  have A : Asm (la.val * 8 + 7) rs2.val rs1.val 2 rd.val 12 w := ⟨by rw [hw]; first | decide | (simp only [encV] <;> omega), by omega, by omega, by omega, by decide, by omega, by decide⟩
  have f0 : bits w 6 2 = 12 := (b_6_2 A).trans (rfl)
  have f1 : bits w 14 12 = 2 := (b_14_12 A).trans (rfl)
  have f2 : bits w 27 25 = 7 := (b_27_25 A).trans (by omega)
  have f3 : rg w 15 = rs1 := r_15_32 A rs1 (by omega)
  have f4 : rg w 20 = rs2 := r_20_32 A rs2 (by omega)
  have f5 : rg w 7 = rd := r_7_32 A rd (by omega)
  have f6 : laOf w = la := r_28_16 A la (by omega)
  obtain ⟨w0, w4, wx⟩ := word_ok A (by decide)
  refine single _ w rfl hw.symm w0 w4 wx ?_ rfl
  try simp [plain] at h2
  simp only [decMajor, decOp, f0, f1, f2, f3, f4, f5, f6] <;> (try simp [failIf, withScope, port, scope_of, tint_of, tflt_of, fmt_of, cond_of, cmpFmt_of, partOk_eq, tflt_ne, tint_ne, h2]) <;> (repeat' split) <;> first | rfl | (exfalso; omega)

theorem remu (rd : Reg) (rs1 : Reg) (rs2 : Reg) (la : La) : Statement (.remu rd rs1 rs2 la) := by
  intro _ hwf
  have h2 : (plain rd) = true := (Bool.and_eq_true_iff.mp hwf).2
  have := rd.isLt
  have := rs1.isLt
  have := rs2.isLt
  have := la.isLt
  obtain ⟨w, hw⟩ : ∃ w, w = encV la.val 7 rs2 rs1 3 rd 12 := ⟨_, rfl⟩
  have A : Asm (la.val * 8 + 7) rs2.val rs1.val 3 rd.val 12 w := ⟨by rw [hw]; first | decide | (simp only [encV] <;> omega), by omega, by omega, by omega, by decide, by omega, by decide⟩
  have f0 : bits w 6 2 = 12 := (b_6_2 A).trans (rfl)
  have f1 : bits w 14 12 = 3 := (b_14_12 A).trans (rfl)
  have f2 : bits w 27 25 = 7 := (b_27_25 A).trans (by omega)
  have f3 : rg w 15 = rs1 := r_15_32 A rs1 (by omega)
  have f4 : rg w 20 = rs2 := r_20_32 A rs2 (by omega)
  have f5 : rg w 7 = rd := r_7_32 A rd (by omega)
  have f6 : laOf w = la := r_28_16 A la (by omega)
  obtain ⟨w0, w4, wx⟩ := word_ok A (by decide)
  refine single _ w rfl hw.symm w0 w4 wx ?_ rfl
  try simp [plain] at h2
  simp only [decMajor, decOp, f0, f1, f2, f3, f4, f5, f6] <;> (try simp [failIf, withScope, port, scope_of, tint_of, tflt_of, fmt_of, cond_of, cmpFmt_of, partOk_eq, tflt_ne, tint_ne, h2]) <;> (repeat' split) <;> first | rfl | (exfalso; omega)

theorem divw (rd : Reg) (rs1 : Reg) (rs2 : Reg) (la : La) : Statement (.divw rd rs1 rs2 la) := by
  intro _ hwf
  have h2 : (plain rd) = true := (Bool.and_eq_true_iff.mp hwf).2
  have := rd.isLt
  have := rs1.isLt
  have := rs2.isLt
  have := la.isLt
  obtain ⟨w, hw⟩ : ∃ w, w = encV la.val 7 rs2 rs1 0 rd 14 := ⟨_, rfl⟩
  have A : Asm (la.val * 8 + 7) rs2.val rs1.val 0 rd.val 14 w := ⟨by rw [hw]; first | decide | (simp only [encV] <;> omega), by omega, by omega, by omega, by decide, by omega, by decide⟩
  have f0 : bits w 6 2 = 14 := (b_6_2 A).trans (rfl)
  have f1 : bits w 14 12 = 0 := (b_14_12 A).trans (rfl)
  have f2 : bits w 27 25 = 7 := (b_27_25 A).trans (by omega)
  have f3 : rg w 15 = rs1 := r_15_32 A rs1 (by omega)
  have f4 : rg w 20 = rs2 := r_20_32 A rs2 (by omega)
  have f5 : rg w 7 = rd := r_7_32 A rd (by omega)
  have f6 : laOf w = la := r_28_16 A la (by omega)
  obtain ⟨w0, w4, wx⟩ := word_ok A (by decide)
  refine single _ w rfl hw.symm w0 w4 wx ?_ rfl
  try simp [plain] at h2
  simp only [decMajor, decOp32, f0, f1, f2, f3, f4, f5, f6] <;> (try simp [failIf, withScope, port, scope_of, tint_of, tflt_of, fmt_of, cond_of, cmpFmt_of, partOk_eq, tflt_ne, tint_ne, h2]) <;> (repeat' split) <;> first | rfl | (exfalso; omega)

theorem divuw (rd : Reg) (rs1 : Reg) (rs2 : Reg) (la : La) : Statement (.divuw rd rs1 rs2 la) := by
  intro _ hwf
  have h2 : (plain rd) = true := (Bool.and_eq_true_iff.mp hwf).2
  have := rd.isLt
  have := rs1.isLt
  have := rs2.isLt
  have := la.isLt
  obtain ⟨w, hw⟩ : ∃ w, w = encV la.val 7 rs2 rs1 1 rd 14 := ⟨_, rfl⟩
  have A : Asm (la.val * 8 + 7) rs2.val rs1.val 1 rd.val 14 w := ⟨by rw [hw]; first | decide | (simp only [encV] <;> omega), by omega, by omega, by omega, by decide, by omega, by decide⟩
  have f0 : bits w 6 2 = 14 := (b_6_2 A).trans (rfl)
  have f1 : bits w 14 12 = 1 := (b_14_12 A).trans (rfl)
  have f2 : bits w 27 25 = 7 := (b_27_25 A).trans (by omega)
  have f3 : rg w 15 = rs1 := r_15_32 A rs1 (by omega)
  have f4 : rg w 20 = rs2 := r_20_32 A rs2 (by omega)
  have f5 : rg w 7 = rd := r_7_32 A rd (by omega)
  have f6 : laOf w = la := r_28_16 A la (by omega)
  obtain ⟨w0, w4, wx⟩ := word_ok A (by decide)
  refine single _ w rfl hw.symm w0 w4 wx ?_ rfl
  try simp [plain] at h2
  simp only [decMajor, decOp32, f0, f1, f2, f3, f4, f5, f6] <;> (try simp [failIf, withScope, port, scope_of, tint_of, tflt_of, fmt_of, cond_of, cmpFmt_of, partOk_eq, tflt_ne, tint_ne, h2]) <;> (repeat' split) <;> first | rfl | (exfalso; omega)

theorem remw (rd : Reg) (rs1 : Reg) (rs2 : Reg) (la : La) : Statement (.remw rd rs1 rs2 la) := by
  intro _ hwf
  have h2 : (plain rd) = true := (Bool.and_eq_true_iff.mp hwf).2
  have := rd.isLt
  have := rs1.isLt
  have := rs2.isLt
  have := la.isLt
  obtain ⟨w, hw⟩ : ∃ w, w = encV la.val 7 rs2 rs1 2 rd 14 := ⟨_, rfl⟩
  have A : Asm (la.val * 8 + 7) rs2.val rs1.val 2 rd.val 14 w := ⟨by rw [hw]; first | decide | (simp only [encV] <;> omega), by omega, by omega, by omega, by decide, by omega, by decide⟩
  have f0 : bits w 6 2 = 14 := (b_6_2 A).trans (rfl)
  have f1 : bits w 14 12 = 2 := (b_14_12 A).trans (rfl)
  have f2 : bits w 27 25 = 7 := (b_27_25 A).trans (by omega)
  have f3 : rg w 15 = rs1 := r_15_32 A rs1 (by omega)
  have f4 : rg w 20 = rs2 := r_20_32 A rs2 (by omega)
  have f5 : rg w 7 = rd := r_7_32 A rd (by omega)
  have f6 : laOf w = la := r_28_16 A la (by omega)
  obtain ⟨w0, w4, wx⟩ := word_ok A (by decide)
  refine single _ w rfl hw.symm w0 w4 wx ?_ rfl
  try simp [plain] at h2
  simp only [decMajor, decOp32, f0, f1, f2, f3, f4, f5, f6] <;> (try simp [failIf, withScope, port, scope_of, tint_of, tflt_of, fmt_of, cond_of, cmpFmt_of, partOk_eq, tflt_ne, tint_ne, h2]) <;> (repeat' split) <;> first | rfl | (exfalso; omega)

theorem remuw (rd : Reg) (rs1 : Reg) (rs2 : Reg) (la : La) : Statement (.remuw rd rs1 rs2 la) := by
  intro _ hwf
  have h2 : (plain rd) = true := (Bool.and_eq_true_iff.mp hwf).2
  have := rd.isLt
  have := rs1.isLt
  have := rs2.isLt
  have := la.isLt
  obtain ⟨w, hw⟩ : ∃ w, w = encV la.val 7 rs2 rs1 3 rd 14 := ⟨_, rfl⟩
  have A : Asm (la.val * 8 + 7) rs2.val rs1.val 3 rd.val 14 w := ⟨by rw [hw]; first | decide | (simp only [encV] <;> omega), by omega, by omega, by omega, by decide, by omega, by decide⟩
  have f0 : bits w 6 2 = 14 := (b_6_2 A).trans (rfl)
  have f1 : bits w 14 12 = 3 := (b_14_12 A).trans (rfl)
  have f2 : bits w 27 25 = 7 := (b_27_25 A).trans (by omega)
  have f3 : rg w 15 = rs1 := r_15_32 A rs1 (by omega)
  have f4 : rg w 20 = rs2 := r_20_32 A rs2 (by omega)
  have f5 : rg w 7 = rd := r_7_32 A rd (by omega)
  have f6 : laOf w = la := r_28_16 A la (by omega)
  obtain ⟨w0, w4, wx⟩ := word_ok A (by decide)
  refine single _ w rfl hw.symm w0 w4 wx ?_ rfl
  try simp [plain] at h2
  simp only [decMajor, decOp32, f0, f1, f2, f3, f4, f5, f6] <;> (try simp [failIf, withScope, port, scope_of, tint_of, tflt_of, fmt_of, cond_of, cmpFmt_of, partOk_eq, tflt_ne, tint_ne, h2]) <;> (repeat' split) <;> first | rfl | (exfalso; omega)

theorem andn (rd : Reg) (rs1 : Reg) (rs2 : Reg) : Statement (.andn rd rs1 rs2) := by
  intro _ hwf
  have := rd.isLt
  have := rs1.isLt
  have := rs2.isLt
  obtain ⟨w, hw⟩ : ∃ w, w = encR 0 rs2 rs1 0 rd 29 := ⟨_, rfl⟩
  have A : Asm 0 rs2.val rs1.val 0 rd.val 29 w := ⟨by rw [hw]; first | decide | (simp only [encR] <;> omega), by decide, by omega, by omega, by decide, by omega, by decide⟩
  have f0 : bits w 6 2 = 29 := (b_6_2 A).trans (rfl)
  have f1 : bits w 14 12 = 0 := (b_14_12 A).trans (rfl)
  have f2 : bits w 31 25 = 0 := (b_31_25 A).trans (rfl)
  have f3 : bits w 24 20 = rs2.val := (b_24_20 A).trans (by omega)
  have f4 : bits w 31 26 = 0 := (b_31_26 A).trans (rfl)
  have f5 : rg w 15 = rs1 := r_15_32 A rs1 (by omega)
  have f6 : rg w 20 = rs2 := r_20_32 A rs2 (by omega)
  have f7 : rg w 7 = rd := r_7_32 A rd (by omega)
  obtain ⟨w0, w4, wx⟩ := word_ok A (by decide)
  refine single _ w rfl hw.symm w0 w4 wx ?_ rfl
  simp only [decMajor, decBit, f0, f1, f2, f3, f4, f5, f6, f7] <;> (try simp [failIf, withScope, port, scope_of, tint_of, tflt_of, fmt_of, cond_of, cmpFmt_of, partOk_eq, tflt_ne, tint_ne]) <;> (repeat' split) <;> first | rfl | (exfalso; omega)

theorem orn (rd : Reg) (rs1 : Reg) (rs2 : Reg) : Statement (.orn rd rs1 rs2) := by
  intro _ hwf
  have := rd.isLt
  have := rs1.isLt
  have := rs2.isLt
  obtain ⟨w, hw⟩ : ∃ w, w = encR 1 rs2 rs1 0 rd 29 := ⟨_, rfl⟩
  have A : Asm 1 rs2.val rs1.val 0 rd.val 29 w := ⟨by rw [hw]; first | decide | (simp only [encR] <;> omega), by decide, by omega, by omega, by decide, by omega, by decide⟩
  have f0 : bits w 6 2 = 29 := (b_6_2 A).trans (rfl)
  have f1 : bits w 14 12 = 0 := (b_14_12 A).trans (rfl)
  have f2 : bits w 31 25 = 1 := (b_31_25 A).trans (rfl)
  have f3 : bits w 24 20 = rs2.val := (b_24_20 A).trans (by omega)
  have f4 : bits w 31 26 = 0 := (b_31_26 A).trans (rfl)
  have f5 : rg w 15 = rs1 := r_15_32 A rs1 (by omega)
  have f6 : rg w 20 = rs2 := r_20_32 A rs2 (by omega)
  have f7 : rg w 7 = rd := r_7_32 A rd (by omega)
  obtain ⟨w0, w4, wx⟩ := word_ok A (by decide)
  refine single _ w rfl hw.symm w0 w4 wx ?_ rfl
  simp only [decMajor, decBit, f0, f1, f2, f3, f4, f5, f6, f7] <;> (try simp [failIf, withScope, port, scope_of, tint_of, tflt_of, fmt_of, cond_of, cmpFmt_of, partOk_eq, tflt_ne, tint_ne]) <;> (repeat' split) <;> first | rfl | (exfalso; omega)

theorem min (rd : Reg) (rs1 : Reg) (rs2 : Reg) : Statement (.min rd rs1 rs2) := by
  intro _ hwf
  have := rd.isLt
  have := rs1.isLt
  have := rs2.isLt
  obtain ⟨w, hw⟩ : ∃ w, w = encR 2 rs2 rs1 0 rd 29 := ⟨_, rfl⟩
  have A : Asm 2 rs2.val rs1.val 0 rd.val 29 w := ⟨by rw [hw]; first | decide | (simp only [encR] <;> omega), by decide, by omega, by omega, by decide, by omega, by decide⟩
  have f0 : bits w 6 2 = 29 := (b_6_2 A).trans (rfl)
  have f1 : bits w 14 12 = 0 := (b_14_12 A).trans (rfl)
  have f2 : bits w 31 25 = 2 := (b_31_25 A).trans (rfl)
  have f3 : bits w 24 20 = rs2.val := (b_24_20 A).trans (by omega)
  have f4 : bits w 31 26 = 1 := (b_31_26 A).trans (rfl)
  have f5 : rg w 15 = rs1 := r_15_32 A rs1 (by omega)
  have f6 : rg w 20 = rs2 := r_20_32 A rs2 (by omega)
  have f7 : rg w 7 = rd := r_7_32 A rd (by omega)
  obtain ⟨w0, w4, wx⟩ := word_ok A (by decide)
  refine single _ w rfl hw.symm w0 w4 wx ?_ rfl
  simp only [decMajor, decBit, f0, f1, f2, f3, f4, f5, f6, f7] <;> (try simp [failIf, withScope, port, scope_of, tint_of, tflt_of, fmt_of, cond_of, cmpFmt_of, partOk_eq, tflt_ne, tint_ne]) <;> (repeat' split) <;> first | rfl | (exfalso; omega)

theorem max (rd : Reg) (rs1 : Reg) (rs2 : Reg) : Statement (.max rd rs1 rs2) := by
  intro _ hwf
  have := rd.isLt
  have := rs1.isLt
  have := rs2.isLt
  obtain ⟨w, hw⟩ : ∃ w, w = encR 3 rs2 rs1 0 rd 29 := ⟨_, rfl⟩
  have A : Asm 3 rs2.val rs1.val 0 rd.val 29 w := ⟨by rw [hw]; first | decide | (simp only [encR] <;> omega), by decide, by omega, by omega, by decide, by omega, by decide⟩
  have f0 : bits w 6 2 = 29 := (b_6_2 A).trans (rfl)
  have f1 : bits w 14 12 = 0 := (b_14_12 A).trans (rfl)
  have f2 : bits w 31 25 = 3 := (b_31_25 A).trans (rfl)
  have f3 : bits w 24 20 = rs2.val := (b_24_20 A).trans (by omega)
  have f4 : bits w 31 26 = 1 := (b_31_26 A).trans (rfl)
  have f5 : rg w 15 = rs1 := r_15_32 A rs1 (by omega)
  have f6 : rg w 20 = rs2 := r_20_32 A rs2 (by omega)
  have f7 : rg w 7 = rd := r_7_32 A rd (by omega)
  obtain ⟨w0, w4, wx⟩ := word_ok A (by decide)
  refine single _ w rfl hw.symm w0 w4 wx ?_ rfl
  simp only [decMajor, decBit, f0, f1, f2, f3, f4, f5, f6, f7] <;> (try simp [failIf, withScope, port, scope_of, tint_of, tflt_of, fmt_of, cond_of, cmpFmt_of, partOk_eq, tflt_ne, tint_ne]) <;> (repeat' split) <;> first | rfl | (exfalso; omega)

theorem minu (rd : Reg) (rs1 : Reg) (rs2 : Reg) : Statement (.minu rd rs1 rs2) := by
  intro _ hwf
  have := rd.isLt
  have := rs1.isLt
  have := rs2.isLt
  obtain ⟨w, hw⟩ : ∃ w, w = encR 4 rs2 rs1 0 rd 29 := ⟨_, rfl⟩
  have A : Asm 4 rs2.val rs1.val 0 rd.val 29 w := ⟨by rw [hw]; first | decide | (simp only [encR] <;> omega), by decide, by omega, by omega, by decide, by omega, by decide⟩
  have f0 : bits w 6 2 = 29 := (b_6_2 A).trans (rfl)
  have f1 : bits w 14 12 = 0 := (b_14_12 A).trans (rfl)
  have f2 : bits w 31 25 = 4 := (b_31_25 A).trans (rfl)
  have f3 : bits w 24 20 = rs2.val := (b_24_20 A).trans (by omega)
  have f4 : bits w 31 26 = 2 := (b_31_26 A).trans (rfl)
  have f5 : rg w 15 = rs1 := r_15_32 A rs1 (by omega)
  have f6 : rg w 20 = rs2 := r_20_32 A rs2 (by omega)
  have f7 : rg w 7 = rd := r_7_32 A rd (by omega)
  obtain ⟨w0, w4, wx⟩ := word_ok A (by decide)
  refine single _ w rfl hw.symm w0 w4 wx ?_ rfl
  simp only [decMajor, decBit, f0, f1, f2, f3, f4, f5, f6, f7] <;> (try simp [failIf, withScope, port, scope_of, tint_of, tflt_of, fmt_of, cond_of, cmpFmt_of, partOk_eq, tflt_ne, tint_ne]) <;> (repeat' split) <;> first | rfl | (exfalso; omega)

theorem maxu (rd : Reg) (rs1 : Reg) (rs2 : Reg) : Statement (.maxu rd rs1 rs2) := by
  intro _ hwf
  have := rd.isLt
  have := rs1.isLt
  have := rs2.isLt
  obtain ⟨w, hw⟩ : ∃ w, w = encR 5 rs2 rs1 0 rd 29 := ⟨_, rfl⟩
  have A : Asm 5 rs2.val rs1.val 0 rd.val 29 w := ⟨by rw [hw]; first | decide | (simp only [encR] <;> omega), by decide, by omega, by omega, by decide, by omega, by decide⟩
  have f0 : bits w 6 2 = 29 := (b_6_2 A).trans (rfl)
  have f1 : bits w 14 12 = 0 := (b_14_12 A).trans (rfl)
  have f2 : bits w 31 25 = 5 := (b_31_25 A).trans (rfl)
  have f3 : bits w 24 20 = rs2.val := (b_24_20 A).trans (by omega)
  have f4 : bits w 31 26 = 2 := (b_31_26 A).trans (rfl)
  have f5 : rg w 15 = rs1 := r_15_32 A rs1 (by omega)
  have f6 : rg w 20 = rs2 := r_20_32 A rs2 (by omega)
  have f7 : rg w 7 = rd := r_7_32 A rd (by omega)
  obtain ⟨w0, w4, wx⟩ := word_ok A (by decide)
  refine single _ w rfl hw.symm w0 w4 wx ?_ rfl
  simp only [decMajor, decBit, f0, f1, f2, f3, f4, f5, f6, f7] <;> (try simp [failIf, withScope, port, scope_of, tint_of, tflt_of, fmt_of, cond_of, cmpFmt_of, partOk_eq, tflt_ne, tint_ne]) <;> (repeat' split) <;> first | rfl | (exfalso; omega)

theorem rol (rd : Reg) (rs1 : Reg) (rs2 : Reg) : Statement (.rol rd rs1 rs2) := by
  intro _ hwf
  have := rd.isLt
  have := rs1.isLt
  have := rs2.isLt
  obtain ⟨w, hw⟩ : ∃ w, w = encR 6 rs2 rs1 0 rd 29 := ⟨_, rfl⟩
  have A : Asm 6 rs2.val rs1.val 0 rd.val 29 w := ⟨by rw [hw]; first | decide | (simp only [encR] <;> omega), by decide, by omega, by omega, by decide, by omega, by decide⟩
  have f0 : bits w 6 2 = 29 := (b_6_2 A).trans (rfl)
  have f1 : bits w 14 12 = 0 := (b_14_12 A).trans (rfl)
  have f2 : bits w 31 25 = 6 := (b_31_25 A).trans (rfl)
  have f3 : bits w 24 20 = rs2.val := (b_24_20 A).trans (by omega)
  have f4 : bits w 31 26 = 3 := (b_31_26 A).trans (rfl)
  have f5 : rg w 15 = rs1 := r_15_32 A rs1 (by omega)
  have f6 : rg w 20 = rs2 := r_20_32 A rs2 (by omega)
  have f7 : rg w 7 = rd := r_7_32 A rd (by omega)
  obtain ⟨w0, w4, wx⟩ := word_ok A (by decide)
  refine single _ w rfl hw.symm w0 w4 wx ?_ rfl
  simp only [decMajor, decBit, f0, f1, f2, f3, f4, f5, f6, f7] <;> (try simp [failIf, withScope, port, scope_of, tint_of, tflt_of, fmt_of, cond_of, cmpFmt_of, partOk_eq, tflt_ne, tint_ne]) <;> (repeat' split) <;> first | rfl | (exfalso; omega)

theorem ror (rd : Reg) (rs1 : Reg) (rs2 : Reg) : Statement (.ror rd rs1 rs2) := by
  intro _ hwf
  have := rd.isLt
  have := rs1.isLt
  have := rs2.isLt
  obtain ⟨w, hw⟩ : ∃ w, w = encR 7 rs2 rs1 0 rd 29 := ⟨_, rfl⟩
  have A : Asm 7 rs2.val rs1.val 0 rd.val 29 w := ⟨by rw [hw]; first | decide | (simp only [encR] <;> omega), by decide, by omega, by omega, by decide, by omega, by decide⟩
  have f0 : bits w 6 2 = 29 := (b_6_2 A).trans (rfl)
  have f1 : bits w 14 12 = 0 := (b_14_12 A).trans (rfl)
  have f2 : bits w 31 25 = 7 := (b_31_25 A).trans (rfl)
  have f3 : bits w 24 20 = rs2.val := (b_24_20 A).trans (by omega)
  have f4 : bits w 31 26 = 3 := (b_31_26 A).trans (rfl)
  have f5 : rg w 15 = rs1 := r_15_32 A rs1 (by omega)
  have f6 : rg w 20 = rs2 := r_20_32 A rs2 (by omega)
  have f7 : rg w 7 = rd := r_7_32 A rd (by omega)
  obtain ⟨w0, w4, wx⟩ := word_ok A (by decide)
  refine single _ w rfl hw.symm w0 w4 wx ?_ rfl
  simp only [decMajor, decBit, f0, f1, f2, f3, f4, f5, f6, f7] <;> (try simp [failIf, withScope, port, scope_of, tint_of, tflt_of, fmt_of, cond_of, cmpFmt_of, partOk_eq, tflt_ne, tint_ne]) <;> (repeat' split) <;> first | rfl | (exfalso; omega)

theorem clmul (rd : Reg) (rs1 : Reg) (rs2 : Reg) : Statement (.clmul rd rs1 rs2) := by
  intro _ hwf
  have := rd.isLt
  have := rs1.isLt
  have := rs2.isLt
  obtain ⟨w, hw⟩ : ∃ w, w = encR 8 rs2 rs1 0 rd 29 := ⟨_, rfl⟩
  have A : Asm 8 rs2.val rs1.val 0 rd.val 29 w := ⟨by rw [hw]; first | decide | (simp only [encR] <;> omega), by decide, by omega, by omega, by decide, by omega, by decide⟩
  have f0 : bits w 6 2 = 29 := (b_6_2 A).trans (rfl)
  have f1 : bits w 14 12 = 0 := (b_14_12 A).trans (rfl)
  have f2 : bits w 31 25 = 8 := (b_31_25 A).trans (rfl)
  have f3 : bits w 24 20 = rs2.val := (b_24_20 A).trans (by omega)
  have f4 : bits w 31 26 = 4 := (b_31_26 A).trans (rfl)
  have f5 : rg w 15 = rs1 := r_15_32 A rs1 (by omega)
  have f6 : rg w 20 = rs2 := r_20_32 A rs2 (by omega)
  have f7 : rg w 7 = rd := r_7_32 A rd (by omega)
  obtain ⟨w0, w4, wx⟩ := word_ok A (by decide)
  refine single _ w rfl hw.symm w0 w4 wx ?_ rfl
  simp only [decMajor, decBit, f0, f1, f2, f3, f4, f5, f6, f7] <;> (try simp [failIf, withScope, port, scope_of, tint_of, tflt_of, fmt_of, cond_of, cmpFmt_of, partOk_eq, tflt_ne, tint_ne]) <;> (repeat' split) <;> first | rfl | (exfalso; omega)

theorem clmulh (rd : Reg) (rs1 : Reg) (rs2 : Reg) : Statement (.clmulh rd rs1 rs2) := by
  intro _ hwf
  have := rd.isLt
  have := rs1.isLt
  have := rs2.isLt
  obtain ⟨w, hw⟩ : ∃ w, w = encR 9 rs2 rs1 0 rd 29 := ⟨_, rfl⟩
  have A : Asm 9 rs2.val rs1.val 0 rd.val 29 w := ⟨by rw [hw]; first | decide | (simp only [encR] <;> omega), by decide, by omega, by omega, by decide, by omega, by decide⟩
  have f0 : bits w 6 2 = 29 := (b_6_2 A).trans (rfl)
  have f1 : bits w 14 12 = 0 := (b_14_12 A).trans (rfl)
  have f2 : bits w 31 25 = 9 := (b_31_25 A).trans (rfl)
  have f3 : bits w 24 20 = rs2.val := (b_24_20 A).trans (by omega)
  have f4 : bits w 31 26 = 4 := (b_31_26 A).trans (rfl)
  have f5 : rg w 15 = rs1 := r_15_32 A rs1 (by omega)
  have f6 : rg w 20 = rs2 := r_20_32 A rs2 (by omega)
  have f7 : rg w 7 = rd := r_7_32 A rd (by omega)
  obtain ⟨w0, w4, wx⟩ := word_ok A (by decide)
  refine single _ w rfl hw.symm w0 w4 wx ?_ rfl
  simp only [decMajor, decBit, f0, f1, f2, f3, f4, f5, f6, f7] <;> (try simp [failIf, withScope, port, scope_of, tint_of, tflt_of, fmt_of, cond_of, cmpFmt_of, partOk_eq, tflt_ne, tint_ne]) <;> (repeat' split) <;> first | rfl | (exfalso; omega)

theorem clmulr (rd : Reg) (rs1 : Reg) (rs2 : Reg) : Statement (.clmulr rd rs1 rs2) := by
  intro _ hwf
  have := rd.isLt
  have := rs1.isLt
  have := rs2.isLt
  obtain ⟨w, hw⟩ : ∃ w, w = encR 10 rs2 rs1 0 rd 29 := ⟨_, rfl⟩
  have A : Asm 10 rs2.val rs1.val 0 rd.val 29 w := ⟨by rw [hw]; first | decide | (simp only [encR] <;> omega), by decide, by omega, by omega, by decide, by omega, by decide⟩
  have f0 : bits w 6 2 = 29 := (b_6_2 A).trans (rfl)
  have f1 : bits w 14 12 = 0 := (b_14_12 A).trans (rfl)
  have f2 : bits w 31 25 = 10 := (b_31_25 A).trans (rfl)
  have f3 : bits w 24 20 = rs2.val := (b_24_20 A).trans (by omega)
  have f4 : bits w 31 26 = 5 := (b_31_26 A).trans (rfl)
  have f5 : rg w 15 = rs1 := r_15_32 A rs1 (by omega)
  have f6 : rg w 20 = rs2 := r_20_32 A rs2 (by omega)
  have f7 : rg w 7 = rd := r_7_32 A rd (by omega)
  obtain ⟨w0, w4, wx⟩ := word_ok A (by decide)
  refine single _ w rfl hw.symm w0 w4 wx ?_ rfl
  simp only [decMajor, decBit, f0, f1, f2, f3, f4, f5, f6, f7] <;> (try simp [failIf, withScope, port, scope_of, tint_of, tflt_of, fmt_of, cond_of, cmpFmt_of, partOk_eq, tflt_ne, tint_ne]) <;> (repeat' split) <;> first | rfl | (exfalso; omega)

theorem bext (rd : Reg) (rs1 : Reg) (rs2 : Reg) : Statement (.bext rd rs1 rs2) := by
  intro _ hwf
  have := rd.isLt
  have := rs1.isLt
  have := rs2.isLt
  obtain ⟨w, hw⟩ : ∃ w, w = encR 11 rs2 rs1 0 rd 29 := ⟨_, rfl⟩
  have A : Asm 11 rs2.val rs1.val 0 rd.val 29 w := ⟨by rw [hw]; first | decide | (simp only [encR] <;> omega), by decide, by omega, by omega, by decide, by omega, by decide⟩
  have f0 : bits w 6 2 = 29 := (b_6_2 A).trans (rfl)
  have f1 : bits w 14 12 = 0 := (b_14_12 A).trans (rfl)
  have f2 : bits w 31 25 = 11 := (b_31_25 A).trans (rfl)
  have f3 : bits w 24 20 = rs2.val := (b_24_20 A).trans (by omega)
  have f4 : bits w 31 26 = 5 := (b_31_26 A).trans (rfl)
  have f5 : rg w 15 = rs1 := r_15_32 A rs1 (by omega)
  have f6 : rg w 20 = rs2 := r_20_32 A rs2 (by omega)
  have f7 : rg w 7 = rd := r_7_32 A rd (by omega)
  obtain ⟨w0, w4, wx⟩ := word_ok A (by decide)
  refine single _ w rfl hw.symm w0 w4 wx ?_ rfl
  simp only [decMajor, decBit, f0, f1, f2, f3, f4, f5, f6, f7] <;> (try simp [failIf, withScope, port, scope_of, tint_of, tflt_of, fmt_of, cond_of, cmpFmt_of, partOk_eq, tflt_ne, tint_ne]) <;> (repeat' split) <;> first | rfl | (exfalso; omega)

theorem bdep (rd : Reg) (rs1 : Reg) (rs2 : Reg) : Statement (.bdep rd rs1 rs2) := by
  intro _ hwf
  have := rd.isLt
  have := rs1.isLt
  have := rs2.isLt
  obtain ⟨w, hw⟩ : ∃ w, w = encR 12 rs2 rs1 0 rd 29 := ⟨_, rfl⟩
  have A : Asm 12 rs2.val rs1.val 0 rd.val 29 w := ⟨by rw [hw]; first | decide | (simp only [encR] <;> omega), by decide, by omega, by omega, by decide, by omega, by decide⟩
  have f0 : bits w 6 2 = 29 := (b_6_2 A).trans (rfl)
  have f1 : bits w 14 12 = 0 := (b_14_12 A).trans (rfl)
  have f2 : bits w 31 25 = 12 := (b_31_25 A).trans (rfl)
  have f3 : bits w 24 20 = rs2.val := (b_24_20 A).trans (by omega)
  have f4 : bits w 31 26 = 6 := (b_31_26 A).trans (rfl)
  have f5 : rg w 15 = rs1 := r_15_32 A rs1 (by omega)
  have f6 : rg w 20 = rs2 := r_20_32 A rs2 (by omega)
  have f7 : rg w 7 = rd := r_7_32 A rd (by omega)
  obtain ⟨w0, w4, wx⟩ := word_ok A (by decide)
  refine single _ w rfl hw.symm w0 w4 wx ?_ rfl
  simp only [decMajor, decBit, f0, f1, f2, f3, f4, f5, f6, f7] <;> (try simp [failIf, withScope, port, scope_of, tint_of, tflt_of, fmt_of, cond_of, cmpFmt_of, partOk_eq, tflt_ne, tint_ne]) <;> (repeat' split) <;> first | rfl | (exfalso; omega)

theorem clz (rd : Reg) (rs1 : Reg) : Statement (.clz rd rs1) := by
  intro _ hwf
  have := rd.isLt
  have := rs1.isLt
  obtain ⟨w, hw⟩ : ∃ w, w = encR 0 0 rs1 1 rd 29 := ⟨_, rfl⟩
  have A : Asm 0 0 rs1.val 1 rd.val 29 w := ⟨by rw [hw]; first | decide | (simp only [encR] <;> omega), by decide, by decide, by omega, by decide, by omega, by decide⟩
  have f0 : bits w 6 2 = 29 := (b_6_2 A).trans (rfl)
  have f1 : bits w 14 12 = 1 := (b_14_12 A).trans (rfl)
  have f2 : bits w 31 25 = 0 := (b_31_25 A).trans (rfl)
  have f3 : bits w 24 20 = 0 := (b_24_20 A).trans (rfl)
  have f4 : bits w 31 26 = 0 := (b_31_26 A).trans (rfl)
  have f5 : rg w 15 = rs1 := r_15_32 A rs1 (by omega)
  have f6 : rg w 20 = (0 : Fin 32) := r_20_32 A (0 : Fin 32) (rfl)
  have f7 : rg w 7 = rd := r_7_32 A rd (by omega)
  have f8 : Fin.ofNat 64 (w / 2 ^ 20) = (0 : Fin 64) := r_20_64 A (0 : Fin 64) (rfl)
  obtain ⟨w0, w4, wx⟩ := word_ok A (by decide)
  refine single _ w rfl hw.symm w0 w4 wx ?_ rfl
  simp only [decMajor, decBit, f0, f1, f2, f3, f4, f5, f6, f7, f8] <;> (try simp [failIf, withScope, port, scope_of, tint_of, tflt_of, fmt_of, cond_of, cmpFmt_of, partOk_eq, tflt_ne, tint_ne]) <;> (repeat' split) <;> first | rfl | (exfalso; omega)

theorem ctz (rd : Reg) (rs1 : Reg) : Statement (.ctz rd rs1) := by
  intro _ hwf
  have := rd.isLt
  have := rs1.isLt
  obtain ⟨w, hw⟩ : ∃ w, w = encR 0 1 rs1 1 rd 29 := ⟨_, rfl⟩
  have A : Asm 0 1 rs1.val 1 rd.val 29 w := ⟨by rw [hw]; first | decide | (simp only [encR] <;> omega), by decide, by decide, by omega, by decide, by omega, by decide⟩
  have f0 : bits w 6 2 = 29 := (b_6_2 A).trans (rfl)
  have f1 : bits w 14 12 = 1 := (b_14_12 A).trans (rfl)
  have f2 : bits w 31 25 = 0 := (b_31_25 A).trans (rfl)
  have f3 : bits w 24 20 = 1 := (b_24_20 A).trans (rfl)
  have f4 : bits w 31 26 = 0 := (b_31_26 A).trans (rfl)
  have f5 : rg w 15 = rs1 := r_15_32 A rs1 (by omega)
  have f6 : rg w 20 = (1 : Fin 32) := r_20_32 A (1 : Fin 32) (rfl)
  have f7 : rg w 7 = rd := r_7_32 A rd (by omega)
  have f8 : Fin.ofNat 64 (w / 2 ^ 20) = (1 : Fin 64) := r_20_64 A (1 : Fin 64) (rfl)
  obtain ⟨w0, w4, wx⟩ := word_ok A (by decide)
  refine single _ w rfl hw.symm w0 w4 wx ?_ rfl
  simp only [decMajor, decBit, f0, f1, f2, f3, f4, f5, f6, f7, f8] <;> (try simp [failIf, withScope, port, scope_of, tint_of, tflt_of, fmt_of, cond_of, cmpFmt_of, partOk_eq, tflt_ne, tint_ne]) <;> (repeat' split) <;> first | rfl | (exfalso; omega)

theorem popc (rd : Reg) (rs1 : Reg) : Statement (.popc rd rs1) := by
  intro _ hwf
  have := rd.isLt
  have := rs1.isLt
  obtain ⟨w, hw⟩ : ∃ w, w = encR 0 2 rs1 1 rd 29 := ⟨_, rfl⟩
  have A : Asm 0 2 rs1.val 1 rd.val 29 w := ⟨by rw [hw]; first | decide | (simp only [encR] <;> omega), by decide, by decide, by omega, by decide, by omega, by decide⟩
  have f0 : bits w 6 2 = 29 := (b_6_2 A).trans (rfl)
  have f1 : bits w 14 12 = 1 := (b_14_12 A).trans (rfl)
  have f2 : bits w 31 25 = 0 := (b_31_25 A).trans (rfl)
  have f3 : bits w 24 20 = 2 := (b_24_20 A).trans (rfl)
  have f4 : bits w 31 26 = 0 := (b_31_26 A).trans (rfl)
  have f5 : rg w 15 = rs1 := r_15_32 A rs1 (by omega)
  have f6 : rg w 20 = (2 : Fin 32) := r_20_32 A (2 : Fin 32) (rfl)
  have f7 : rg w 7 = rd := r_7_32 A rd (by omega)
  have f8 : Fin.ofNat 64 (w / 2 ^ 20) = (2 : Fin 64) := r_20_64 A (2 : Fin 64) (rfl)
  obtain ⟨w0, w4, wx⟩ := word_ok A (by decide)
  refine single _ w rfl hw.symm w0 w4 wx ?_ rfl
  simp only [decMajor, decBit, f0, f1, f2, f3, f4, f5, f6, f7, f8] <;> (try simp [failIf, withScope, port, scope_of, tint_of, tflt_of, fmt_of, cond_of, cmpFmt_of, partOk_eq, tflt_ne, tint_ne]) <;> (repeat' split) <;> first | rfl | (exfalso; omega)

theorem brev (rd : Reg) (rs1 : Reg) : Statement (.brev rd rs1) := by
  intro _ hwf
  have := rd.isLt
  have := rs1.isLt
  obtain ⟨w, hw⟩ : ∃ w, w = encR 0 3 rs1 1 rd 29 := ⟨_, rfl⟩
  have A : Asm 0 3 rs1.val 1 rd.val 29 w := ⟨by rw [hw]; first | decide | (simp only [encR] <;> omega), by decide, by decide, by omega, by decide, by omega, by decide⟩
  have f0 : bits w 6 2 = 29 := (b_6_2 A).trans (rfl)
  have f1 : bits w 14 12 = 1 := (b_14_12 A).trans (rfl)
  have f2 : bits w 31 25 = 0 := (b_31_25 A).trans (rfl)
  have f3 : bits w 24 20 = 3 := (b_24_20 A).trans (rfl)
  have f4 : bits w 31 26 = 0 := (b_31_26 A).trans (rfl)
  have f5 : rg w 15 = rs1 := r_15_32 A rs1 (by omega)
  have f6 : rg w 20 = (3 : Fin 32) := r_20_32 A (3 : Fin 32) (rfl)
  have f7 : rg w 7 = rd := r_7_32 A rd (by omega)
  have f8 : Fin.ofNat 64 (w / 2 ^ 20) = (3 : Fin 64) := r_20_64 A (3 : Fin 64) (rfl)
  obtain ⟨w0, w4, wx⟩ := word_ok A (by decide)
  refine single _ w rfl hw.symm w0 w4 wx ?_ rfl
  simp only [decMajor, decBit, f0, f1, f2, f3, f4, f5, f6, f7, f8] <;> (try simp [failIf, withScope, port, scope_of, tint_of, tflt_of, fmt_of, cond_of, cmpFmt_of, partOk_eq, tflt_ne, tint_ne]) <;> (repeat' split) <;> first | rfl | (exfalso; omega)

theorem bswap (rd : Reg) (rs1 : Reg) : Statement (.bswap rd rs1) := by
  intro _ hwf
  have := rd.isLt
  have := rs1.isLt
  obtain ⟨w, hw⟩ : ∃ w, w = encR 0 4 rs1 1 rd 29 := ⟨_, rfl⟩
  have A : Asm 0 4 rs1.val 1 rd.val 29 w := ⟨by rw [hw]; first | decide | (simp only [encR] <;> omega), by decide, by decide, by omega, by decide, by omega, by decide⟩
  have f0 : bits w 6 2 = 29 := (b_6_2 A).trans (rfl)
  have f1 : bits w 14 12 = 1 := (b_14_12 A).trans (rfl)
  have f2 : bits w 31 25 = 0 := (b_31_25 A).trans (rfl)
  have f3 : bits w 24 20 = 4 := (b_24_20 A).trans (rfl)
  have f4 : bits w 31 26 = 0 := (b_31_26 A).trans (rfl)
  have f5 : rg w 15 = rs1 := r_15_32 A rs1 (by omega)
  have f6 : rg w 20 = (4 : Fin 32) := r_20_32 A (4 : Fin 32) (rfl)
  have f7 : rg w 7 = rd := r_7_32 A rd (by omega)
  have f8 : Fin.ofNat 64 (w / 2 ^ 20) = (4 : Fin 64) := r_20_64 A (4 : Fin 64) (rfl)
  obtain ⟨w0, w4, wx⟩ := word_ok A (by decide)
  refine single _ w rfl hw.symm w0 w4 wx ?_ rfl
  simp only [decMajor, decBit, f0, f1, f2, f3, f4, f5, f6, f7, f8] <;> (try simp [failIf, withScope, port, scope_of, tint_of, tflt_of, fmt_of, cond_of, cmpFmt_of, partOk_eq, tflt_ne, tint_ne]) <;> (repeat' split) <;> first | rfl | (exfalso; omega)

theorem sextB (rd : Reg) (rs1 : Reg) : Statement (.sextB rd rs1) := by
  intro _ hwf
  have := rd.isLt
  have := rs1.isLt
  obtain ⟨w, hw⟩ : ∃ w, w = encR 0 5 rs1 1 rd 29 := ⟨_, rfl⟩
  have A : Asm 0 5 rs1.val 1 rd.val 29 w := ⟨by rw [hw]; first | decide | (simp only [encR] <;> omega), by decide, by decide, by omega, by decide, by omega, by decide⟩
  have f0 : bits w 6 2 = 29 := (b_6_2 A).trans (rfl)
  have f1 : bits w 14 12 = 1 := (b_14_12 A).trans (rfl)
  have f2 : bits w 31 25 = 0 := (b_31_25 A).trans (rfl)
  have f3 : bits w 24 20 = 5 := (b_24_20 A).trans (rfl)
  have f4 : bits w 31 26 = 0 := (b_31_26 A).trans (rfl)
  have f5 : rg w 15 = rs1 := r_15_32 A rs1 (by omega)
  have f6 : rg w 20 = (5 : Fin 32) := r_20_32 A (5 : Fin 32) (rfl)
  have f7 : rg w 7 = rd := r_7_32 A rd (by omega)
  have f8 : Fin.ofNat 64 (w / 2 ^ 20) = (5 : Fin 64) := r_20_64 A (5 : Fin 64) (rfl)
  obtain ⟨w0, w4, wx⟩ := word_ok A (by decide)
  refine single _ w rfl hw.symm w0 w4 wx ?_ rfl
  simp only [decMajor, decBit, f0, f1, f2, f3, f4, f5, f6, f7, f8] <;> (try simp [failIf, withScope, port, scope_of, tint_of, tflt_of, fmt_of, cond_of, cmpFmt_of, partOk_eq, tflt_ne, tint_ne]) <;> (repeat' split) <;> first | rfl | (exfalso; omega)

theorem sextH (rd : Reg) (rs1 : Reg) : Statement (.sextH rd rs1) := by
  intro _ hwf
  have := rd.isLt
  have := rs1.isLt
  obtain ⟨w, hw⟩ : ∃ w, w = encR 0 6 rs1 1 rd 29 := ⟨_, rfl⟩
  have A : Asm 0 6 rs1.val 1 rd.val 29 w := ⟨by rw [hw]; first | decide | (simp only [encR] <;> omega), by decide, by decide, by omega, by decide, by omega, by decide⟩
  have f0 : bits w 6 2 = 29 := (b_6_2 A).trans (rfl)
  have f1 : bits w 14 12 = 1 := (b_14_12 A).trans (rfl)
  have f2 : bits w 31 25 = 0 := (b_31_25 A).trans (rfl)
  have f3 : bits w 24 20 = 6 := (b_24_20 A).trans (rfl)
  have f4 : bits w 31 26 = 0 := (b_31_26 A).trans (rfl)
  have f5 : rg w 15 = rs1 := r_15_32 A rs1 (by omega)
  have f6 : rg w 20 = (6 : Fin 32) := r_20_32 A (6 : Fin 32) (rfl)
  have f7 : rg w 7 = rd := r_7_32 A rd (by omega)
  have f8 : Fin.ofNat 64 (w / 2 ^ 20) = (6 : Fin 64) := r_20_64 A (6 : Fin 64) (rfl)
  obtain ⟨w0, w4, wx⟩ := word_ok A (by decide)
  refine single _ w rfl hw.symm w0 w4 wx ?_ rfl
  simp only [decMajor, decBit, f0, f1, f2, f3, f4, f5, f6, f7, f8] <;> (try simp [failIf, withScope, port, scope_of, tint_of, tflt_of, fmt_of, cond_of, cmpFmt_of, partOk_eq, tflt_ne, tint_ne]) <;> (repeat' split) <;> first | rfl | (exfalso; omega)

theorem sextW (rd : Reg) (rs1 : Reg) : Statement (.sextW rd rs1) := by
  intro _ hwf
  have := rd.isLt
  have := rs1.isLt
  obtain ⟨w, hw⟩ : ∃ w, w = encR 0 7 rs1 1 rd 29 := ⟨_, rfl⟩
  have A : Asm 0 7 rs1.val 1 rd.val 29 w := ⟨by rw [hw]; first | decide | (simp only [encR] <;> omega), by decide, by decide, by omega, by decide, by omega, by decide⟩
  have f0 : bits w 6 2 = 29 := (b_6_2 A).trans (rfl)
  have f1 : bits w 14 12 = 1 := (b_14_12 A).trans (rfl)
  have f2 : bits w 31 25 = 0 := (b_31_25 A).trans (rfl)
  have f3 : bits w 24 20 = 7 := (b_24_20 A).trans (rfl)
  have f4 : bits w 31 26 = 0 := (b_31_26 A).trans (rfl)
  have f5 : rg w 15 = rs1 := r_15_32 A rs1 (by omega)
  have f6 : rg w 20 = (7 : Fin 32) := r_20_32 A (7 : Fin 32) (rfl)
  have f7 : rg w 7 = rd := r_7_32 A rd (by omega)
  have f8 : Fin.ofNat 64 (w / 2 ^ 20) = (7 : Fin 64) := r_20_64 A (7 : Fin 64) (rfl)
  obtain ⟨w0, w4, wx⟩ := word_ok A (by decide)
  refine single _ w rfl hw.symm w0 w4 wx ?_ rfl
  simp only [decMajor, decBit, f0, f1, f2, f3, f4, f5, f6, f7, f8] <;> (try simp [failIf, withScope, port, scope_of, tint_of, tflt_of, fmt_of, cond_of, cmpFmt_of, partOk_eq, tflt_ne, tint_ne]) <;> (repeat' split) <;> first | rfl | (exfalso; omega)

theorem zextB (rd : Reg) (rs1 : Reg) : Statement (.zextB rd rs1) := by
  intro _ hwf
  have := rd.isLt
  have := rs1.isLt
  obtain ⟨w, hw⟩ : ∃ w, w = encR 0 8 rs1 1 rd 29 := ⟨_, rfl⟩
  have A : Asm 0 8 rs1.val 1 rd.val 29 w := ⟨by rw [hw]; first | decide | (simp only [encR] <;> omega), by decide, by decide, by omega, by decide, by omega, by decide⟩
  have f0 : bits w 6 2 = 29 := (b_6_2 A).trans (rfl)
  have f1 : bits w 14 12 = 1 := (b_14_12 A).trans (rfl)
  have f2 : bits w 31 25 = 0 := (b_31_25 A).trans (rfl)
  have f3 : bits w 24 20 = 8 := (b_24_20 A).trans (rfl)
  have f4 : bits w 31 26 = 0 := (b_31_26 A).trans (rfl)
  have f5 : rg w 15 = rs1 := r_15_32 A rs1 (by omega)
  have f6 : rg w 20 = (8 : Fin 32) := r_20_32 A (8 : Fin 32) (rfl)
  have f7 : rg w 7 = rd := r_7_32 A rd (by omega)
  have f8 : Fin.ofNat 64 (w / 2 ^ 20) = (8 : Fin 64) := r_20_64 A (8 : Fin 64) (rfl)
  obtain ⟨w0, w4, wx⟩ := word_ok A (by decide)
  refine single _ w rfl hw.symm w0 w4 wx ?_ rfl
  simp only [decMajor, decBit, f0, f1, f2, f3, f4, f5, f6, f7, f8] <;> (try simp [failIf, withScope, port, scope_of, tint_of, tflt_of, fmt_of, cond_of, cmpFmt_of, partOk_eq, tflt_ne, tint_ne]) <;> (repeat' split) <;> first | rfl | (exfalso; omega)

theorem zextH (rd : Reg) (rs1 : Reg) : Statement (.zextH rd rs1) := by
  intro _ hwf
  have := rd.isLt
  have := rs1.isLt
  obtain ⟨w, hw⟩ : ∃ w, w = encR 0 9 rs1 1 rd 29 := ⟨_, rfl⟩
  have A : Asm 0 9 rs1.val 1 rd.val 29 w := ⟨by rw [hw]; first | decide | (simp only [encR] <;> omega), by decide, by decide, by omega, by decide, by omega, by decide⟩
  have f0 : bits w 6 2 = 29 := (b_6_2 A).trans (rfl)
  have f1 : bits w 14 12 = 1 := (b_14_12 A).trans (rfl)
  have f2 : bits w 31 25 = 0 := (b_31_25 A).trans (rfl)
  have f3 : bits w 24 20 = 9 := (b_24_20 A).trans (rfl)
  have f4 : bits w 31 26 = 0 := (b_31_26 A).trans (rfl)
  have f5 : rg w 15 = rs1 := r_15_32 A rs1 (by omega)
  have f6 : rg w 20 = (9 : Fin 32) := r_20_32 A (9 : Fin 32) (rfl)
  have f7 : rg w 7 = rd := r_7_32 A rd (by omega)
  have f8 : Fin.ofNat 64 (w / 2 ^ 20) = (9 : Fin 64) := r_20_64 A (9 : Fin 64) (rfl)
  obtain ⟨w0, w4, wx⟩ := word_ok A (by decide)
  refine single _ w rfl hw.symm w0 w4 wx ?_ rfl
  simp only [decMajor, decBit, f0, f1, f2, f3, f4, f5, f6, f7, f8] <;> (try simp [failIf, withScope, port, scope_of, tint_of, tflt_of, fmt_of, cond_of, cmpFmt_of, partOk_eq, tflt_ne, tint_ne]) <;> (repeat' split) <;> first | rfl | (exfalso; omega)

theorem zextW (rd : Reg) (rs1 : Reg) : Statement (.zextW rd rs1) := by
  intro _ hwf
  have := rd.isLt
  have := rs1.isLt
  obtain ⟨w, hw⟩ : ∃ w, w = encR 0 10 rs1 1 rd 29 := ⟨_, rfl⟩
  have A : Asm 0 10 rs1.val 1 rd.val 29 w := ⟨by rw [hw]; first | decide | (simp only [encR] <;> omega), by decide, by decide, by omega, by decide, by omega, by decide⟩
  have f0 : bits w 6 2 = 29 := (b_6_2 A).trans (rfl)
  have f1 : bits w 14 12 = 1 := (b_14_12 A).trans (rfl)
  have f2 : bits w 31 25 = 0 := (b_31_25 A).trans (rfl)
  have f3 : bits w 24 20 = 10 := (b_24_20 A).trans (rfl)
  have f4 : bits w 31 26 = 0 := (b_31_26 A).trans (rfl)
  have f5 : rg w 15 = rs1 := r_15_32 A rs1 (by omega)
  have f6 : rg w 20 = (10 : Fin 32) := r_20_32 A (10 : Fin 32) (rfl)
  have f7 : rg w 7 = rd := r_7_32 A rd (by omega)
  have f8 : Fin.ofNat 64 (w / 2 ^ 20) = (10 : Fin 64) := r_20_64 A (10 : Fin 64) (rfl)
  obtain ⟨w0, w4, wx⟩ := word_ok A (by decide)
  refine single _ w rfl hw.symm w0 w4 wx ?_ rfl
  simp only [decMajor, decBit, f0, f1, f2, f3, f4, f5, f6, f7, f8] <;> (try simp [failIf, withScope, port, scope_of, tint_of, tflt_of, fmt_of, cond_of, cmpFmt_of, partOk_eq, tflt_ne, tint_ne]) <;> (repeat' split) <;> first | rfl | (exfalso; omega)

theorem rori (rd : Reg) (rs1 : Reg) (sh : Fin 64) : Statement (.rori rd rs1 sh) := by
  intro _ hwf
  have := rd.isLt
  have := rs1.isLt
  have := sh.isLt
  obtain ⟨w, hw⟩ : ∃ w, w = encI sh.val rs1 4 rd 29 := ⟨_, rfl⟩
  have A : Asm (sh.val / 32) (sh.val % 32) rs1.val 4 rd.val 29 w := ⟨by rw [hw]; first | decide | (simp only [encI] <;> omega), by omega, by omega, by omega, by decide, by omega, by decide⟩
  have f0 : bits w 6 2 = 29 := (b_6_2 A).trans (rfl)
  have f1 : bits w 14 12 = 4 := (b_14_12 A).trans (rfl)
  have f2 : bits w 31 26 = 0 := (b_31_26 A).trans (by omega)
  have f3 : rg w 15 = rs1 := r_15_32 A rs1 (by omega)
  have f4 : rg w 7 = rd := r_7_32 A rd (by omega)
  have f5 : Fin.ofNat 64 (w / 2 ^ 20) = sh := r_20_64 A sh (by omega)
  obtain ⟨w0, w4, wx⟩ := word_ok A (by decide)
  refine single _ w rfl hw.symm w0 w4 wx ?_ rfl
  simp only [decMajor, decBit, f0, f1, f2, f3, f4, f5] <;> (try simp [failIf, withScope, port, scope_of, tint_of, tflt_of, fmt_of, cond_of, cmpFmt_of, partOk_eq, tflt_ne, tint_ne]) <;> (repeat' split) <;> first | rfl | (exfalso; omega)

theorem modp (rd : Reg) (rs1 : Reg) (c : Fin 64) : Statement (.modp rd rs1 c) := by
  intro _ hwf
  have := rd.isLt
  have := rs1.isLt
  have := c.isLt
  obtain ⟨w, hw⟩ : ∃ w, w = encI c.val rs1 5 rd 29 := ⟨_, rfl⟩
  have A : Asm (c.val / 32) (c.val % 32) rs1.val 5 rd.val 29 w := ⟨by rw [hw]; first | decide | (simp only [encI] <;> omega), by omega, by omega, by omega, by decide, by omega, by decide⟩
  have f0 : bits w 6 2 = 29 := (b_6_2 A).trans (rfl)
  have f1 : bits w 14 12 = 5 := (b_14_12 A).trans (rfl)
  have f2 : bits w 31 26 = 0 := (b_31_26 A).trans (by omega)
  have f3 : rg w 15 = rs1 := r_15_32 A rs1 (by omega)
  have f4 : rg w 7 = rd := r_7_32 A rd (by omega)
  have f5 : Fin.ofNat 64 (w / 2 ^ 20) = c := r_20_64 A c (by omega)
  obtain ⟨w0, w4, wx⟩ := word_ok A (by decide)
  refine single _ w rfl hw.symm w0 w4 wx ?_ rfl
  simp only [decMajor, decBit, f0, f1, f2, f3, f4, f5] <;> (try simp [failIf, withScope, port, scope_of, tint_of, tflt_of, fmt_of, cond_of, cmpFmt_of, partOk_eq, tflt_ne, tint_ne]) <;> (repeat' split) <;> first | rfl | (exfalso; omega)

theorem beq (rs1 : Reg) (rs2 : Reg) (off : Int) : Statement (.beq rs1 rs2 off) := by
  intro _ hwf
  have h2 : (inRange 12 off && plain rs1 && plain rs2) = true := (Bool.and_eq_true_iff.mp hwf).2
  have := rs1.isLt
  have := rs2.isLt
  have := ux_lt 12 off
  obtain ⟨w, hw⟩ : ∃ w, w = encS (ux 12 off) rs2 rs1 0 24 := ⟨_, rfl⟩
  have A : Asm ((ux 12 off) / 32) rs2.val rs1.val 0 ((ux 12 off) % 32) 24 w := ⟨by rw [hw]; first | decide | (simp only [encS] <;> omega), by omega, by omega, by omega, by decide, by omega, by decide⟩
  have f0 : bits w 6 2 = 24 := (b_6_2 A).trans (rfl)
  have f1 : bits w 14 12 = 0 := (b_14_12 A).trans (rfl)
  have f2 : rg w 15 = rs1 := r_15_32 A rs1 (by omega)
  have f3 : rg w 20 = rs2 := r_20_32 A rs2 (by omega)
  have f4 : immS w = off := i_immS A off (by revert h2; simp; intros; assumption) (by omega)
  obtain ⟨w0, w4, wx⟩ := word_ok A (by decide)
  refine single _ w rfl hw.symm w0 w4 wx ?_ rfl
  try simp [plain] at h2
  simp only [decMajor, decBranch, f0, f1, f2, f3, f4] <;> (try simp [failIf, withScope, port, scope_of, tint_of, tflt_of, fmt_of, cond_of, cmpFmt_of, partOk_eq, tflt_ne, tint_ne, h2]) <;> (repeat' split) <;> first | rfl | (exfalso; omega)

theorem bne (rs1 : Reg) (rs2 : Reg) (off : Int) : Statement (.bne rs1 rs2 off) := by
  intro _ hwf
  have h2 : (inRange 12 off && plain rs1 && plain rs2) = true := (Bool.and_eq_true_iff.mp hwf).2
  have := rs1.isLt
  have := rs2.isLt
  have := ux_lt 12 off
  obtain ⟨w, hw⟩ : ∃ w, w = encS (ux 12 off) rs2 rs1 1 24 := ⟨_, rfl⟩
  have A : Asm ((ux 12 off) / 32) rs2.val rs1.val 1 ((ux 12 off) % 32) 24 w := ⟨by rw [hw]; first | decide | (simp only [encS] <;> omega), by omega, by omega, by omega, by decide, by omega, by decide⟩
  have f0 : bits w 6 2 = 24 := (b_6_2 A).trans (rfl)
  have f1 : bits w 14 12 = 1 := (b_14_12 A).trans (rfl)
  have f2 : rg w 15 = rs1 := r_15_32 A rs1 (by omega)
  have f3 : rg w 20 = rs2 := r_20_32 A rs2 (by omega)
  have f4 : immS w = off := i_immS A off (by revert h2; simp; intros; assumption) (by omega)
  obtain ⟨w0, w4, wx⟩ := word_ok A (by decide)
  refine single _ w rfl hw.symm w0 w4 wx ?_ rfl
  try simp [plain] at h2
  simp only [decMajor, decBranch, f0, f1, f2, f3, f4] <;> (try simp [failIf, withScope, port, scope_of, tint_of, tflt_of, fmt_of, cond_of, cmpFmt_of, partOk_eq, tflt_ne, tint_ne, h2]) <;> (repeat' split) <;> first | rfl | (exfalso; omega)

theorem bbs (rs1 : Reg) (rs2 : Reg) (off : Int) : Statement (.bbs rs1 rs2 off) := by
  intro _ hwf
  have h2 : (inRange 12 off && plain rs1 && plain rs2) = true := (Bool.and_eq_true_iff.mp hwf).2
  have := rs1.isLt
  have := rs2.isLt
  have := ux_lt 12 off
  obtain ⟨w, hw⟩ : ∃ w, w = encS (ux 12 off) rs2 rs1 2 24 := ⟨_, rfl⟩
  have A : Asm ((ux 12 off) / 32) rs2.val rs1.val 2 ((ux 12 off) % 32) 24 w := ⟨by rw [hw]; first | decide | (simp only [encS] <;> omega), by omega, by omega, by omega, by decide, by omega, by decide⟩
  have f0 : bits w 6 2 = 24 := (b_6_2 A).trans (rfl)
  have f1 : bits w 14 12 = 2 := (b_14_12 A).trans (rfl)
  have f2 : rg w 15 = rs1 := r_15_32 A rs1 (by omega)
  have f3 : rg w 20 = rs2 := r_20_32 A rs2 (by omega)
  have f4 : immS w = off := i_immS A off (by revert h2; simp; intros; assumption) (by omega)
  obtain ⟨w0, w4, wx⟩ := word_ok A (by decide)
  refine single _ w rfl hw.symm w0 w4 wx ?_ rfl
  try simp [plain] at h2
  simp only [decMajor, decBranch, f0, f1, f2, f3, f4] <;> (try simp [failIf, withScope, port, scope_of, tint_of, tflt_of, fmt_of, cond_of, cmpFmt_of, partOk_eq, tflt_ne, tint_ne, h2]) <;> (repeat' split) <;> first | rfl | (exfalso; omega)

theorem bbc (rs1 : Reg) (rs2 : Reg) (off : Int) : Statement (.bbc rs1 rs2 off) := by
  intro _ hwf
  have h2 : (inRange 12 off && plain rs1 && plain rs2) = true := (Bool.and_eq_true_iff.mp hwf).2
  have := rs1.isLt
  have := rs2.isLt
  have := ux_lt 12 off
  obtain ⟨w, hw⟩ : ∃ w, w = encS (ux 12 off) rs2 rs1 3 24 := ⟨_, rfl⟩
  have A : Asm ((ux 12 off) / 32) rs2.val rs1.val 3 ((ux 12 off) % 32) 24 w := ⟨by rw [hw]; first | decide | (simp only [encS] <;> omega), by omega, by omega, by omega, by decide, by omega, by decide⟩
  have f0 : bits w 6 2 = 24 := (b_6_2 A).trans (rfl)
  have f1 : bits w 14 12 = 3 := (b_14_12 A).trans (rfl)
  have f2 : rg w 15 = rs1 := r_15_32 A rs1 (by omega)
  have f3 : rg w 20 = rs2 := r_20_32 A rs2 (by omega)
  have f4 : immS w = off := i_immS A off (by revert h2; simp; intros; assumption) (by omega)
  obtain ⟨w0, w4, wx⟩ := word_ok A (by decide)
  refine single _ w rfl hw.symm w0 w4 wx ?_ rfl
  try simp [plain] at h2
  simp only [decMajor, decBranch, f0, f1, f2, f3, f4] <;> (try simp [failIf, withScope, port, scope_of, tint_of, tflt_of, fmt_of, cond_of, cmpFmt_of, partOk_eq, tflt_ne, tint_ne, h2]) <;> (repeat' split) <;> first | rfl | (exfalso; omega)

theorem blt (rs1 : Reg) (rs2 : Reg) (off : Int) : Statement (.blt rs1 rs2 off) := by
  intro _ hwf
  have h2 : (inRange 12 off && plain rs1 && plain rs2) = true := (Bool.and_eq_true_iff.mp hwf).2
  have := rs1.isLt
  have := rs2.isLt
  have := ux_lt 12 off
  obtain ⟨w, hw⟩ : ∃ w, w = encS (ux 12 off) rs2 rs1 4 24 := ⟨_, rfl⟩
  have A : Asm ((ux 12 off) / 32) rs2.val rs1.val 4 ((ux 12 off) % 32) 24 w := ⟨by rw [hw]; first | decide | (simp only [encS] <;> omega), by omega, by omega, by omega, by decide, by omega, by decide⟩
  have f0 : bits w 6 2 = 24 := (b_6_2 A).trans (rfl)
  have f1 : bits w 14 12 = 4 := (b_14_12 A).trans (rfl)
  have f2 : rg w 15 = rs1 := r_15_32 A rs1 (by omega)
  have f3 : rg w 20 = rs2 := r_20_32 A rs2 (by omega)
  have f4 : immS w = off := i_immS A off (by revert h2; simp; intros; assumption) (by omega)
  obtain ⟨w0, w4, wx⟩ := word_ok A (by decide)
  refine single _ w rfl hw.symm w0 w4 wx ?_ rfl
  try simp [plain] at h2
  simp only [decMajor, decBranch, f0, f1, f2, f3, f4] <;> (try simp [failIf, withScope, port, scope_of, tint_of, tflt_of, fmt_of, cond_of, cmpFmt_of, partOk_eq, tflt_ne, tint_ne, h2]) <;> (repeat' split) <;> first | rfl | (exfalso; omega)

theorem bge (rs1 : Reg) (rs2 : Reg) (off : Int) : Statement (.bge rs1 rs2 off) := by
  intro _ hwf
  have h2 : (inRange 12 off && plain rs1 && plain rs2) = true := (Bool.and_eq_true_iff.mp hwf).2
  have := rs1.isLt
  have := rs2.isLt
  have := ux_lt 12 off
  obtain ⟨w, hw⟩ : ∃ w, w = encS (ux 12 off) rs2 rs1 5 24 := ⟨_, rfl⟩
  have A : Asm ((ux 12 off) / 32) rs2.val rs1.val 5 ((ux 12 off) % 32) 24 w := ⟨by rw [hw]; first | decide | (simp only [encS] <;> omega), by omega, by omega, by omega, by decide, by omega, by decide⟩
  have f0 : bits w 6 2 = 24 := (b_6_2 A).trans (rfl)
  have f1 : bits w 14 12 = 5 := (b_14_12 A).trans (rfl)
  have f2 : rg w 15 = rs1 := r_15_32 A rs1 (by omega)
  have f3 : rg w 20 = rs2 := r_20_32 A rs2 (by omega)
  have f4 : immS w = off := i_immS A off (by revert h2; simp; intros; assumption) (by omega)
  obtain ⟨w0, w4, wx⟩ := word_ok A (by decide)
  refine single _ w rfl hw.symm w0 w4 wx ?_ rfl
  try simp [plain] at h2
  simp only [decMajor, decBranch, f0, f1, f2, f3, f4] <;> (try simp [failIf, withScope, port, scope_of, tint_of, tflt_of, fmt_of, cond_of, cmpFmt_of, partOk_eq, tflt_ne, tint_ne, h2]) <;> (repeat' split) <;> first | rfl | (exfalso; omega)

theorem bltu (rs1 : Reg) (rs2 : Reg) (off : Int) : Statement (.bltu rs1 rs2 off) := by
  intro _ hwf
  have h2 : (inRange 12 off && plain rs1 && plain rs2) = true := (Bool.and_eq_true_iff.mp hwf).2
  have := rs1.isLt
  have := rs2.isLt
  have := ux_lt 12 off
  obtain ⟨w, hw⟩ : ∃ w, w = encS (ux 12 off) rs2 rs1 6 24 := ⟨_, rfl⟩
  have A : Asm ((ux 12 off) / 32) rs2.val rs1.val 6 ((ux 12 off) % 32) 24 w := ⟨by rw [hw]; first | decide | (simp only [encS] <;> omega), by omega, by omega, by omega, by decide, by omega, by decide⟩
  have f0 : bits w 6 2 = 24 := (b_6_2 A).trans (rfl)
  have f1 : bits w 14 12 = 6 := (b_14_12 A).trans (rfl)
  have f2 : rg w 15 = rs1 := r_15_32 A rs1 (by omega)
  have f3 : rg w 20 = rs2 := r_20_32 A rs2 (by omega)
  have f4 : immS w = off := i_immS A off (by revert h2; simp; intros; assumption) (by omega)
  obtain ⟨w0, w4, wx⟩ := word_ok A (by decide)
  refine single _ w rfl hw.symm w0 w4 wx ?_ rfl
  try simp [plain] at h2
  simp only [decMajor, decBranch, f0, f1, f2, f3, f4] <;> (try simp [failIf, withScope, port, scope_of, tint_of, tflt_of, fmt_of, cond_of, cmpFmt_of, partOk_eq, tflt_ne, tint_ne, h2]) <;> (repeat' split) <;> first | rfl | (exfalso; omega)

theorem bgeu (rs1 : Reg) (rs2 : Reg) (off : Int) : Statement (.bgeu rs1 rs2 off) := by
  intro _ hwf
  have h2 : (inRange 12 off && plain rs1 && plain rs2) = true := (Bool.and_eq_true_iff.mp hwf).2
  have := rs1.isLt
  have := rs2.isLt
  have := ux_lt 12 off
  obtain ⟨w, hw⟩ : ∃ w, w = encS (ux 12 off) rs2 rs1 7 24 := ⟨_, rfl⟩
  have A : Asm ((ux 12 off) / 32) rs2.val rs1.val 7 ((ux 12 off) % 32) 24 w := ⟨by rw [hw]; first | decide | (simp only [encS] <;> omega), by omega, by omega, by omega, by decide, by omega, by decide⟩
  have f0 : bits w 6 2 = 24 := (b_6_2 A).trans (rfl)
  have f1 : bits w 14 12 = 7 := (b_14_12 A).trans (rfl)
  have f2 : rg w 15 = rs1 := r_15_32 A rs1 (by omega)
  have f3 : rg w 20 = rs2 := r_20_32 A rs2 (by omega)
  have f4 : immS w = off := i_immS A off (by revert h2; simp; intros; assumption) (by omega)
  obtain ⟨w0, w4, wx⟩ := word_ok A (by decide)
  refine single _ w rfl hw.symm w0 w4 wx ?_ rfl
  try simp [plain] at h2
  simp only [decMajor, decBranch, f0, f1, f2, f3, f4] <;> (try simp [failIf, withScope, port, scope_of, tint_of, tflt_of, fmt_of, cond_of, cmpFmt_of, partOk_eq, tflt_ne, tint_ne, h2]) <;> (repeat' split) <;> first | rfl | (exfalso; omega)

theorem jal (rd : Reg) (off : Int) : Statement (.jal rd off) := by
  intro _ hwf
  have h2 : (inRange 20 off && plain rd) = true := (Bool.and_eq_true_iff.mp hwf).2
  have := rd.isLt
  have := ux_lt 20 off
  obtain ⟨w, hw⟩ : ∃ w, w = encU (ux 20 off) rd 27 := ⟨_, rfl⟩
  have A : Asm ((ux 20 off) / 2 ^ 13) ((ux 20 off) / 2 ^ 8 % 32) ((ux 20 off) / 2 ^ 3 % 32) ((ux 20 off) % 8) rd.val 27 w := ⟨by rw [hw]; first | decide | (simp only [encU] <;> omega), by omega, by omega, by omega, by omega, by omega, by decide⟩
  have f0 : bits w 6 2 = 27 := (b_6_2 A).trans (rfl)
  have f1 : rg w 7 = rd := r_7_32 A rd (by omega)
  have f2 : offJ w = off := i_offJ A off (by revert h2; simp; intros; assumption) (by omega)
  obtain ⟨w0, w4, wx⟩ := word_ok A (by decide)
  refine single _ w rfl hw.symm w0 w4 wx ?_ rfl
  try simp [plain] at h2
  simp only [decMajor, f0, f1, f2] <;> (try simp [failIf, withScope, port, scope_of, tint_of, tflt_of, fmt_of, cond_of, cmpFmt_of, partOk_eq, tflt_ne, tint_ne, h2]) <;> (repeat' split) <;> first | rfl | (exfalso; omega)

theorem jalr (rd : Reg) (rs1 : Reg) (imm : Int) : Statement (.jalr rd rs1 imm) := by
  intro _ hwf
  have h2 : (inRange 12 imm && plain rd && plain rs1) = true := (Bool.and_eq_true_iff.mp hwf).2
  have := rd.isLt
  have := rs1.isLt
  have := ux_lt 12 imm
  obtain ⟨w, hw⟩ : ∃ w, w = encI (ux 12 imm) rs1 0 rd 25 := ⟨_, rfl⟩
  have A : Asm ((ux 12 imm) / 32) ((ux 12 imm) % 32) rs1.val 0 rd.val 25 w := ⟨by rw [hw]; first | decide | (simp only [encI] <;> omega), by omega, by omega, by omega, by decide, by omega, by decide⟩
  have f0 : bits w 6 2 = 25 := (b_6_2 A).trans (rfl)
  have f1 : bits w 14 12 = 0 := (b_14_12 A).trans (rfl)
  have f2 : bits w 31 20 = ux 12 imm := (b_31_20 A).trans (by omega)
  have f3 : rg w 15 = rs1 := r_15_32 A rs1 (by omega)
  have f4 : rg w 7 = rd := r_7_32 A rd (by omega)
  have f5 : immI w = imm := i_immI A imm (by revert h2; simp; intros; assumption) (by omega)
  obtain ⟨w0, w4, wx⟩ := word_ok A (by decide)
  refine single _ w rfl hw.symm w0 w4 wx ?_ rfl
  try simp [plain] at h2
  simp only [decMajor, decJump, f0, f1, f2, f3, f4, f5] <;> (try simp [failIf, withScope, port, scope_of, tint_of, tflt_of, fmt_of, cond_of, cmpFmt_of, partOk_eq, tflt_ne, tint_ne, h2]) <;> (repeat' split) <;> first | rfl | (exfalso; omega)

theorem jalp (rd : Reg) (rs1 : Reg) : Statement (.jalp rd rs1) := by
  intro _ hwf
  have h2 : (plain rd && plain rs1) = true := (Bool.and_eq_true_iff.mp hwf).2
  have := rd.isLt
  have := rs1.isLt
  obtain ⟨w, hw⟩ : ∃ w, w = encR 0 0 rs1 1 rd 25 := ⟨_, rfl⟩
  have A : Asm 0 0 rs1.val 1 rd.val 25 w := ⟨by rw [hw]; first | decide | (simp only [encR] <;> omega), by decide, by decide, by omega, by decide, by omega, by decide⟩
  have f0 : bits w 6 2 = 25 := (b_6_2 A).trans (rfl)
  have f1 : bits w 14 12 = 1 := (b_14_12 A).trans (rfl)
  have f2 : bits w 31 20 = 0 := (b_31_20 A).trans (rfl)
  have f3 : rg w 15 = rs1 := r_15_32 A rs1 (by omega)
  have f4 : rg w 7 = rd := r_7_32 A rd (by omega)
  obtain ⟨w0, w4, wx⟩ := word_ok A (by decide)
  refine single _ w rfl hw.symm w0 w4 wx ?_ rfl
  try simp [plain] at h2
  simp only [decMajor, decJump, f0, f1, f2, f3, f4] <;> (try simp [failIf, withScope, port, scope_of, tint_of, tflt_of, fmt_of, cond_of, cmpFmt_of, partOk_eq, tflt_ne, tint_ne, h2]) <;> (repeat' split) <;> first | rfl | (exfalso; omega)

theorem faddS (rd : Reg) (rs1 : Reg) (rs2 : Reg) (rm : Rm) : Statement (.faddS rd rs1 rs2 rm) := by
  intro _ hwf
  have := rd.isLt
  have := rs1.isLt
  have := rs2.isLt
  have := rm.isLt
  obtain ⟨w, hw⟩ : ∃ w, w = encR 0 rs2 rs1 rm.val rd 16 := ⟨_, rfl⟩
  have A : Asm 0 rs2.val rs1.val rm.val rd.val 16 w := ⟨by rw [hw]; first | decide | (simp only [encR] <;> omega), by decide, by omega, by omega, by omega, by omega, by decide⟩
  have f0 : bits w 6 2 = 16 := (b_6_2 A).trans (rfl)
  have f1 : bits w 14 12 = rm.val := (b_14_12 A).trans (by omega)
  have f2 : bits w 31 25 = 0 := (b_31_25 A).trans (rfl)
  have f3 : bits w 24 20 = rs2.val := (b_24_20 A).trans (by omega)
  have f4 : bits w 27 26 = 0 := (b_27_26 A).trans (rfl)
  have f5 : bits w 25 25 = 0 := (b_25_25 A).trans (rfl)
  have f6 : rg w 15 = rs1 := r_15_32 A rs1 (by omega)
  have f7 : rg w 20 = rs2 := r_20_32 A rs2 (by omega)
  have f8 : rg w 7 = rd := r_7_32 A rd (by omega)
  have f9 : laOf w = (0 : Fin 16) := r_28_16 A (0 : Fin 16) (rfl)
  have f10 : rmOf w = rm := r_12_8 A rm (by omega)
  obtain ⟨w0, w4, wx⟩ := word_ok A (by decide)
  refine single _ w rfl hw.symm w0 w4 wx ?_ rfl
  simp only [decMajor, decFp, f0, f1, f2, f3, f4, f5, f6, f7, f8, f9, f10] <;> (try simp [failIf, withScope, port, scope_of, tint_of, tflt_of, fmt_of, cond_of, cmpFmt_of, partOk_eq, tflt_ne, tint_ne]) <;> (repeat' split) <;> first | rfl | (exfalso; omega)

theorem fsubS (rd : Reg) (rs1 : Reg) (rs2 : Reg) (rm : Rm) : Statement (.fsubS rd rs1 rs2 rm) := by
  intro _ hwf
  have := rd.isLt
  have := rs1.isLt
  have := rs2.isLt
  have := rm.isLt
  obtain ⟨w, hw⟩ : ∃ w, w = encR 4 rs2 rs1 rm.val rd 16 := ⟨_, rfl⟩
  have A : Asm 4 rs2.val rs1.val rm.val rd.val 16 w := ⟨by rw [hw]; first | decide | (simp only [encR] <;> omega), by decide, by omega, by omega, by omega, by omega, by decide⟩
  have f0 : bits w 6 2 = 16 := (b_6_2 A).trans (rfl)
  have f1 : bits w 14 12 = rm.val := (b_14_12 A).trans (by omega)
  have f2 : bits w 31 25 = 4 := (b_31_25 A).trans (rfl)
  have f3 : bits w 24 20 = rs2.val := (b_24_20 A).trans (by omega)
  have f4 : bits w 27 26 = 2 := (b_27_26 A).trans (rfl)
  have f5 : bits w 25 25 = 0 := (b_25_25 A).trans (rfl)
  have f6 : rg w 15 = rs1 := r_15_32 A rs1 (by omega)
  have f7 : rg w 20 = rs2 := r_20_32 A rs2 (by omega)
  have f8 : rg w 7 = rd := r_7_32 A rd (by omega)
  have f9 : laOf w = (0 : Fin 16) := r_28_16 A (0 : Fin 16) (rfl)
  have f10 : rmOf w = rm := r_12_8 A rm (by omega)
  obtain ⟨w0, w4, wx⟩ := word_ok A (by decide)
  refine single _ w rfl hw.symm w0 w4 wx ?_ rfl
  simp only [decMajor, decFp, f0, f1, f2, f3, f4, f5, f6, f7, f8, f9, f10] <;> (try simp [failIf, withScope, port, scope_of, tint_of, tflt_of, fmt_of, cond_of, cmpFmt_of, partOk_eq, tflt_ne, tint_ne]) <;> (repeat' split) <;> first | rfl | (exfalso; omega)

theorem fmulS (rd : Reg) (rs1 : Reg) (rs2 : Reg) (rm : Rm) : Statement (.fmulS rd rs1 rs2 rm) := by
  intro _ hwf
  have := rd.isLt
  have := rs1.isLt
  have := rs2.isLt
  have := rm.isLt
  obtain ⟨w, hw⟩ : ∃ w, w = encR 8 rs2 rs1 rm.val rd 16 := ⟨_, rfl⟩
  have A : Asm 8 rs2.val rs1.val rm.val rd.val 16 w := ⟨by rw [hw]; first | decide | (simp only [encR] <;> omega), by decide, by omega, by omega, by omega, by omega, by decide⟩
  have f0 : bits w 6 2 = 16 := (b_6_2 A).trans (rfl)
  have f1 : bits w 14 12 = rm.val := (b_14_12 A).trans (by omega)
  have f2 : bits w 31 25 = 8 := (b_31_25 A).trans (rfl)
  have f3 : bits w 24 20 = rs2.val := (b_24_20 A).trans (by omega)
  have f4 : bits w 27 26 = 0 := (b_27_26 A).trans (rfl)
  have f5 : bits w 25 25 = 0 := (b_25_25 A).trans (rfl)
  have f6 : rg w 15 = rs1 := r_15_32 A rs1 (by omega)
  have f7 : rg w 20 = rs2 := r_20_32 A rs2 (by omega)
  have f8 : rg w 7 = rd := r_7_32 A rd (by omega)
  have f9 : laOf w = (1 : Fin 16) := r_28_16 A (1 : Fin 16) (rfl)
  have f10 : rmOf w = rm := r_12_8 A rm (by omega)
  obtain ⟨w0, w4, wx⟩ := word_ok A (by decide)
  refine single _ w rfl hw.symm w0 w4 wx ?_ rfl
  simp only [decMajor, decFp, f0, f1, f2, f3, f4, f5, f6, f7, f8, f9, f10] <;> (try simp [failIf, withScope, port, scope_of, tint_of, tflt_of, fmt_of, cond_of, cmpFmt_of, partOk_eq, tflt_ne, tint_ne]) <;> (repeat' split) <;> first | rfl | (exfalso; omega)

theorem fminS (rd : Reg) (rs1 : Reg) (rs2 : Reg) : Statement (.fminS rd rs1 rs2) := by
  intro _ hwf
  have := rd.isLt
  have := rs1.isLt
  have := rs2.isLt
  obtain ⟨w, hw⟩ : ∃ w, w = encR 12 rs2 rs1 0 rd 16 := ⟨_, rfl⟩
  have A : Asm 12 rs2.val rs1.val 0 rd.val 16 w := ⟨by rw [hw]; first | decide | (simp only [encR] <;> omega), by decide, by omega, by omega, by decide, by omega, by decide⟩
  have f0 : bits w 6 2 = 16 := (b_6_2 A).trans (rfl)
  have f1 : bits w 14 12 = 0 := (b_14_12 A).trans (rfl)
  have f2 : bits w 31 25 = 12 := (b_31_25 A).trans (rfl)
  have f3 : bits w 24 20 = rs2.val := (b_24_20 A).trans (by omega)
  have f4 : bits w 27 26 = 2 := (b_27_26 A).trans (rfl)
  have f5 : bits w 25 25 = 0 := (b_25_25 A).trans (rfl)
  have f6 : rg w 15 = rs1 := r_15_32 A rs1 (by omega)
  have f7 : rg w 20 = rs2 := r_20_32 A rs2 (by omega)
  have f8 : rg w 7 = rd := r_7_32 A rd (by omega)
  have f9 : laOf w = (1 : Fin 16) := r_28_16 A (1 : Fin 16) (rfl)
  have f10 : rmOf w = (0 : Fin 8) := r_12_8 A (0 : Fin 8) (rfl)
  obtain ⟨w0, w4, wx⟩ := word_ok A (by decide)
  refine single _ w rfl hw.symm w0 w4 wx ?_ rfl
  simp only [decMajor, decFp, f0, f1, f2, f3, f4, f5, f6, f7, f8, f9, f10] <;> (try simp [failIf, withScope, port, scope_of, tint_of, tflt_of, fmt_of, cond_of, cmpFmt_of, partOk_eq, tflt_ne, tint_ne]) <;> (repeat' split) <;> first | rfl | (exfalso; omega)

theorem fmaxS (rd : Reg) (rs1 : Reg) (rs2 : Reg) : Statement (.fmaxS rd rs1 rs2) := by
  intro _ hwf
  have := rd.isLt
  have := rs1.isLt
  have := rs2.isLt
  obtain ⟨w, hw⟩ : ∃ w, w = encR 12 rs2 rs1 1 rd 16 := ⟨_, rfl⟩
  have A : Asm 12 rs2.val rs1.val 1 rd.val 16 w := ⟨by rw [hw]; first | decide | (simp only [encR] <;> omega), by decide, by omega, by omega, by decide, by omega, by decide⟩
  have f0 : bits w 6 2 = 16 := (b_6_2 A).trans (rfl)
  have f1 : bits w 14 12 = 1 := (b_14_12 A).trans (rfl)
  have f2 : bits w 31 25 = 12 := (b_31_25 A).trans (rfl)
  have f3 : bits w 24 20 = rs2.val := (b_24_20 A).trans (by omega)
  have f4 : bits w 27 26 = 2 := (b_27_26 A).trans (rfl)
  have f5 : bits w 25 25 = 0 := (b_25_25 A).trans (rfl)
  have f6 : rg w 15 = rs1 := r_15_32 A rs1 (by omega)
  have f7 : rg w 20 = rs2 := r_20_32 A rs2 (by omega)
  have f8 : rg w 7 = rd := r_7_32 A rd (by omega)
  have f9 : laOf w = (1 : Fin 16) := r_28_16 A (1 : Fin 16) (rfl)
  have f10 : rmOf w = (1 : Fin 8) := r_12_8 A (1 : Fin 8) (rfl)
  obtain ⟨w0, w4, wx⟩ := word_ok A (by decide)
  refine single _ w rfl hw.symm w0 w4 wx ?_ rfl
  simp only [decMajor, decFp, f0, f1, f2, f3, f4, f5, f6, f7, f8, f9, f10] <;> (try simp [failIf, withScope, port, scope_of, tint_of, tflt_of, fmt_of, cond_of, cmpFmt_of, partOk_eq, tflt_ne, tint_ne]) <;> (repeat' split) <;> first | rfl | (exfalso; omega)

theorem fsgnjS (rd : Reg) (rs1 : Reg) (rs2 : Reg) : Statement (.fsgnjS rd rs1 rs2) := by
  intro _ hwf
  have := rd.isLt
  have := rs1.isLt
  have := rs2.isLt
  obtain ⟨w, hw⟩ : ∃ w, w = encR 16 rs2 rs1 0 rd 16 := ⟨_, rfl⟩
  have A : Asm 16 rs2.val rs1.val 0 rd.val 16 w := ⟨by rw [hw]; first | decide | (simp only [encR] <;> omega), by decide, by omega, by omega, by decide, by omega, by decide⟩
  have f0 : bits w 6 2 = 16 := (b_6_2 A).trans (rfl)
  have f1 : bits w 14 12 = 0 := (b_14_12 A).trans (rfl)
  have f2 : bits w 31 25 = 16 := (b_31_25 A).trans (rfl)
  have f3 : bits w 24 20 = rs2.val := (b_24_20 A).trans (by omega)
  have f4 : bits w 27 26 = 0 := (b_27_26 A).trans (rfl)
  have f5 : bits w 25 25 = 0 := (b_25_25 A).trans (rfl)
  have f6 : rg w 15 = rs1 := r_15_32 A rs1 (by omega)
  have f7 : rg w 20 = rs2 := r_20_32 A rs2 (by omega)
  have f8 : rg w 7 = rd := r_7_32 A rd (by omega)
  have f9 : laOf w = (2 : Fin 16) := r_28_16 A (2 : Fin 16) (rfl)
  have f10 : rmOf w = (0 : Fin 8) := r_12_8 A (0 : Fin 8) (rfl)
  obtain ⟨w0, w4, wx⟩ := word_ok A (by decide)
  refine single _ w rfl hw.symm w0 w4 wx ?_ rfl
  simp only [decMajor, decFp, f0, f1, f2, f3, f4, f5, f6, f7, f8, f9, f10] <;> (try simp [failIf, withScope, port, scope_of, tint_of, tflt_of, fmt_of, cond_of, cmpFmt_of, partOk_eq, tflt_ne, tint_ne]) <;> (repeat' split) <;> first | rfl | (exfalso; omega)

theorem fsgnjnS (rd : Reg) (rs1 : Reg) (rs2 : Reg) : Statement (.fsgnjnS rd rs1 rs2) := by
  intro _ hwf
  have := rd.isLt
  have := rs1.isLt
  have := rs2.isLt
  obtain ⟨w, hw⟩ : ∃ w, w = encR 16 rs2 rs1 1 rd 16 := ⟨_, rfl⟩
  have A : Asm 16 rs2.val rs1.val 1 rd.val 16 w := ⟨by rw [hw]; first | decide | (simp only [encR] <;> omega), by decide, by omega, by omega, by decide, by omega, by decide⟩
  have f0 : bits w 6 2 = 16 := (b_6_2 A).trans (rfl)
  have f1 : bits w 14 12 = 1 := (b_14_12 A).trans (rfl)
  have f2 : bits w 31 25 = 16 := (b_31_25 A).trans (rfl)
  have f3 : bits w 24 20 = rs2.val := (b_24_20 A).trans (by omega)
  have f4 : bits w 27 26 = 0 := (b_27_26 A).trans (rfl)
  have f5 : bits w 25 25 = 0 := (b_25_25 A).trans (rfl)
  have f6 : rg w 15 = rs1 := r_15_32 A rs1 (by omega)
  have f7 : rg w 20 = rs2 := r_20_32 A rs2 (by omega)
  have f8 : rg w 7 = rd := r_7_32 A rd (by omega)
  have f9 : laOf w = (2 : Fin 16) := r_28_16 A (2 : Fin 16) (rfl)
  have f10 : rmOf w = (1 : Fin 8) := r_12_8 A (1 : Fin 8) (rfl)
  obtain ⟨w0, w4, wx⟩ := word_ok A (by decide)
  refine single _ w rfl hw.symm w0 w4 wx ?_ rfl
  simp only [decMajor, decFp, f0, f1, f2, f3, f4, f5, f6, f7, f8, f9, f10] <;> (try simp [failIf, withScope, port, scope_of, tint_of, tflt_of, fmt_of, cond_of, cmpFmt_of, partOk_eq, tflt_ne, tint_ne]) <;> (repeat' split) <;> first | rfl | (exfalso; omega)

theorem fsgnjxS (rd : Reg) (rs1 : Reg) (rs2 : Reg) : Statement (.fsgnjxS rd rs1 rs2) := by
  intro _ hwf
  have := rd.isLt
  have := rs1.isLt
  have := rs2.isLt
  obtain ⟨w, hw⟩ : ∃ w, w = encR 16 rs2 rs1 2 rd 16 := ⟨_, rfl⟩
  have A : Asm 16 rs2.val rs1.val 2 rd.val 16 w := ⟨by rw [hw]; first | decide | (simp only [encR] <;> omega), by decide, by omega, by omega, by decide, by omega, by decide⟩
  have f0 : bits w 6 2 = 16 := (b_6_2 A).trans (rfl)
  have f1 : bits w 14 12 = 2 := (b_14_12 A).trans (rfl)
  have f2 : bits w 31 25 = 16 := (b_31_25 A).trans (rfl)
  have f3 : bits w 24 20 = rs2.val := (b_24_20 A).trans (by omega)
  have f4 : bits w 27 26 = 0 := (b_27_26 A).trans (rfl)
  have f5 : bits w 25 25 = 0 := (b_25_25 A).trans (rfl)
  have f6 : rg w 15 = rs1 := r_15_32 A rs1 (by omega)
  have f7 : rg w 20 = rs2 := r_20_32 A rs2 (by omega)
  have f8 : rg w 7 = rd := r_7_32 A rd (by omega)
  have f9 : laOf w = (2 : Fin 16) := r_28_16 A (2 : Fin 16) (rfl)
  have f10 : rmOf w = (2 : Fin 8) := r_12_8 A (2 : Fin 8) (rfl)
  obtain ⟨w0, w4, wx⟩ := word_ok A (by decide)
  refine single _ w rfl hw.symm w0 w4 wx ?_ rfl
  simp only [decMajor, decFp, f0, f1, f2, f3, f4, f5, f6, f7, f8, f9, f10] <;> (try simp [failIf, withScope, port, scope_of, tint_of, tflt_of, fmt_of, cond_of, cmpFmt_of, partOk_eq, tflt_ne, tint_ne]) <;> (repeat' split) <;> first | rfl | (exfalso; omega)

theorem fleS (rd : Reg) (rs1 : Reg) (rs2 : Reg) : Statement (.fleS rd rs1 rs2) := by
  intro _ hwf
  have := rd.isLt
  have := rs1.isLt
  have := rs2.isLt
  obtain ⟨w, hw⟩ : ∃ w, w = encR 20 rs2 rs1 0 rd 16 := ⟨_, rfl⟩
  have A : Asm 20 rs2.val rs1.val 0 rd.val 16 w := ⟨by rw [hw]; first | decide | (simp only [encR] <;> omega), by decide, by omega, by omega, by decide, by omega, by decide⟩
  have f0 : bits w 6 2 = 16 := (b_6_2 A).trans (rfl)
  have f1 : bits w 14 12 = 0 := (b_14_12 A).trans (rfl)
  have f2 : bits w 31 25 = 20 := (b_31_25 A).trans (rfl)
  have f3 : bits w 24 20 = rs2.val := (b_24_20 A).trans (by omega)
  have f4 : bits w 27 26 = 2 := (b_27_26 A).trans (rfl)
  have f5 : bits w 25 25 = 0 := (b_25_25 A).trans (rfl)
  have f6 : rg w 15 = rs1 := r_15_32 A rs1 (by omega)
  have f7 : rg w 20 = rs2 := r_20_32 A rs2 (by omega)
  have f8 : rg w 7 = rd := r_7_32 A rd (by omega)
  have f9 : laOf w = (2 : Fin 16) := r_28_16 A (2 : Fin 16) (rfl)
  have f10 : rmOf w = (0 : Fin 8) := r_12_8 A (0 : Fin 8) (rfl)
  obtain ⟨w0, w4, wx⟩ := word_ok A (by decide)
  refine single _ w rfl hw.symm w0 w4 wx ?_ rfl
  simp only [decMajor, decFp, f0, f1, f2, f3, f4, f5, f6, f7, f8, f9, f10] <;> (try simp [failIf, withScope, port, scope_of, tint_of, tflt_of, fmt_of, cond_of, cmpFmt_of, partOk_eq, tflt_ne, tint_ne]) <;> (repeat' split) <;> first | rfl | (exfalso; omega)

theorem fltS (rd : Reg) (rs1 : Reg) (rs2 : Reg) : Statement (.fltS rd rs1 rs2) := by
  intro _ hwf
  have := rd.isLt
  have := rs1.isLt
  have := rs2.isLt
  obtain ⟨w, hw⟩ : ∃ w, w = encR 20 rs2 rs1 1 rd 16 := ⟨_, rfl⟩
  have A : Asm 20 rs2.val rs1.val 1 rd.val 16 w := ⟨by rw [hw]; first | decide | (simp only [encR] <;> omega), by decide, by omega, by omega, by decide, by omega, by decide⟩
  have f0 : bits w 6 2 = 16 := (b_6_2 A).trans (rfl)
  have f1 : bits w 14 12 = 1 := (b_14_12 A).trans (rfl)
  have f2 : bits w 31 25 = 20 := (b_31_25 A).trans (rfl)
  have f3 : bits w 24 20 = rs2.val := (b_24_20 A).trans (by omega)
  have f4 : bits w 27 26 = 2 := (b_27_26 A).trans (rfl)
  have f5 : bits w 25 25 = 0 := (b_25_25 A).trans (rfl)
  have f6 : rg w 15 = rs1 := r_15_32 A rs1 (by omega)
  have f7 : rg w 20 = rs2 := r_20_32 A rs2 (by omega)
  have f8 : rg w 7 = rd := r_7_32 A rd (by omega)
  have f9 : laOf w = (2 : Fin 16) := r_28_16 A (2 : Fin 16) (rfl)
  have f10 : rmOf w = (1 : Fin 8) := r_12_8 A (1 : Fin 8) (rfl)
  obtain ⟨w0, w4, wx⟩ := word_ok A (by decide)
  refine single _ w rfl hw.symm w0 w4 wx ?_ rfl
  simp only [decMajor, decFp, f0, f1, f2, f3, f4, f5, f6, f7, f8, f9, f10] <;> (try simp [failIf, withScope, port, scope_of, tint_of, tflt_of, fmt_of, cond_of, cmpFmt_of, partOk_eq, tflt_ne, tint_ne]) <;> (repeat' split) <;> first | rfl | (exfalso; omega)

theorem feqS (rd : Reg) (rs1 : Reg) (rs2 : Reg) : Statement (.feqS rd rs1 rs2) := by
  intro _ hwf
  have := rd.isLt
  have := rs1.isLt
  have := rs2.isLt
  obtain ⟨w, hw⟩ : ∃ w, w = encR 20 rs2 rs1 2 rd 16 := ⟨_, rfl⟩
  have A : Asm 20 rs2.val rs1.val 2 rd.val 16 w := ⟨by rw [hw]; first | decide | (simp only [encR] <;> omega), by decide, by omega, by omega, by decide, by omega, by decide⟩
  have f0 : bits w 6 2 = 16 := (b_6_2 A).trans (rfl)
  have f1 : bits w 14 12 = 2 := (b_14_12 A).trans (rfl)
  have f2 : bits w 31 25 = 20 := (b_31_25 A).trans (rfl)
  have f3 : bits w 24 20 = rs2.val := (b_24_20 A).trans (by omega)
  have f4 : bits w 27 26 = 2 := (b_27_26 A).trans (rfl)
  have f5 : bits w 25 25 = 0 := (b_25_25 A).trans (rfl)
  have f6 : rg w 15 = rs1 := r_15_32 A rs1 (by omega)
  have f7 : rg w 20 = rs2 := r_20_32 A rs2 (by omega)
  have f8 : rg w 7 = rd := r_7_32 A rd (by omega)
  have f9 : laOf w = (2 : Fin 16) := r_28_16 A (2 : Fin 16) (rfl)
  have f10 : rmOf w = (2 : Fin 8) := r_12_8 A (2 : Fin 8) (rfl)
  obtain ⟨w0, w4, wx⟩ := word_ok A (by decide)
  refine single _ w rfl hw.symm w0 w4 wx ?_ rfl
  simp only [decMajor, decFp, f0, f1, f2, f3, f4, f5, f6, f7, f8, f9, f10] <;> (try simp [failIf, withScope, port, scope_of, tint_of, tflt_of, fmt_of, cond_of, cmpFmt_of, partOk_eq, tflt_ne, tint_ne]) <;> (repeat' split) <;> first | rfl | (exfalso; omega)

theorem fclassS (rd : Reg) (rs1 : Reg) : Statement (.fclassS rd rs1) := by
  intro _ hwf
  have := rd.isLt
  have := rs1.isLt
  obtain ⟨w, hw⟩ : ∃ w, w = encR 24 0 rs1 0 rd 16 := ⟨_, rfl⟩
  have A : Asm 24 0 rs1.val 0 rd.val 16 w := ⟨by rw [hw]; first | decide | (simp only [encR] <;> omega), by decide, by decide, by omega, by decide, by omega, by decide⟩
  have f0 : bits w 6 2 = 16 := (b_6_2 A).trans (rfl)
  have f1 : bits w 14 12 = 0 := (b_14_12 A).trans (rfl)
  have f2 : bits w 31 25 = 24 := (b_31_25 A).trans (rfl)
  have f3 : bits w 24 20 = 0 := (b_24_20 A).trans (rfl)
  have f4 : bits w 27 26 = 0 := (b_27_26 A).trans (rfl)
  have f5 : bits w 25 25 = 0 := (b_25_25 A).trans (rfl)
  have f6 : rg w 15 = rs1 := r_15_32 A rs1 (by omega)
  have f7 : rg w 20 = (0 : Fin 32) := r_20_32 A (0 : Fin 32) (rfl)
  have f8 : rg w 7 = rd := r_7_32 A rd (by omega)
  have f9 : laOf w = (3 : Fin 16) := r_28_16 A (3 : Fin 16) (rfl)
  have f10 : rmOf w = (0 : Fin 8) := r_12_8 A (0 : Fin 8) (rfl)
  obtain ⟨w0, w4, wx⟩ := word_ok A (by decide)
  refine single _ w rfl hw.symm w0 w4 wx ?_ rfl
  simp only [decMajor, decFp, f0, f1, f2, f3, f4, f5, f6, f7, f8, f9, f10] <;> (try simp [failIf, withScope, port, scope_of, tint_of, tflt_of, fmt_of, cond_of, cmpFmt_of, partOk_eq, tflt_ne, tint_ne]) <;> (repeat' split) <;> first | rfl | (exfalso; omega)

theorem fcvtWS (rd : Reg) (rs1 : Reg) (rm : Rm) : Statement (.fcvtWS rd rs1 rm) := by
  intro _ hwf
  have := rd.isLt
  have := rs1.isLt
  have := rm.isLt
  obtain ⟨w, hw⟩ : ∃ w, w = encR 28 0 rs1 rm.val rd 16 := ⟨_, rfl⟩
  have A : Asm 28 0 rs1.val rm.val rd.val 16 w := ⟨by rw [hw]; first | decide | (simp only [encR] <;> omega), by decide, by decide, by omega, by omega, by omega, by decide⟩
  have f0 : bits w 6 2 = 16 := (b_6_2 A).trans (rfl)
  have f1 : bits w 14 12 = rm.val := (b_14_12 A).trans (by omega)
  have f2 : bits w 31 25 = 28 := (b_31_25 A).trans (rfl)
  have f3 : bits w 24 20 = 0 := (b_24_20 A).trans (rfl)
  have f4 : bits w 27 26 = 2 := (b_27_26 A).trans (rfl)
  have f5 : bits w 25 25 = 0 := (b_25_25 A).trans (rfl)
  have f6 : rg w 15 = rs1 := r_15_32 A rs1 (by omega)
  have f7 : rg w 20 = (0 : Fin 32) := r_20_32 A (0 : Fin 32) (rfl)
  have f8 : rg w 7 = rd := r_7_32 A rd (by omega)
  have f9 : laOf w = (3 : Fin 16) := r_28_16 A (3 : Fin 16) (rfl)
  have f10 : rmOf w = rm := r_12_8 A rm (by omega)
  obtain ⟨w0, w4, wx⟩ := word_ok A (by decide)
  refine single _ w rfl hw.symm w0 w4 wx ?_ rfl
  simp only [decMajor, decFp, f0, f1, f2, f3, f4, f5, f6, f7, f8, f9, f10] <;> (try simp [failIf, withScope, port, scope_of, tint_of, tflt_of, fmt_of, cond_of, cmpFmt_of, partOk_eq, tflt_ne, tint_ne]) <;> (repeat' split) <;> first | rfl | (exfalso; omega)

theorem fcvtWuS (rd : Reg) (rs1 : Reg) (rm : Rm) : Statement (.fcvtWuS rd rs1 rm) := by
  intro _ hwf
  have := rd.isLt
  have := rs1.isLt
  have := rm.isLt
  obtain ⟨w, hw⟩ : ∃ w, w = encR 28 1 rs1 rm.val rd 16 := ⟨_, rfl⟩
  have A : Asm 28 1 rs1.val rm.val rd.val 16 w := ⟨by rw [hw]; first | decide | (simp only [encR] <;> omega), by decide, by decide, by omega, by omega, by omega, by decide⟩
  have f0 : bits w 6 2 = 16 := (b_6_2 A).trans (rfl)
  have f1 : bits w 14 12 = rm.val := (b_14_12 A).trans (by omega)
  have f2 : bits w 31 25 = 28 := (b_31_25 A).trans (rfl)
  have f3 : bits w 24 20 = 1 := (b_24_20 A).trans (rfl)
  have f4 : bits w 27 26 = 2 := (b_27_26 A).trans (rfl)
  have f5 : bits w 25 25 = 0 := (b_25_25 A).trans (rfl)
  have f6 : rg w 15 = rs1 := r_15_32 A rs1 (by omega)
  have f7 : rg w 20 = (1 : Fin 32) := r_20_32 A (1 : Fin 32) (rfl)
  have f8 : rg w 7 = rd := r_7_32 A rd (by omega)
  have f9 : laOf w = (3 : Fin 16) := r_28_16 A (3 : Fin 16) (rfl)
  have f10 : rmOf w = rm := r_12_8 A rm (by omega)
  obtain ⟨w0, w4, wx⟩ := word_ok A (by decide)
  refine single _ w rfl hw.symm w0 w4 wx ?_ rfl
  simp only [decMajor, decFp, f0, f1, f2, f3, f4, f5, f6, f7, f8, f9, f10] <;> (try simp [failIf, withScope, port, scope_of, tint_of, tflt_of, fmt_of, cond_of, cmpFmt_of, partOk_eq, tflt_ne, tint_ne]) <;> (repeat' split) <;> first | rfl | (exfalso; omega)

theorem fcvtLS (rd : Reg) (rs1 : Reg) (rm : Rm) : Statement (.fcvtLS rd rs1 rm) := by
  intro _ hwf
  have := rd.isLt
  have := rs1.isLt
  have := rm.isLt
  obtain ⟨w, hw⟩ : ∃ w, w = encR 28 2 rs1 rm.val rd 16 := ⟨_, rfl⟩
  have A : Asm 28 2 rs1.val rm.val rd.val 16 w := ⟨by rw [hw]; first | decide | (simp only [encR] <;> omega), by decide, by decide, by omega, by omega, by omega, by decide⟩
  have f0 : bits w 6 2 = 16 := (b_6_2 A).trans (rfl)
  have f1 : bits w 14 12 = rm.val := (b_14_12 A).trans (by omega)
  have f2 : bits w 31 25 = 28 := (b_31_25 A).trans (rfl)
  have f3 : bits w 24 20 = 2 := (b_24_20 A).trans (rfl)
  have f4 : bits w 27 26 = 2 := (b_27_26 A).trans (rfl)
  have f5 : bits w 25 25 = 0 := (b_25_25 A).trans (rfl)
  have f6 : rg w 15 = rs1 := r_15_32 A rs1 (by omega)
  have f7 : rg w 20 = (2 : Fin 32) := r_20_32 A (2 : Fin 32) (rfl)
  have f8 : rg w 7 = rd := r_7_32 A rd (by omega)
  have f9 : laOf w = (3 : Fin 16) := r_28_16 A (3 : Fin 16) (rfl)
  have f10 : rmOf w = rm := r_12_8 A rm (by omega)
  obtain ⟨w0, w4, wx⟩ := word_ok A (by decide)
  refine single _ w rfl hw.symm w0 w4 wx ?_ rfl
  simp only [decMajor, decFp, f0, f1, f2, f3, f4, f5, f6, f7, f8, f9, f10] <;> (try simp [failIf, withScope, port, scope_of, tint_of, tflt_of, fmt_of, cond_of, cmpFmt_of, partOk_eq, tflt_ne, tint_ne]) <;> (repeat' split) <;> first | rfl | (exfalso; omega)

theorem fcvtLuS (rd : Reg) (rs1 : Reg) (rm : Rm) : Statement (.fcvtLuS rd rs1 rm) := by
  intro _ hwf
  have := rd.isLt
  have := rs1.isLt
  have := rm.isLt
  obtain ⟨w, hw⟩ : ∃ w, w = encR 28 3 rs1 rm.val rd 16 := ⟨_, rfl⟩
  have A : Asm 28 3 rs1.val rm.val rd.val 16 w := ⟨by rw [hw]; first | decide | (simp only [encR] <;> omega), by decide, by decide, by omega, by omega, by omega, by decide⟩
  have f0 : bits w 6 2 = 16 := (b_6_2 A).trans (rfl)
  have f1 : bits w 14 12 = rm.val := (b_14_12 A).trans (by omega)
  have f2 : bits w 31 25 = 28 := (b_31_25 A).trans (rfl)
  have f3 : bits w 24 20 = 3 := (b_24_20 A).trans (rfl)
  have f4 : bits w 27 26 = 2 := (b_27_26 A).trans (rfl)
  have f5 : bits w 25 25 = 0 := (b_25_25 A).trans (rfl)
  have f6 : rg w 15 = rs1 := r_15_32 A rs1 (by omega)
  have f7 : rg w 20 = (3 : Fin 32) := r_20_32 A (3 : Fin 32) (rfl)
  have f8 : rg w 7 = rd := r_7_32 A rd (by omega)
  have f9 : laOf w = (3 : Fin 16) := r_28_16 A (3 : Fin 16) (rfl)
  have f10 : rmOf w = rm := r_12_8 A rm (by omega)
  obtain ⟨w0, w4, wx⟩ := word_ok A (by decide)
  refine single _ w rfl hw.symm w0 w4 wx ?_ rfl
  simp only [decMajor, decFp, f0, f1, f2, f3, f4, f5, f6, f7, f8, f9, f10] <;> (try simp [failIf, withScope, port, scope_of, tint_of, tflt_of, fmt_of, cond_of, cmpFmt_of, partOk_eq, tflt_ne, tint_ne]) <;> (repeat' split) <;> first | rfl | (exfalso; omega)

theorem fcvtSW (rd : Reg) (rs1 : Reg) (rm : Rm) : Statement (.fcvtSW rd rs1 rm) := by
  intro _ hwf
  have := rd.isLt
  have := rs1.isLt
  have := rm.isLt
  obtain ⟨w, hw⟩ : ∃ w, w = encR 32 0 rs1 rm.val rd 16 := ⟨_, rfl⟩
  have A : Asm 32 0 rs1.val rm.val rd.val 16 w := ⟨by rw [hw]; first | decide | (simp only [encR] <;> omega), by decide, by decide, by omega, by omega, by omega, by decide⟩
  have f0 : bits w 6 2 = 16 := (b_6_2 A).trans (rfl)
  have f1 : bits w 14 12 = rm.val := (b_14_12 A).trans (by omega)
  have f2 : bits w 31 25 = 32 := (b_31_25 A).trans (rfl)
  have f3 : bits w 24 20 = 0 := (b_24_20 A).trans (rfl)
  have f4 : bits w 27 26 = 0 := (b_27_26 A).trans (rfl)
  have f5 : bits w 25 25 = 0 := (b_25_25 A).trans (rfl)
  have f6 : rg w 15 = rs1 := r_15_32 A rs1 (by omega)
  have f7 : rg w 20 = (0 : Fin 32) := r_20_32 A (0 : Fin 32) (rfl)
  have f8 : rg w 7 = rd := r_7_32 A rd (by omega)
  have f9 : laOf w = (4 : Fin 16) := r_28_16 A (4 : Fin 16) (rfl)
  have f10 : rmOf w = rm := r_12_8 A rm (by omega)
  obtain ⟨w0, w4, wx⟩ := word_ok A (by decide)
  refine single _ w rfl hw.symm w0 w4 wx ?_ rfl
  simp only [decMajor, decFp, f0, f1, f2, f3, f4, f5, f6, f7, f8, f9, f10] <;> (try simp [failIf, withScope, port, scope_of, tint_of, tflt_of, fmt_of, cond_of, cmpFmt_of, partOk_eq, tflt_ne, tint_ne]) <;> (repeat' split) <;> first | rfl | (exfalso; omega)

theorem fcvtSWu (rd : Reg) (rs1 : Reg) (rm : Rm) : Statement (.fcvtSWu rd rs1 rm) := by
  intro _ hwf
  have := rd.isLt
  have := rs1.isLt
  have := rm.isLt
  obtain ⟨w, hw⟩ : ∃ w, w = encR 32 1 rs1 rm.val rd 16 := ⟨_, rfl⟩
  have A : Asm 32 1 rs1.val rm.val rd.val 16 w := ⟨by rw [hw]; first | decide | (simp only [encR] <;> omega), by decide, by decide, by omega, by omega, by omega, by decide⟩
  have f0 : bits w 6 2 = 16 := (b_6_2 A).trans (rfl)
  have f1 : bits w 14 12 = rm.val := (b_14_12 A).trans (by omega)
  have f2 : bits w 31 25 = 32 := (b_31_25 A).trans (rfl)
  have f3 : bits w 24 20 = 1 := (b_24_20 A).trans (rfl)
  have f4 : bits w 27 26 = 0 := (b_27_26 A).trans (rfl)
  have f5 : bits w 25 25 = 0 := (b_25_25 A).trans (rfl)
  have f6 : rg w 15 = rs1 := r_15_32 A rs1 (by omega)
  have f7 : rg w 20 = (1 : Fin 32) := r_20_32 A (1 : Fin 32) (rfl)
  have f8 : rg w 7 = rd := r_7_32 A rd (by omega)
  have f9 : laOf w = (4 : Fin 16) := r_28_16 A (4 : Fin 16) (rfl)
  have f10 : rmOf w = rm := r_12_8 A rm (by omega)
  obtain ⟨w0, w4, wx⟩ := word_ok A (by decide)
  refine single _ w rfl hw.symm w0 w4 wx ?_ rfl
  simp only [decMajor, decFp, f0, f1, f2, f3, f4, f5, f6, f7, f8, f9, f10] <;> (try simp [failIf, withScope, port, scope_of, tint_of, tflt_of, fmt_of, cond_of, cmpFmt_of, partOk_eq, tflt_ne, tint_ne]) <;> (repeat' split) <;> first | rfl | (exfalso; omega)

theorem fcvtSL (rd : Reg) (rs1 : Reg) (rm : Rm) : Statement (.fcvtSL rd rs1 rm) := by
  intro _ hwf
  have := rd.isLt
  have := rs1.isLt
  have := rm.isLt
  obtain ⟨w, hw⟩ : ∃ w, w = encR 32 2 rs1 rm.val rd 16 := ⟨_, rfl⟩
  have A : Asm 32 2 rs1.val rm.val rd.val 16 w := ⟨by rw [hw]; first | decide | (simp only [encR] <;> omega), by decide, by decide, by omega, by omega, by omega, by decide⟩
  have f0 : bits w 6 2 = 16 := (b_6_2 A).trans (rfl)
  have f1 : bits w 14 12 = rm.val := (b_14_12 A).trans (by omega)
  have f2 : bits w 31 25 = 32 := (b_31_25 A).trans (rfl)
  have f3 : bits w 24 20 = 2 := (b_24_20 A).trans (rfl)
  have f4 : bits w 27 26 = 0 := (b_27_26 A).trans (rfl)
  have f5 : bits w 25 25 = 0 := (b_25_25 A).trans (rfl)
  have f6 : rg w 15 = rs1 := r_15_32 A rs1 (by omega)
  have f7 : rg w 20 = (2 : Fin 32) := r_20_32 A (2 : Fin 32) (rfl)
  have f8 : rg w 7 = rd := r_7_32 A rd (by omega)
  have f9 : laOf w = (4 : Fin 16) := r_28_16 A (4 : Fin 16) (rfl)
  have f10 : rmOf w = rm := r_12_8 A rm (by omega)
  obtain ⟨w0, w4, wx⟩ := word_ok A (by decide)
  refine single _ w rfl hw.symm w0 w4 wx ?_ rfl
  simp only [decMajor, decFp, f0, f1, f2, f3, f4, f5, f6, f7, f8, f9, f10] <;> (try simp [failIf, withScope, port, scope_of, tint_of, tflt_of, fmt_of, cond_of, cmpFmt_of, partOk_eq, tflt_ne, tint_ne]) <;> (repeat' split) <;> first | rfl | (exfalso; omega)

theorem fcvtSLu (rd : Reg) (rs1 : Reg) (rm : Rm) : Statement (.fcvtSLu rd rs1 rm) := by
  intro _ hwf
  have := rd.isLt
  have := rs1.isLt
  have := rm.isLt
  obtain ⟨w, hw⟩ : ∃ w, w = encR 32 3 rs1 rm.val rd 16 := ⟨_, rfl⟩
  have A : Asm 32 3 rs1.val rm.val rd.val 16 w := ⟨by rw [hw]; first | decide | (simp only [encR] <;> omega), by decide, by decide, by omega, by omega, by omega, by decide⟩
  have f0 : bits w 6 2 = 16 := (b_6_2 A).trans (rfl)
  have f1 : bits w 14 12 = rm.val := (b_14_12 A).trans (by omega)
  have f2 : bits w 31 25 = 32 := (b_31_25 A).trans (rfl)
  have f3 : bits w 24 20 = 3 := (b_24_20 A).trans (rfl)
  have f4 : bits w 27 26 = 0 := (b_27_26 A).trans (rfl)
  have f5 : bits w 25 25 = 0 := (b_25_25 A).trans (rfl)
  have f6 : rg w 15 = rs1 := r_15_32 A rs1 (by omega)
  have f7 : rg w 20 = (3 : Fin 32) := r_20_32 A (3 : Fin 32) (rfl)
  have f8 : rg w 7 = rd := r_7_32 A rd (by omega)
  have f9 : laOf w = (4 : Fin 16) := r_28_16 A (4 : Fin 16) (rfl)
  have f10 : rmOf w = rm := r_12_8 A rm (by omega)
  obtain ⟨w0, w4, wx⟩ := word_ok A (by decide)
  refine single _ w rfl hw.symm w0 w4 wx ?_ rfl
  simp only [decMajor, decFp, f0, f1, f2, f3, f4, f5, f6, f7, f8, f9, f10] <;> (try simp [failIf, withScope, port, scope_of, tint_of, tflt_of, fmt_of, cond_of, cmpFmt_of, partOk_eq, tflt_ne, tint_ne]) <;> (repeat' split) <;> first | rfl | (exfalso; omega)

theorem fdivS (rd : Reg) (rs1 : Reg) (rs2 : Reg) (rm : Rm) (la : La) : Statement (.fdivS rd rs1 rs2 rm la) := by
  intro _ hwf
  have h2 : (plain rd) = true := (Bool.and_eq_true_iff.mp hwf).2
  have := rd.isLt
  have := rs1.isLt
  have := rs2.isLt
  have := rm.isLt
  have := la.isLt
  obtain ⟨w, hw⟩ : ∃ w, w = encV la.val 6 rs2 rs1 rm.val rd 16 := ⟨_, rfl⟩
  have A : Asm (la.val * 8 + 6) rs2.val rs1.val rm.val rd.val 16 w := ⟨by rw [hw]; first | decide | (simp only [encV] <;> omega), by omega, by omega, by omega, by omega, by omega, by decide⟩
  have f0 : bits w 6 2 = 16 := (b_6_2 A).trans (rfl)
  have f1 : bits w 14 12 = rm.val := (b_14_12 A).trans (by omega)
  have f2 : bits w 24 20 = rs2.val := (b_24_20 A).trans (by omega)
  have f3 : bits w 27 26 = 3 := (b_27_26 A).trans (by omega)
  have f4 : bits w 25 25 = 0 := (b_25_25 A).trans (by omega)
  have f5 : rg w 15 = rs1 := r_15_32 A rs1 (by omega)
  have f6 : rg w 20 = rs2 := r_20_32 A rs2 (by omega)
  have f7 : rg w 7 = rd := r_7_32 A rd (by omega)
  have f8 : laOf w = la := r_28_16 A la (by omega)
  have f9 : rmOf w = rm := r_12_8 A rm (by omega)
  obtain ⟨w0, w4, wx⟩ := word_ok A (by decide)
  refine single _ w rfl hw.symm w0 w4 wx ?_ rfl
  try simp [plain] at h2
  simp only [decMajor, decFp, f0, f1, f2, f3, f4, f5, f6, f7, f8, f9] <;> (try simp [failIf, withScope, port, scope_of, tint_of, tflt_of, fmt_of, cond_of, cmpFmt_of, partOk_eq, tflt_ne, tint_ne, h2]) <;> (repeat' split) <;> first | rfl | (exfalso; omega)

theorem fsqrtS (rd : Reg) (rs1 : Reg) (rm : Rm) (la : La) : Statement (.fsqrtS rd rs1 rm la) := by
  intro _ hwf
  have h2 : (plain rd) = true := (Bool.and_eq_true_iff.mp hwf).2
  have := rd.isLt
  have := rs1.isLt
  have := rm.isLt
  have := la.isLt
  obtain ⟨w, hw⟩ : ∃ w, w = encV la.val 7 0 rs1 rm.val rd 16 := ⟨_, rfl⟩
  have A : Asm (la.val * 8 + 7) 0 rs1.val rm.val rd.val 16 w := ⟨by rw [hw]; first | decide | (simp only [encV] <;> omega), by omega, by decide, by omega, by omega, by omega, by decide⟩
  have f0 : bits w 6 2 = 16 := (b_6_2 A).trans (rfl)
  have f1 : bits w 14 12 = rm.val := (b_14_12 A).trans (by omega)
  have f2 : bits w 24 20 = 0 := (b_24_20 A).trans (rfl)
  have f3 : bits w 27 26 = 3 := (b_27_26 A).trans (by omega)
  have f4 : bits w 25 25 = 1 := (b_25_25 A).trans (by omega)
  have f5 : rg w 15 = rs1 := r_15_32 A rs1 (by omega)
  have f6 : rg w 20 = (0 : Fin 32) := r_20_32 A (0 : Fin 32) (rfl)
  have f7 : rg w 7 = rd := r_7_32 A rd (by omega)
  have f8 : laOf w = la := r_28_16 A la (by omega)
  have f9 : rmOf w = rm := r_12_8 A rm (by omega)
  obtain ⟨w0, w4, wx⟩ := word_ok A (by decide)
  refine single _ w rfl hw.symm w0 w4 wx ?_ rfl
  try simp [plain] at h2
  simp only [decMajor, decFp, f0, f1, f2, f3, f4, f5, f6, f7, f8, f9] <;> (try simp [failIf, withScope, port, scope_of, tint_of, tflt_of, fmt_of, cond_of, cmpFmt_of, partOk_eq, tflt_ne, tint_ne, h2]) <;> (repeat' split) <;> first | rfl | (exfalso; omega)

theorem fmaddS (rd : Reg) (rs1 : Reg) (rs2 : Reg) (rs3 : Reg) (rm : Rm) : Statement (.fmaddS rd rs1 rs2 rs3 rm) := by
  intro _ hwf
  have := rd.isLt
  have := rs1.isLt
  have := rs2.isLt
  have := rs3.isLt
  have := rm.isLt
  obtain ⟨w, hw⟩ : ∃ w, w = encQ rs3 0 rs2 rs1 rm rd := ⟨_, rfl⟩
  have A : Asm (rs3.val * 4 + 0) rs2.val rs1.val rm.val rd.val 17 w := ⟨by rw [hw]; first | decide | (simp only [encQ] <;> omega), by omega, by omega, by omega, by omega, by omega, by decide⟩
  have f0 : bits w 6 2 = 17 := (b_6_2 A).trans (rfl)
  have f1 : bits w 26 25 = 0 := (b_26_25 A).trans (by omega)
  have f2 : rg w 15 = rs1 := r_15_32 A rs1 (by omega)
  have f3 : rg w 20 = rs2 := r_20_32 A rs2 (by omega)
  have f4 : rg w 27 = rs3 := r_27_32 A rs3 (by omega)
  have f5 : rg w 7 = rd := r_7_32 A rd (by omega)
  have f6 : rmOf w = rm := r_12_8 A rm (by omega)
  obtain ⟨w0, w4, wx⟩ := word_ok A (by decide)
  refine single _ w rfl hw.symm w0 w4 wx ?_ rfl
  simp only [decMajor, decFma, f0, f1, f2, f3, f4, f5, f6] <;> (try simp [failIf, withScope, port, scope_of, tint_of, tflt_of, fmt_of, cond_of, cmpFmt_of, partOk_eq, tflt_ne, tint_ne]) <;> (repeat' split) <;> first | rfl | (exfalso; omega)

theorem fmsubS (rd : Reg) (rs1 : Reg) (rs2 : Reg) (rs3 : Reg) (rm : Rm) : Statement (.fmsubS rd rs1 rs2 rs3 rm) := by
  intro _ hwf
  have := rd.isLt
  have := rs1.isLt
  have := rs2.isLt
  have := rs3.isLt
  have := rm.isLt
  obtain ⟨w, hw⟩ : ∃ w, w = encQ rs3 1 rs2 rs1 rm rd := ⟨_, rfl⟩
  have A : Asm (rs3.val * 4 + 1) rs2.val rs1.val rm.val rd.val 17 w := ⟨by rw [hw]; first | decide | (simp only [encQ] <;> omega), by omega, by omega, by omega, by omega, by omega, by decide⟩
  have f0 : bits w 6 2 = 17 := (b_6_2 A).trans (rfl)
  have f1 : bits w 26 25 = 1 := (b_26_25 A).trans (by omega)
  have f2 : rg w 15 = rs1 := r_15_32 A rs1 (by omega)
  have f3 : rg w 20 = rs2 := r_20_32 A rs2 (by omega)
  have f4 : rg w 27 = rs3 := r_27_32 A rs3 (by omega)
  have f5 : rg w 7 = rd := r_7_32 A rd (by omega)
  have f6 : rmOf w = rm := r_12_8 A rm (by omega)
  obtain ⟨w0, w4, wx⟩ := word_ok A (by decide)
  refine single _ w rfl hw.symm w0 w4 wx ?_ rfl
  simp only [decMajor, decFma, f0, f1, f2, f3, f4, f5, f6] <;> (try simp [failIf, withScope, port, scope_of, tint_of, tflt_of, fmt_of, cond_of, cmpFmt_of, partOk_eq, tflt_ne, tint_ne]) <;> (repeat' split) <;> first | rfl | (exfalso; omega)

theorem fnmsubS (rd : Reg) (rs1 : Reg) (rs2 : Reg) (rs3 : Reg) (rm : Rm) : Statement (.fnmsubS rd rs1 rs2 rs3 rm) := by
  intro _ hwf
  have := rd.isLt
  have := rs1.isLt
  have := rs2.isLt
  have := rs3.isLt
  have := rm.isLt
  obtain ⟨w, hw⟩ : ∃ w, w = encQ rs3 2 rs2 rs1 rm rd := ⟨_, rfl⟩
  have A : Asm (rs3.val * 4 + 2) rs2.val rs1.val rm.val rd.val 17 w := ⟨by rw [hw]; first | decide | (simp only [encQ] <;> omega), by omega, by omega, by omega, by omega, by omega, by decide⟩
  have f0 : bits w 6 2 = 17 := (b_6_2 A).trans (rfl)
  have f1 : bits w 26 25 = 2 := (b_26_25 A).trans (by omega)
  have f2 : rg w 15 = rs1 := r_15_32 A rs1 (by omega)
  have f3 : rg w 20 = rs2 := r_20_32 A rs2 (by omega)
  have f4 : rg w 27 = rs3 := r_27_32 A rs3 (by omega)
  have f5 : rg w 7 = rd := r_7_32 A rd (by omega)
  have f6 : rmOf w = rm := r_12_8 A rm (by omega)
  obtain ⟨w0, w4, wx⟩ := word_ok A (by decide)
  refine single _ w rfl hw.symm w0 w4 wx ?_ rfl
  simp only [decMajor, decFma, f0, f1, f2, f3, f4, f5, f6] <;> (try simp [failIf, withScope, port, scope_of, tint_of, tflt_of, fmt_of, cond_of, cmpFmt_of, partOk_eq, tflt_ne, tint_ne]) <;> (repeat' split) <;> first | rfl | (exfalso; omega)

theorem fnmaddS (rd : Reg) (rs1 : Reg) (rs2 : Reg) (rs3 : Reg) (rm : Rm) : Statement (.fnmaddS rd rs1 rs2 rs3 rm) := by
  intro _ hwf
  have := rd.isLt
  have := rs1.isLt
  have := rs2.isLt
  have := rs3.isLt
  have := rm.isLt
  obtain ⟨w, hw⟩ : ∃ w, w = encQ rs3 3 rs2 rs1 rm rd := ⟨_, rfl⟩
  have A : Asm (rs3.val * 4 + 3) rs2.val rs1.val rm.val rd.val 17 w := ⟨by rw [hw]; first | decide | (simp only [encQ] <;> omega), by omega, by omega, by omega, by omega, by omega, by decide⟩
  have f0 : bits w 6 2 = 17 := (b_6_2 A).trans (rfl)
  have f1 : bits w 26 25 = 3 := (b_26_25 A).trans (by omega)
  have f2 : rg w 15 = rs1 := r_15_32 A rs1 (by omega)
  have f3 : rg w 20 = rs2 := r_20_32 A rs2 (by omega)
  have f4 : rg w 27 = rs3 := r_27_32 A rs3 (by omega)
  have f5 : rg w 7 = rd := r_7_32 A rd (by omega)
  have f6 : rmOf w = rm := r_12_8 A rm (by omega)
  obtain ⟨w0, w4, wx⟩ := word_ok A (by decide)
  refine single _ w rfl hw.symm w0 w4 wx ?_ rfl
  simp only [decMajor, decFma, f0, f1, f2, f3, f4, f5, f6] <;> (try simp [failIf, withScope, port, scope_of, tint_of, tflt_of, fmt_of, cond_of, cmpFmt_of, partOk_eq, tflt_ne, tint_ne]) <;> (repeat' split) <;> first | rfl | (exfalso; omega)

theorem csrrw (rd : Reg) (rs1 : Reg) (csr : Csr) : Statement (.csrrw rd rs1 csr) := by
  intro _ hwf
  have h2 : (plain rd && plain rs1) = true := (Bool.and_eq_true_iff.mp hwf).2
  have := rd.isLt
  have := rs1.isLt
  have := csr.isLt
  obtain ⟨w, hw⟩ : ∃ w, w = encI csr.val rs1 1 rd 28 := ⟨_, rfl⟩
  have A : Asm (csr.val / 32) (csr.val % 32) rs1.val 1 rd.val 28 w := ⟨by rw [hw]; first | decide | (simp only [encI] <;> omega), by omega, by omega, by omega, by decide, by omega, by decide⟩
  have f0 : bits w 6 2 = 28 := (b_6_2 A).trans (rfl)
  have f1 : bits w 14 12 = 1 := (b_14_12 A).trans (rfl)
  have f2 : bits w 31 20 = csr.val := (b_31_20 A).trans (by omega)
  have f3 : bits w 11 7 = rd.val := (b_11_7 A).trans (by omega)
  have f4 : bits w 19 15 = rs1.val := (b_19_15 A).trans (by omega)
  have f5 : rg w 15 = rs1 := r_15_32 A rs1 (by omega)
  have f6 : rg w 7 = rd := r_7_32 A rd (by omega)
  have f7 : Fin.ofNat 32 (w / 2 ^ 15) = rs1 := r_15_32 A rs1 (by omega)
  have f8 : Fin.ofNat 4096 (w / 2 ^ 20) = csr := r_20_4096 A csr (by omega)
  obtain ⟨w0, w4, wx⟩ := word_ok A (by decide)
  refine single _ w rfl hw.symm w0 w4 wx ?_ rfl
  try simp [plain] at h2
  simp only [decMajor, decSystem, f0, f1, f2, f3, f4, f5, f6, f7, f8] <;> (try simp [failIf, withScope, port, scope_of, tint_of, tflt_of, fmt_of, cond_of, cmpFmt_of, partOk_eq, tflt_ne, tint_ne, h2]) <;> (repeat' split) <;> first | rfl | (exfalso; omega)

theorem csrrs (rd : Reg) (rs1 : Reg) (csr : Csr) : Statement (.csrrs rd rs1 csr) := by
  intro _ hwf
  have h2 : (plain rd && plain rs1) = true := (Bool.and_eq_true_iff.mp hwf).2
  have := rd.isLt
  have := rs1.isLt
  have := csr.isLt
  obtain ⟨w, hw⟩ : ∃ w, w = encI csr.val rs1 2 rd 28 := ⟨_, rfl⟩
  have A : Asm (csr.val / 32) (csr.val % 32) rs1.val 2 rd.val 28 w := ⟨by rw [hw]; first | decide | (simp only [encI] <;> omega), by omega, by omega, by omega, by decide, by omega, by decide⟩
  have f0 : bits w 6 2 = 28 := (b_6_2 A).trans (rfl)
  have f1 : bits w 14 12 = 2 := (b_14_12 A).trans (rfl)
  have f2 : bits w 31 20 = csr.val := (b_31_20 A).trans (by omega)
  have f3 : bits w 11 7 = rd.val := (b_11_7 A).trans (by omega)
  have f4 : bits w 19 15 = rs1.val := (b_19_15 A).trans (by omega)
  have f5 : rg w 15 = rs1 := r_15_32 A rs1 (by omega)
  have f6 : rg w 7 = rd := r_7_32 A rd (by omega)
  have f7 : Fin.ofNat 32 (w / 2 ^ 15) = rs1 := r_15_32 A rs1 (by omega)
  have f8 : Fin.ofNat 4096 (w / 2 ^ 20) = csr := r_20_4096 A csr (by omega)
  obtain ⟨w0, w4, wx⟩ := word_ok A (by decide)
  refine single _ w rfl hw.symm w0 w4 wx ?_ rfl
  try simp [plain] at h2
  simp only [decMajor, decSystem, f0, f1, f2, f3, f4, f5, f6, f7, f8] <;> (try simp [failIf, withScope, port, scope_of, tint_of, tflt_of, fmt_of, cond_of, cmpFmt_of, partOk_eq, tflt_ne, tint_ne, h2]) <;> (repeat' split) <;> first | rfl | (exfalso; omega)

theorem csrrc (rd : Reg) (rs1 : Reg) (csr : Csr) : Statement (.csrrc rd rs1 csr) := by
  intro _ hwf
  have h2 : (plain rd && plain rs1) = true := (Bool.and_eq_true_iff.mp hwf).2
  have := rd.isLt
  have := rs1.isLt
  have := csr.isLt
  obtain ⟨w, hw⟩ : ∃ w, w = encI csr.val rs1 3 rd 28 := ⟨_, rfl⟩
  have A : Asm (csr.val / 32) (csr.val % 32) rs1.val 3 rd.val 28 w := ⟨by rw [hw]; first | decide | (simp only [encI] <;> omega), by omega, by omega, by omega, by decide, by omega, by decide⟩
  have f0 : bits w 6 2 = 28 := (b_6_2 A).trans (rfl)
  have f1 : bits w 14 12 = 3 := (b_14_12 A).trans (rfl)
  have f2 : bits w 31 20 = csr.val := (b_31_20 A).trans (by omega)
  have f3 : bits w 11 7 = rd.val := (b_11_7 A).trans (by omega)
  have f4 : bits w 19 15 = rs1.val := (b_19_15 A).trans (by omega)
  have f5 : rg w 15 = rs1 := r_15_32 A rs1 (by omega)
  have f6 : rg w 7 = rd := r_7_32 A rd (by omega)
  have f7 : Fin.ofNat 32 (w / 2 ^ 15) = rs1 := r_15_32 A rs1 (by omega)
  have f8 : Fin.ofNat 4096 (w / 2 ^ 20) = csr := r_20_4096 A csr (by omega)
  obtain ⟨w0, w4, wx⟩ := word_ok A (by decide)
  refine single _ w rfl hw.symm w0 w4 wx ?_ rfl
  try simp [plain] at h2
  simp only [decMajor, decSystem, f0, f1, f2, f3, f4, f5, f6, f7, f8] <;> (try simp [failIf, withScope, port, scope_of, tint_of, tflt_of, fmt_of, cond_of, cmpFmt_of, partOk_eq, tflt_ne, tint_ne, h2]) <;> (repeat' split) <;> first | rfl | (exfalso; omega)

theorem csrrwi (rd : Reg) (u : Fin 32) (csr : Csr) : Statement (.csrrwi rd u csr) := by
  intro _ hwf
  have h2 : (plain rd) = true := (Bool.and_eq_true_iff.mp hwf).2
  have := rd.isLt
  have := u.isLt
  have := csr.isLt
  obtain ⟨w, hw⟩ : ∃ w, w = encI csr.val u 5 rd 28 := ⟨_, rfl⟩
  have A : Asm (csr.val / 32) (csr.val % 32) u.val 5 rd.val 28 w := ⟨by rw [hw]; first | decide | (simp only [encI] <;> omega), by omega, by omega, by omega, by decide, by omega, by decide⟩
  have f0 : bits w 6 2 = 28 := (b_6_2 A).trans (rfl)
  have f1 : bits w 14 12 = 5 := (b_14_12 A).trans (rfl)
  have f2 : bits w 31 20 = csr.val := (b_31_20 A).trans (by omega)
  have f3 : bits w 11 7 = rd.val := (b_11_7 A).trans (by omega)
  have f4 : bits w 19 15 = u.val := (b_19_15 A).trans (by omega)
  have f5 : rg w 15 = u := r_15_32 A u (by omega)
  have f6 : rg w 7 = rd := r_7_32 A rd (by omega)
  have f7 : Fin.ofNat 32 (w / 2 ^ 15) = u := r_15_32 A u (by omega)
  have f8 : Fin.ofNat 4096 (w / 2 ^ 20) = csr := r_20_4096 A csr (by omega)
  obtain ⟨w0, w4, wx⟩ := word_ok A (by decide)
  refine single _ w rfl hw.symm w0 w4 wx ?_ rfl
  try simp [plain] at h2
  simp only [decMajor, decSystem, f0, f1, f2, f3, f4, f5, f6, f7, f8] <;> (try simp [failIf, withScope, port, scope_of, tint_of, tflt_of, fmt_of, cond_of, cmpFmt_of, partOk_eq, tflt_ne, tint_ne, h2]) <;> (repeat' split) <;> first | rfl | (exfalso; omega)

theorem csrrsi (rd : Reg) (u : Fin 32) (csr : Csr) : Statement (.csrrsi rd u csr) := by
  intro _ hwf
  have h2 : (plain rd) = true := (Bool.and_eq_true_iff.mp hwf).2
  have := rd.isLt
  have := u.isLt
  have := csr.isLt
  obtain ⟨w, hw⟩ : ∃ w, w = encI csr.val u 6 rd 28 := ⟨_, rfl⟩
  have A : Asm (csr.val / 32) (csr.val % 32) u.val 6 rd.val 28 w := ⟨by rw [hw]; first | decide | (simp only [encI] <;> omega), by omega, by omega, by omega, by decide, by omega, by decide⟩
  have f0 : bits w 6 2 = 28 := (b_6_2 A).trans (rfl)
  have f1 : bits w 14 12 = 6 := (b_14_12 A).trans (rfl)
  have f2 : bits w 31 20 = csr.val := (b_31_20 A).trans (by omega)
  have f3 : bits w 11 7 = rd.val := (b_11_7 A).trans (by omega)
  have f4 : bits w 19 15 = u.val := (b_19_15 A).trans (by omega)
  have f5 : rg w 15 = u := r_15_32 A u (by omega)
  have f6 : rg w 7 = rd := r_7_32 A rd (by omega)
  have f7 : Fin.ofNat 32 (w / 2 ^ 15) = u := r_15_32 A u (by omega)
  have f8 : Fin.ofNat 4096 (w / 2 ^ 20) = csr := r_20_4096 A csr (by omega)
  obtain ⟨w0, w4, wx⟩ := word_ok A (by decide)
  refine single _ w rfl hw.symm w0 w4 wx ?_ rfl
  try simp [plain] at h2
  simp only [decMajor, decSystem, f0, f1, f2, f3, f4, f5, f6, f7, f8] <;> (try simp [failIf, withScope, port, scope_of, tint_of, tflt_of, fmt_of, cond_of, cmpFmt_of, partOk_eq, tflt_ne, tint_ne, h2]) <;> (repeat' split) <;> first | rfl | (exfalso; omega)

theorem csrrci (rd : Reg) (u : Fin 32) (csr : Csr) : Statement (.csrrci rd u csr) := by
  intro _ hwf
  have h2 : (plain rd) = true := (Bool.and_eq_true_iff.mp hwf).2
  have := rd.isLt
  have := u.isLt
  have := csr.isLt
  obtain ⟨w, hw⟩ : ∃ w, w = encI csr.val u 7 rd 28 := ⟨_, rfl⟩
  have A : Asm (csr.val / 32) (csr.val % 32) u.val 7 rd.val 28 w := ⟨by rw [hw]; first | decide | (simp only [encI] <;> omega), by omega, by omega, by omega, by decide, by omega, by decide⟩
  have f0 : bits w 6 2 = 28 := (b_6_2 A).trans (rfl)
  have f1 : bits w 14 12 = 7 := (b_14_12 A).trans (rfl)
  have f2 : bits w 31 20 = csr.val := (b_31_20 A).trans (by omega)
  have f3 : bits w 11 7 = rd.val := (b_11_7 A).trans (by omega)
  have f4 : bits w 19 15 = u.val := (b_19_15 A).trans (by omega)
  have f5 : rg w 15 = u := r_15_32 A u (by omega)
  have f6 : rg w 7 = rd := r_7_32 A rd (by omega)
  have f7 : Fin.ofNat 32 (w / 2 ^ 15) = u := r_15_32 A u (by omega)
  have f8 : Fin.ofNat 4096 (w / 2 ^ 20) = csr := r_20_4096 A csr (by omega)
  obtain ⟨w0, w4, wx⟩ := word_ok A (by decide)
  refine single _ w rfl hw.symm w0 w4 wx ?_ rfl
  try simp [plain] at h2
  simp only [decMajor, decSystem, f0, f1, f2, f3, f4, f5, f6, f7, f8] <;> (try simp [failIf, withScope, port, scope_of, tint_of, tflt_of, fmt_of, cond_of, cmpFmt_of, partOk_eq, tflt_ne, tint_ne, h2]) <;> (repeat' split) <;> first | rfl | (exfalso; omega)

theorem trap (imm : Fin 256) : Statement (.trap imm) := by
  intro _ hwf
  have := imm.isLt
  obtain ⟨w, hw⟩ : ∃ w, w = encI imm.val 0 0 0 28 := ⟨_, rfl⟩
  have A : Asm (imm.val / 32) (imm.val % 32) 0 0 0 28 w := ⟨by rw [hw]; first | decide | (simp only [encI] <;> omega), by omega, by omega, by decide, by decide, by decide, by decide⟩
  have f0 : bits w 6 2 = 28 := (b_6_2 A).trans (rfl)
  have f1 : bits w 14 12 = 0 := (b_14_12 A).trans (rfl)
  have f2 : bits w 31 20 = imm.val := (b_31_20 A).trans (by omega)
  have f3 : bits w 11 7 = 0 := (b_11_7 A).trans (rfl)
  have f4 : bits w 19 15 = 0 := (b_19_15 A).trans (rfl)
  have f5 : rg w 15 = (0 : Fin 32) := r_15_32 A (0 : Fin 32) (rfl)
  have f6 : rg w 7 = (0 : Fin 32) := r_7_32 A (0 : Fin 32) (rfl)
  have f7 : Fin.ofNat 256 (w / 2 ^ 20) = imm := r_20_256 A imm (by omega)
  have f8 : Fin.ofNat 32 (w / 2 ^ 15) = (0 : Fin 32) := r_15_32 A (0 : Fin 32) (rfl)
  obtain ⟨w0, w4, wx⟩ := word_ok A (by decide)
  refine single _ w rfl hw.symm w0 w4 wx ?_ rfl
  simp only [decMajor, decSystem, f0, f1, f2, f3, f4, f5, f6, f7, f8] <;> (try simp [failIf, withScope, port, scope_of, tint_of, tflt_of, fmt_of, cond_of, cmpFmt_of, partOk_eq, tflt_ne, tint_ne]) <;> (repeat' split) <;> first | rfl | (exfalso; omega)

theorem eret : Statement .eret := by
  intro _ hwf
  obtain ⟨w, hw⟩ : ∃ w, w = encI 256 0 0 0 28 := ⟨_, rfl⟩
  have A : Asm 8 0 0 0 0 28 w := ⟨by rw [hw]; first | decide | (simp only [encI] <;> omega), by decide, by decide, by decide, by decide, by decide, by decide⟩
  have f0 : bits w 6 2 = 28 := (b_6_2 A).trans (rfl)
  have f1 : bits w 14 12 = 0 := (b_14_12 A).trans (rfl)
  have f2 : bits w 31 20 = 256 := (b_31_20 A).trans (rfl)
  have f3 : bits w 11 7 = 0 := (b_11_7 A).trans (rfl)
  have f4 : bits w 19 15 = 0 := (b_19_15 A).trans (rfl)
  have f5 : rg w 15 = (0 : Fin 32) := r_15_32 A (0 : Fin 32) (rfl)
  have f6 : rg w 7 = (0 : Fin 32) := r_7_32 A (0 : Fin 32) (rfl)
  have f7 : Fin.ofNat 256 (w / 2 ^ 20) = (0 : Fin 256) := r_20_256 A (0 : Fin 256) (rfl)
  have f8 : Fin.ofNat 32 (w / 2 ^ 15) = (0 : Fin 32) := r_15_32 A (0 : Fin 32) (rfl)
  have f9 : Fin.ofNat 4096 (w / 2 ^ 20) = (256 : Fin 4096) := r_20_4096 A (256 : Fin 4096) (rfl)
  obtain ⟨w0, w4, wx⟩ := word_ok A (by decide)
  refine single _ w rfl hw.symm w0 w4 wx ?_ rfl
  simp only [decMajor, decSystem, f0, f1, f2, f3, f4, f5, f6, f7, f8, f9] <;> (try simp [failIf, withScope, port, scope_of, tint_of, tflt_of, fmt_of, cond_of, cmpFmt_of, partOk_eq, tflt_ne, tint_ne]) <;> (repeat' split) <;> first | rfl | (exfalso; omega)

theorem halt : Statement .halt := by
  intro _ hwf
  obtain ⟨w, hw⟩ : ∃ w, w = encI 257 0 0 0 28 := ⟨_, rfl⟩
  have A : Asm 8 1 0 0 0 28 w := ⟨by rw [hw]; first | decide | (simp only [encI] <;> omega), by decide, by decide, by decide, by decide, by decide, by decide⟩
  have f0 : bits w 6 2 = 28 := (b_6_2 A).trans (rfl)
  have f1 : bits w 14 12 = 0 := (b_14_12 A).trans (rfl)
  have f2 : bits w 31 20 = 257 := (b_31_20 A).trans (rfl)
  have f3 : bits w 11 7 = 0 := (b_11_7 A).trans (rfl)
  have f4 : bits w 19 15 = 0 := (b_19_15 A).trans (rfl)
  have f5 : rg w 15 = (0 : Fin 32) := r_15_32 A (0 : Fin 32) (rfl)
  have f6 : rg w 7 = (0 : Fin 32) := r_7_32 A (0 : Fin 32) (rfl)
  have f7 : Fin.ofNat 256 (w / 2 ^ 20) = (1 : Fin 256) := r_20_256 A (1 : Fin 256) (rfl)
  have f8 : Fin.ofNat 32 (w / 2 ^ 15) = (0 : Fin 32) := r_15_32 A (0 : Fin 32) (rfl)
  have f9 : Fin.ofNat 4096 (w / 2 ^ 20) = (257 : Fin 4096) := r_20_4096 A (257 : Fin 4096) (rfl)
  obtain ⟨w0, w4, wx⟩ := word_ok A (by decide)
  refine single _ w rfl hw.symm w0 w4 wx ?_ rfl
  simp only [decMajor, decSystem, f0, f1, f2, f3, f4, f5, f6, f7, f8, f9] <;> (try simp [failIf, withScope, port, scope_of, tint_of, tflt_of, fmt_of, cond_of, cmpFmt_of, partOk_eq, tflt_ne, tint_ne]) <;> (repeat' split) <;> first | rfl | (exfalso; omega)

theorem brk : Statement .brk := by
  intro _ hwf
  obtain ⟨w, hw⟩ : ∃ w, w = encI 258 0 0 0 28 := ⟨_, rfl⟩
  have A : Asm 8 2 0 0 0 28 w := ⟨by rw [hw]; first | decide | (simp only [encI] <;> omega), by decide, by decide, by decide, by decide, by decide, by decide⟩
  have f0 : bits w 6 2 = 28 := (b_6_2 A).trans (rfl)
  have f1 : bits w 14 12 = 0 := (b_14_12 A).trans (rfl)
  have f2 : bits w 31 20 = 258 := (b_31_20 A).trans (rfl)
  have f3 : bits w 11 7 = 0 := (b_11_7 A).trans (rfl)
  have f4 : bits w 19 15 = 0 := (b_19_15 A).trans (rfl)
  have f5 : rg w 15 = (0 : Fin 32) := r_15_32 A (0 : Fin 32) (rfl)
  have f6 : rg w 7 = (0 : Fin 32) := r_7_32 A (0 : Fin 32) (rfl)
  have f7 : Fin.ofNat 256 (w / 2 ^ 20) = (2 : Fin 256) := r_20_256 A (2 : Fin 256) (rfl)
  have f8 : Fin.ofNat 32 (w / 2 ^ 15) = (0 : Fin 32) := r_15_32 A (0 : Fin 32) (rfl)
  have f9 : Fin.ofNat 4096 (w / 2 ^ 20) = (258 : Fin 4096) := r_20_4096 A (258 : Fin 4096) (rfl)
  obtain ⟨w0, w4, wx⟩ := word_ok A (by decide)
  refine single _ w rfl hw.symm w0 w4 wx ?_ rfl
  simp only [decMajor, decSystem, f0, f1, f2, f3, f4, f5, f6, f7, f8, f9] <;> (try simp [failIf, withScope, port, scope_of, tint_of, tflt_of, fmt_of, cond_of, cmpFmt_of, partOk_eq, tflt_ne, tint_ne]) <;> (repeat' split) <;> first | rfl | (exfalso; omega)

theorem lb (rd : Reg) (rs1 : Reg) (imm : Int) (la : La) : Statement (.lb rd rs1 imm la) := by
  intro _ hwf
  have h2 : (inRange 8 imm && plain rd) = true := (Bool.and_eq_true_iff.mp hwf).2
  have := rd.isLt
  have := rs1.isLt
  have := ux_lt 8 imm
  have := la.isLt
  obtain ⟨w, hw⟩ : ∃ w, w = encLi la (ux 8 imm) rs1 0 rd 0 := ⟨_, rfl⟩
  have A : Asm (la.val * 8 + (ux 8 imm) / 32) ((ux 8 imm) % 32) rs1.val 0 rd.val 0 w := ⟨by rw [hw]; first | decide | (simp only [encLi] <;> omega), by omega, by omega, by omega, by decide, by omega, by decide⟩
  have f0 : bits w 6 2 = 0 := (b_6_2 A).trans (rfl)
  have f1 : bits w 14 12 = 0 := (b_14_12 A).trans (rfl)
  have f2 : rg w 15 = rs1 := r_15_32 A rs1 (by omega)
  have f3 : rg w 7 = rd := r_7_32 A rd (by omega)
  have f4 : laOf w = la := r_28_16 A la (by omega)
  have f5 : immL w = imm := i_immL A imm (by revert h2; simp; intros; assumption) (by omega)
  obtain ⟨w0, w4, wx⟩ := word_ok A (by decide)
  refine single _ w rfl hw.symm w0 w4 wx ?_ rfl
  try simp [plain] at h2
  simp only [decMajor, decLoad, f0, f1, f2, f3, f4, f5] <;> (try simp [failIf, withScope, port, scope_of, tint_of, tflt_of, fmt_of, cond_of, cmpFmt_of, partOk_eq, tflt_ne, tint_ne, h2]) <;> (repeat' split) <;> first | rfl | (exfalso; omega)

theorem lh (rd : Reg) (rs1 : Reg) (imm : Int) (la : La) : Statement (.lh rd rs1 imm la) := by
  intro _ hwf
  have h2 : (inRange 8 imm && plain rd) = true := (Bool.and_eq_true_iff.mp hwf).2
  have := rd.isLt
  have := rs1.isLt
  have := ux_lt 8 imm
  have := la.isLt
  obtain ⟨w, hw⟩ : ∃ w, w = encLi la (ux 8 imm) rs1 1 rd 0 := ⟨_, rfl⟩
  have A : Asm (la.val * 8 + (ux 8 imm) / 32) ((ux 8 imm) % 32) rs1.val 1 rd.val 0 w := ⟨by rw [hw]; first | decide | (simp only [encLi] <;> omega), by omega, by omega, by omega, by decide, by omega, by decide⟩
  have f0 : bits w 6 2 = 0 := (b_6_2 A).trans (rfl)
  have f1 : bits w 14 12 = 1 := (b_14_12 A).trans (rfl)
  have f2 : rg w 15 = rs1 := r_15_32 A rs1 (by omega)
  have f3 : rg w 7 = rd := r_7_32 A rd (by omega)
  have f4 : laOf w = la := r_28_16 A la (by omega)
  have f5 : immL w = imm := i_immL A imm (by revert h2; simp; intros; assumption) (by omega)
  obtain ⟨w0, w4, wx⟩ := word_ok A (by decide)
  refine single _ w rfl hw.symm w0 w4 wx ?_ rfl
  try simp [plain] at h2
  simp only [decMajor, decLoad, f0, f1, f2, f3, f4, f5] <;> (try simp [failIf, withScope, port, scope_of, tint_of, tflt_of, fmt_of, cond_of, cmpFmt_of, partOk_eq, tflt_ne, tint_ne, h2]) <;> (repeat' split) <;> first | rfl | (exfalso; omega)

theorem lw (rd : Reg) (rs1 : Reg) (imm : Int) (la : La) : Statement (.lw rd rs1 imm la) := by
  intro _ hwf
  have h2 : (inRange 8 imm && plain rd) = true := (Bool.and_eq_true_iff.mp hwf).2
  have := rd.isLt
  have := rs1.isLt
  have := ux_lt 8 imm
  have := la.isLt
  obtain ⟨w, hw⟩ : ∃ w, w = encLi la (ux 8 imm) rs1 2 rd 0 := ⟨_, rfl⟩
  have A : Asm (la.val * 8 + (ux 8 imm) / 32) ((ux 8 imm) % 32) rs1.val 2 rd.val 0 w := ⟨by rw [hw]; first | decide | (simp only [encLi] <;> omega), by omega, by omega, by omega, by decide, by omega, by decide⟩
  have f0 : bits w 6 2 = 0 := (b_6_2 A).trans (rfl)
  have f1 : bits w 14 12 = 2 := (b_14_12 A).trans (rfl)
  have f2 : rg w 15 = rs1 := r_15_32 A rs1 (by omega)
  have f3 : rg w 7 = rd := r_7_32 A rd (by omega)
  have f4 : laOf w = la := r_28_16 A la (by omega)
  have f5 : immL w = imm := i_immL A imm (by revert h2; simp; intros; assumption) (by omega)
  obtain ⟨w0, w4, wx⟩ := word_ok A (by decide)
  refine single _ w rfl hw.symm w0 w4 wx ?_ rfl
  try simp [plain] at h2
  simp only [decMajor, decLoad, f0, f1, f2, f3, f4, f5] <;> (try simp [failIf, withScope, port, scope_of, tint_of, tflt_of, fmt_of, cond_of, cmpFmt_of, partOk_eq, tflt_ne, tint_ne, h2]) <;> (repeat' split) <;> first | rfl | (exfalso; omega)

theorem ld (rd : Reg) (rs1 : Reg) (imm : Int) (la : La) : Statement (.ld rd rs1 imm la) := by
  intro _ hwf
  have h2 : (inRange 8 imm && plain rd) = true := (Bool.and_eq_true_iff.mp hwf).2
  have := rd.isLt
  have := rs1.isLt
  have := ux_lt 8 imm
  have := la.isLt
  obtain ⟨w, hw⟩ : ∃ w, w = encLi la (ux 8 imm) rs1 3 rd 0 := ⟨_, rfl⟩
  have A : Asm (la.val * 8 + (ux 8 imm) / 32) ((ux 8 imm) % 32) rs1.val 3 rd.val 0 w := ⟨by rw [hw]; first | decide | (simp only [encLi] <;> omega), by omega, by omega, by omega, by decide, by omega, by decide⟩
  have f0 : bits w 6 2 = 0 := (b_6_2 A).trans (rfl)
  have f1 : bits w 14 12 = 3 := (b_14_12 A).trans (rfl)
  have f2 : rg w 15 = rs1 := r_15_32 A rs1 (by omega)
  have f3 : rg w 7 = rd := r_7_32 A rd (by omega)
  have f4 : laOf w = la := r_28_16 A la (by omega)
  have f5 : immL w = imm := i_immL A imm (by revert h2; simp; intros; assumption) (by omega)
  obtain ⟨w0, w4, wx⟩ := word_ok A (by decide)
  refine single _ w rfl hw.symm w0 w4 wx ?_ rfl
  try simp [plain] at h2
  simp only [decMajor, decLoad, f0, f1, f2, f3, f4, f5] <;> (try simp [failIf, withScope, port, scope_of, tint_of, tflt_of, fmt_of, cond_of, cmpFmt_of, partOk_eq, tflt_ne, tint_ne, h2]) <;> (repeat' split) <;> first | rfl | (exfalso; omega)

theorem lbu (rd : Reg) (rs1 : Reg) (imm : Int) (la : La) : Statement (.lbu rd rs1 imm la) := by
  intro _ hwf
  have h2 : (inRange 8 imm && plain rd) = true := (Bool.and_eq_true_iff.mp hwf).2
  have := rd.isLt
  have := rs1.isLt
  have := ux_lt 8 imm
  have := la.isLt
  obtain ⟨w, hw⟩ : ∃ w, w = encLi la (ux 8 imm) rs1 4 rd 0 := ⟨_, rfl⟩
  have A : Asm (la.val * 8 + (ux 8 imm) / 32) ((ux 8 imm) % 32) rs1.val 4 rd.val 0 w := ⟨by rw [hw]; first | decide | (simp only [encLi] <;> omega), by omega, by omega, by omega, by decide, by omega, by decide⟩
  have f0 : bits w 6 2 = 0 := (b_6_2 A).trans (rfl)
  have f1 : bits w 14 12 = 4 := (b_14_12 A).trans (rfl)
  have f2 : rg w 15 = rs1 := r_15_32 A rs1 (by omega)
  have f3 : rg w 7 = rd := r_7_32 A rd (by omega)
  have f4 : laOf w = la := r_28_16 A la (by omega)
  have f5 : immL w = imm := i_immL A imm (by revert h2; simp; intros; assumption) (by omega)
  obtain ⟨w0, w4, wx⟩ := word_ok A (by decide)
  refine single _ w rfl hw.symm w0 w4 wx ?_ rfl
  try simp [plain] at h2
  simp only [decMajor, decLoad, f0, f1, f2, f3, f4, f5] <;> (try simp [failIf, withScope, port, scope_of, tint_of, tflt_of, fmt_of, cond_of, cmpFmt_of, partOk_eq, tflt_ne, tint_ne, h2]) <;> (repeat' split) <;> first | rfl | (exfalso; omega)

theorem lhu (rd : Reg) (rs1 : Reg) (imm : Int) (la : La) : Statement (.lhu rd rs1 imm la) := by
  intro _ hwf
  have h2 : (inRange 8 imm && plain rd) = true := (Bool.and_eq_true_iff.mp hwf).2
  have := rd.isLt
  have := rs1.isLt
  have := ux_lt 8 imm
  have := la.isLt
  obtain ⟨w, hw⟩ : ∃ w, w = encLi la (ux 8 imm) rs1 5 rd 0 := ⟨_, rfl⟩
  have A : Asm (la.val * 8 + (ux 8 imm) / 32) ((ux 8 imm) % 32) rs1.val 5 rd.val 0 w := ⟨by rw [hw]; first | decide | (simp only [encLi] <;> omega), by omega, by omega, by omega, by decide, by omega, by decide⟩
  have f0 : bits w 6 2 = 0 := (b_6_2 A).trans (rfl)
  have f1 : bits w 14 12 = 5 := (b_14_12 A).trans (rfl)
  have f2 : rg w 15 = rs1 := r_15_32 A rs1 (by omega)
  have f3 : rg w 7 = rd := r_7_32 A rd (by omega)
  have f4 : laOf w = la := r_28_16 A la (by omega)
  have f5 : immL w = imm := i_immL A imm (by revert h2; simp; intros; assumption) (by omega)
  obtain ⟨w0, w4, wx⟩ := word_ok A (by decide)
  refine single _ w rfl hw.symm w0 w4 wx ?_ rfl
  try simp [plain] at h2
  simp only [decMajor, decLoad, f0, f1, f2, f3, f4, f5] <;> (try simp [failIf, withScope, port, scope_of, tint_of, tflt_of, fmt_of, cond_of, cmpFmt_of, partOk_eq, tflt_ne, tint_ne, h2]) <;> (repeat' split) <;> first | rfl | (exfalso; omega)

theorem lwu (rd : Reg) (rs1 : Reg) (imm : Int) (la : La) : Statement (.lwu rd rs1 imm la) := by
  intro _ hwf
  have h2 : (inRange 8 imm && plain rd) = true := (Bool.and_eq_true_iff.mp hwf).2
  have := rd.isLt
  have := rs1.isLt
  have := ux_lt 8 imm
  have := la.isLt
  obtain ⟨w, hw⟩ : ∃ w, w = encLi la (ux 8 imm) rs1 6 rd 0 := ⟨_, rfl⟩
  have A : Asm (la.val * 8 + (ux 8 imm) / 32) ((ux 8 imm) % 32) rs1.val 6 rd.val 0 w := ⟨by rw [hw]; first | decide | (simp only [encLi] <;> omega), by omega, by omega, by omega, by decide, by omega, by decide⟩
  have f0 : bits w 6 2 = 0 := (b_6_2 A).trans (rfl)
  have f1 : bits w 14 12 = 6 := (b_14_12 A).trans (rfl)
  have f2 : rg w 15 = rs1 := r_15_32 A rs1 (by omega)
  have f3 : rg w 7 = rd := r_7_32 A rd (by omega)
  have f4 : laOf w = la := r_28_16 A la (by omega)
  have f5 : immL w = imm := i_immL A imm (by revert h2; simp; intros; assumption) (by omega)
  obtain ⟨w0, w4, wx⟩ := word_ok A (by decide)
  refine single _ w rfl hw.symm w0 w4 wx ?_ rfl
  try simp [plain] at h2
  simp only [decMajor, decLoad, f0, f1, f2, f3, f4, f5] <;> (try simp [failIf, withScope, port, scope_of, tint_of, tflt_of, fmt_of, cond_of, cmpFmt_of, partOk_eq, tflt_ne, tint_ne, h2]) <;> (repeat' split) <;> first | rfl | (exfalso; omega)

theorem loadAcquire (rd : Reg) (rs1 : Reg) (size : Fin 8) (sc : Scope) (la : La) : Statement (.loadAcquire rd rs1 size sc la) := by
  intro _ hwf
  have h2 : (plain rd && decide (size.val < 7)) = true := (Bool.and_eq_true_iff.mp hwf).2
  have := rd.isLt
  have := rs1.isLt
  have := size.isLt
  have := scope_lt sc
  have := la.isLt
  obtain ⟨w, hw⟩ : ∃ w, w = encLi la (sc.code * 32 + size.val * 4) rs1 7 rd 0 := ⟨_, rfl⟩
  have A : Asm (la.val * 8 + (sc.code * 32 + size.val * 4) / 32) ((sc.code * 32 + size.val * 4) % 32) rs1.val 7 rd.val 0 w := ⟨by rw [hw]; first | decide | (simp only [encLi] <;> omega), by omega, by omega, by omega, by decide, by omega, by decide⟩
  have f0 : bits w 6 2 = 0 := (b_6_2 A).trans (rfl)
  have f1 : bits w 14 12 = 7 := (b_14_12 A).trans (rfl)
  have f2 : bits w 24 22 = size.val := (b_24_22 A).trans (by omega)
  have f3 : bits w 21 20 = 0 := (b_21_20 A).trans (by omega)
  have f4 : bits w 27 25 = sc.code := (b_27_25 A).trans (by omega)
  have f5 : rg w 15 = rs1 := r_15_32 A rs1 (by omega)
  have f6 : rg w 7 = rd := r_7_32 A rd (by omega)
  have f7 : laOf w = la := r_28_16 A la (by omega)
  have f8 : Fin.ofNat 8 (w / 2 ^ 22) = size := r_22_8 A size (by omega)
  obtain ⟨w0, w4, wx⟩ := word_ok A (by decide)
  refine single _ w rfl hw.symm w0 w4 wx ?_ rfl
  try simp [plain] at h2
  simp only [decMajor, decLoad, f0, f1, f2, f3, f4, f5, f6, f7, f8] <;> (try simp [failIf, withScope, port, scope_of, tint_of, tflt_of, fmt_of, cond_of, cmpFmt_of, partOk_eq, tflt_ne, tint_ne, h2]) <;> (repeat' split) <;> first | rfl | (exfalso; omega)

theorem sb (rs2 : Reg) (rs1 : Reg) (imm : Int) : Statement (.sb rs2 rs1 imm) := by
  intro _ hwf
  have h2 : (inRange 12 imm) = true := (Bool.and_eq_true_iff.mp hwf).2
  have := rs2.isLt
  have := rs1.isLt
  have := ux_lt 12 imm
  obtain ⟨w, hw⟩ : ∃ w, w = encS (ux 12 imm) rs2 rs1 0 8 := ⟨_, rfl⟩
  have A : Asm ((ux 12 imm) / 32) rs2.val rs1.val 0 ((ux 12 imm) % 32) 8 w := ⟨by rw [hw]; first | decide | (simp only [encS] <;> omega), by omega, by omega, by omega, by decide, by omega, by decide⟩
  have f0 : bits w 6 2 = 8 := (b_6_2 A).trans (rfl)
  have f1 : bits w 14 12 = 0 := (b_14_12 A).trans (rfl)
  have f2 : rg w 15 = rs1 := r_15_32 A rs1 (by omega)
  have f3 : rg w 20 = rs2 := r_20_32 A rs2 (by omega)
  have f4 : immS w = imm := i_immS A imm (h2) (by omega)
  obtain ⟨w0, w4, wx⟩ := word_ok A (by decide)
  refine single _ w rfl hw.symm w0 w4 wx ?_ rfl
  try simp [plain] at h2
  simp only [decMajor, decStore, f0, f1, f2, f3, f4] <;> (try simp [failIf, withScope, port, scope_of, tint_of, tflt_of, fmt_of, cond_of, cmpFmt_of, partOk_eq, tflt_ne, tint_ne, h2]) <;> (repeat' split) <;> first | rfl | (exfalso; omega)

theorem sh (rs2 : Reg) (rs1 : Reg) (imm : Int) : Statement (.sh rs2 rs1 imm) := by
  intro _ hwf
  have h2 : (inRange 12 imm) = true := (Bool.and_eq_true_iff.mp hwf).2
  have := rs2.isLt
  have := rs1.isLt
  have := ux_lt 12 imm
  obtain ⟨w, hw⟩ : ∃ w, w = encS (ux 12 imm) rs2 rs1 1 8 := ⟨_, rfl⟩
  have A : Asm ((ux 12 imm) / 32) rs2.val rs1.val 1 ((ux 12 imm) % 32) 8 w := ⟨by rw [hw]; first | decide | (simp only [encS] <;> omega), by omega, by omega, by omega, by decide, by omega, by decide⟩
  have f0 : bits w 6 2 = 8 := (b_6_2 A).trans (rfl)
  have f1 : bits w 14 12 = 1 := (b_14_12 A).trans (rfl)
  have f2 : rg w 15 = rs1 := r_15_32 A rs1 (by omega)
  have f3 : rg w 20 = rs2 := r_20_32 A rs2 (by omega)
  have f4 : immS w = imm := i_immS A imm (h2) (by omega)
  obtain ⟨w0, w4, wx⟩ := word_ok A (by decide)
  refine single _ w rfl hw.symm w0 w4 wx ?_ rfl
  try simp [plain] at h2
  simp only [decMajor, decStore, f0, f1, f2, f3, f4] <;> (try simp [failIf, withScope, port, scope_of, tint_of, tflt_of, fmt_of, cond_of, cmpFmt_of, partOk_eq, tflt_ne, tint_ne, h2]) <;> (repeat' split) <;> first | rfl | (exfalso; omega)

theorem sw (rs2 : Reg) (rs1 : Reg) (imm : Int) : Statement (.sw rs2 rs1 imm) := by
  intro _ hwf
  have h2 : (inRange 12 imm) = true := (Bool.and_eq_true_iff.mp hwf).2
  have := rs2.isLt
  have := rs1.isLt
  have := ux_lt 12 imm
  obtain ⟨w, hw⟩ : ∃ w, w = encS (ux 12 imm) rs2 rs1 2 8 := ⟨_, rfl⟩
  have A : Asm ((ux 12 imm) / 32) rs2.val rs1.val 2 ((ux 12 imm) % 32) 8 w := ⟨by rw [hw]; first | decide | (simp only [encS] <;> omega), by omega, by omega, by omega, by decide, by omega, by decide⟩
  have f0 : bits w 6 2 = 8 := (b_6_2 A).trans (rfl)
  have f1 : bits w 14 12 = 2 := (b_14_12 A).trans (rfl)
  have f2 : rg w 15 = rs1 := r_15_32 A rs1 (by omega)
  have f3 : rg w 20 = rs2 := r_20_32 A rs2 (by omega)
  have f4 : immS w = imm := i_immS A imm (h2) (by omega)
  obtain ⟨w0, w4, wx⟩ := word_ok A (by decide)
  refine single _ w rfl hw.symm w0 w4 wx ?_ rfl
  try simp [plain] at h2
  simp only [decMajor, decStore, f0, f1, f2, f3, f4] <;> (try simp [failIf, withScope, port, scope_of, tint_of, tflt_of, fmt_of, cond_of, cmpFmt_of, partOk_eq, tflt_ne, tint_ne, h2]) <;> (repeat' split) <;> first | rfl | (exfalso; omega)

theorem sd (rs2 : Reg) (rs1 : Reg) (imm : Int) : Statement (.sd rs2 rs1 imm) := by
  intro _ hwf
  have h2 : (inRange 12 imm) = true := (Bool.and_eq_true_iff.mp hwf).2
  have := rs2.isLt
  have := rs1.isLt
  have := ux_lt 12 imm
  obtain ⟨w, hw⟩ : ∃ w, w = encS (ux 12 imm) rs2 rs1 3 8 := ⟨_, rfl⟩
  have A : Asm ((ux 12 imm) / 32) rs2.val rs1.val 3 ((ux 12 imm) % 32) 8 w := ⟨by rw [hw]; first | decide | (simp only [encS] <;> omega), by omega, by omega, by omega, by decide, by omega, by decide⟩
  have f0 : bits w 6 2 = 8 := (b_6_2 A).trans (rfl)
  have f1 : bits w 14 12 = 3 := (b_14_12 A).trans (rfl)
  have f2 : rg w 15 = rs1 := r_15_32 A rs1 (by omega)
  have f3 : rg w 20 = rs2 := r_20_32 A rs2 (by omega)
  have f4 : immS w = imm := i_immS A imm (h2) (by omega)
  obtain ⟨w0, w4, wx⟩ := word_ok A (by decide)
  refine single _ w rfl hw.symm w0 w4 wx ?_ rfl
  try simp [plain] at h2
  simp only [decMajor, decStore, f0, f1, f2, f3, f4] <;> (try simp [failIf, withScope, port, scope_of, tint_of, tflt_of, fmt_of, cond_of, cmpFmt_of, partOk_eq, tflt_ne, tint_ne, h2]) <;> (repeat' split) <;> first | rfl | (exfalso; omega)

theorem storeRelease (rs2 : Reg) (rs1 : Reg) (size : Fin 4) (sc : Scope) : Statement (.storeRelease rs2 rs1 size sc) := by
  intro _ hwf
  have := rs2.isLt
  have := rs1.isLt
  have := size.isLt
  have := scope_lt sc
  obtain ⟨w, hw⟩ : ∃ w, w = encR (sc.code * 16 + size.val * 4) rs2 rs1 7 0 8 := ⟨_, rfl⟩
  have A : Asm ((sc.code * 16 + size.val * 4)) rs2.val rs1.val 7 0 8 w := ⟨by rw [hw]; first | decide | (simp only [encR] <;> omega), by omega, by omega, by omega, by decide, by decide, by decide⟩
  have f0 : bits w 6 2 = 8 := (b_6_2 A).trans (rfl)
  have f1 : bits w 14 12 = 7 := (b_14_12 A).trans (rfl)
  have f2 : bits w 26 25 = 0 := (b_26_25 A).trans (by omega)
  have f3 : bits w 11 7 = 0 := (b_11_7 A).trans (rfl)
  have f4 : bits w 31 29 = sc.code := (b_31_29 A).trans (by omega)
  have f5 : rg w 15 = rs1 := r_15_32 A rs1 (by omega)
  have f6 : rg w 20 = rs2 := r_20_32 A rs2 (by omega)
  have f7 : Fin.ofNat 4 (w / 2 ^ 27) = size := r_27_4 A size (by omega)
  obtain ⟨w0, w4, wx⟩ := word_ok A (by decide)
  refine single _ w rfl hw.symm w0 w4 wx ?_ rfl
  simp only [decMajor, decStore, f0, f1, f2, f3, f4, f5, f6, f7] <;> (try simp [failIf, withScope, port, scope_of, tint_of, tflt_of, fmt_of, cond_of, cmpFmt_of, partOk_eq, tflt_ne, tint_ne]) <;> (repeat' split) <;> first | rfl | (exfalso; omega)

theorem vld (vd : Reg) (rs1 : Reg) (imm : Int) (la : La) (pfx : Option Pfx) : Statement (.vld vd rs1 imm la pfx) := by
  intro _ hwf
  have h2 : (inRange 8 imm && plain vd) = true := (Bool.and_eq_true_iff.mp hwf).2
  have := vd.isLt
  have := rs1.isLt
  have := ux_lt 8 imm
  have := la.isLt
  obtain ⟨w, hw⟩ : ∃ w, w = encLi la (ux 8 imm) rs1 0 vd 1 := ⟨_, rfl⟩
  have A : Asm (la.val * 8 + (ux 8 imm) / 32) ((ux 8 imm) % 32) rs1.val 0 vd.val 1 w := ⟨by rw [hw]; first | decide | (simp only [encLi] <;> omega), by omega, by omega, by omega, by decide, by omega, by decide⟩
  have f0 : bits w 6 2 = 1 := (b_6_2 A).trans (rfl)
  have f1 : bits w 14 12 = 0 := (b_14_12 A).trans (rfl)
  have f2 : rg w 15 = rs1 := r_15_32 A rs1 (by omega)
  have f3 : rg w 7 = vd := r_7_32 A vd (by omega)
  have f4 : laOf w = la := r_28_16 A la (by omega)
  have f5 : immL w = imm := i_immL A imm (by revert h2; simp; intros; assumption) (by omega)
  obtain ⟨w0, w4, wx⟩ := word_ok A (by decide)
  refine paired _ w pfx rfl hw.symm w0 w4 wx (by simp [tileMajor, f0]) ?_ (Option.isNone_iff_eq_none.mp (Bool.and_eq_true_iff.mp hwf).1)
  try simp [plain] at h2
  simp only [decMajor, decTileLoad, f0, f1, f2, f3, f4, f5] <;> (try simp [failIf, withScope, port, scope_of, tint_of, tflt_of, fmt_of, cond_of, cmpFmt_of, partOk_eq, tflt_ne, tint_ne, h2]) <;> (repeat' split) <;> first | rfl | (exfalso; omega)

theorem vldb (vd : Reg) (rs1 : Reg) (imm : Int) (la : La) (pfx : Option Pfx) : Statement (.vldb vd rs1 imm la pfx) := by
  intro _ hwf
  have h2 : (inRange 8 imm && plain vd) = true := (Bool.and_eq_true_iff.mp hwf).2
  have := vd.isLt
  have := rs1.isLt
  have := ux_lt 8 imm
  have := la.isLt
  obtain ⟨w, hw⟩ : ∃ w, w = encLi la (ux 8 imm) rs1 1 vd 1 := ⟨_, rfl⟩
  have A : Asm (la.val * 8 + (ux 8 imm) / 32) ((ux 8 imm) % 32) rs1.val 1 vd.val 1 w := ⟨by rw [hw]; first | decide | (simp only [encLi] <;> omega), by omega, by omega, by omega, by decide, by omega, by decide⟩
  have f0 : bits w 6 2 = 1 := (b_6_2 A).trans (rfl)
  have f1 : bits w 14 12 = 1 := (b_14_12 A).trans (rfl)
  have f2 : rg w 15 = rs1 := r_15_32 A rs1 (by omega)
  have f3 : rg w 7 = vd := r_7_32 A vd (by omega)
  have f4 : laOf w = la := r_28_16 A la (by omega)
  have f5 : immL w = imm := i_immL A imm (by revert h2; simp; intros; assumption) (by omega)
  obtain ⟨w0, w4, wx⟩ := word_ok A (by decide)
  refine paired _ w pfx rfl hw.symm w0 w4 wx (by simp [tileMajor, f0]) ?_ (Option.isNone_iff_eq_none.mp (Bool.and_eq_true_iff.mp hwf).1)
  try simp [plain] at h2
  simp only [decMajor, decTileLoad, f0, f1, f2, f3, f4, f5] <;> (try simp [failIf, withScope, port, scope_of, tint_of, tflt_of, fmt_of, cond_of, cmpFmt_of, partOk_eq, tflt_ne, tint_ne, h2]) <;> (repeat' split) <;> first | rfl | (exfalso; omega)

theorem vlds (vd : Reg) (rs1 : Reg) (rs2 : Reg) (la : La) (pfx : Option Pfx) : Statement (.vlds vd rs1 rs2 la pfx) := by
  intro _ hwf
  have h2 : (plain vd) = true := (Bool.and_eq_true_iff.mp hwf).2
  have := vd.isLt
  have := rs1.isLt
  have := rs2.isLt
  have := la.isLt
  obtain ⟨w, hw⟩ : ∃ w, w = encV la.val 0 rs2 rs1 2 vd 1 := ⟨_, rfl⟩
  have A : Asm (la.val * 8 + 0) rs2.val rs1.val 2 vd.val 1 w := ⟨by rw [hw]; first | decide | (simp only [encV] <;> omega), by omega, by omega, by omega, by decide, by omega, by decide⟩
  have f0 : bits w 6 2 = 1 := (b_6_2 A).trans (rfl)
  have f1 : bits w 14 12 = 2 := (b_14_12 A).trans (rfl)
  have f2 : bits w 27 25 = 0 := (b_27_25 A).trans (by omega)
  have f3 : rg w 15 = rs1 := r_15_32 A rs1 (by omega)
  have f4 : rg w 20 = rs2 := r_20_32 A rs2 (by omega)
  have f5 : rg w 7 = vd := r_7_32 A vd (by omega)
  have f6 : laOf w = la := r_28_16 A la (by omega)
  obtain ⟨w0, w4, wx⟩ := word_ok A (by decide)
  refine paired _ w pfx rfl hw.symm w0 w4 wx (by simp [tileMajor, f0]) ?_ (Option.isNone_iff_eq_none.mp (Bool.and_eq_true_iff.mp hwf).1)
  try simp [plain] at h2
  simp only [decMajor, decTileLoad, f0, f1, f2, f3, f4, f5, f6] <;> (try simp [failIf, withScope, port, scope_of, tint_of, tflt_of, fmt_of, cond_of, cmpFmt_of, partOk_eq, tflt_ne, tint_ne, h2]) <;> (repeat' split) <;> first | rfl | (exfalso; omega)

theorem vldg (vd : Reg) (rs1 : Reg) (vs2 : Reg) (la : La) (pfx : Option Pfx) : Statement (.vldg vd rs1 vs2 la pfx) := by
  intro _ hwf
  have h2 : (plain vd && plain vs2) = true := (Bool.and_eq_true_iff.mp hwf).2
  have := vd.isLt
  have := rs1.isLt
  have := vs2.isLt
  have := la.isLt
  obtain ⟨w, hw⟩ : ∃ w, w = encV la.val 0 vs2 rs1 3 vd 1 := ⟨_, rfl⟩
  have A : Asm (la.val * 8 + 0) vs2.val rs1.val 3 vd.val 1 w := ⟨by rw [hw]; first | decide | (simp only [encV] <;> omega), by omega, by omega, by omega, by decide, by omega, by decide⟩
  have f0 : bits w 6 2 = 1 := (b_6_2 A).trans (rfl)
  have f1 : bits w 14 12 = 3 := (b_14_12 A).trans (rfl)
  have f2 : bits w 27 25 = 0 := (b_27_25 A).trans (by omega)
  have f3 : rg w 15 = rs1 := r_15_32 A rs1 (by omega)
  have f4 : rg w 20 = vs2 := r_20_32 A vs2 (by omega)
  have f5 : rg w 7 = vd := r_7_32 A vd (by omega)
  have f6 : laOf w = la := r_28_16 A la (by omega)
  obtain ⟨w0, w4, wx⟩ := word_ok A (by decide)
  refine paired _ w pfx rfl hw.symm w0 w4 wx (by simp [tileMajor, f0]) ?_ (Option.isNone_iff_eq_none.mp (Bool.and_eq_true_iff.mp hwf).1)
  try simp [plain] at h2
  simp only [decMajor, decTileLoad, f0, f1, f2, f3, f4, f5, f6] <;> (try simp [failIf, withScope, port, scope_of, tint_of, tflt_of, fmt_of, cond_of, cmpFmt_of, partOk_eq, tflt_ne, tint_ne, h2]) <;> (repeat' split) <;> first | rfl | (exfalso; omega)

theorem vst (vs : Reg) (rs1 : Reg) (imm : Int) (pfx : Option Pfx) : Statement (.vst vs rs1 imm pfx) := by
  intro _ hwf
  have h2 : (inRange 12 imm) = true := (Bool.and_eq_true_iff.mp hwf).2
  have := vs.isLt
  have := rs1.isLt
  have := ux_lt 12 imm
  obtain ⟨w, hw⟩ : ∃ w, w = encS (ux 12 imm) vs rs1 0 9 := ⟨_, rfl⟩
  have A : Asm ((ux 12 imm) / 32) vs.val rs1.val 0 ((ux 12 imm) % 32) 9 w := ⟨by rw [hw]; first | decide | (simp only [encS] <;> omega), by omega, by omega, by omega, by decide, by omega, by decide⟩
  have f0 : bits w 6 2 = 9 := (b_6_2 A).trans (rfl)
  have f1 : bits w 14 12 = 0 := (b_14_12 A).trans (rfl)
  have f2 : rg w 15 = rs1 := r_15_32 A rs1 (by omega)
  have f3 : rg w 20 = vs := r_20_32 A vs (by omega)
  have f4 : immS w = imm := i_immS A imm (h2) (by omega)
  obtain ⟨w0, w4, wx⟩ := word_ok A (by decide)
  refine paired _ w pfx rfl hw.symm w0 w4 wx (by simp [tileMajor, f0]) ?_ (Option.isNone_iff_eq_none.mp (Bool.and_eq_true_iff.mp hwf).1)
  try simp [plain] at h2
  simp only [decMajor, decTileStore, f0, f1, f2, f3, f4] <;> (try simp [failIf, withScope, port, scope_of, tint_of, tflt_of, fmt_of, cond_of, cmpFmt_of, partOk_eq, tflt_ne, tint_ne, h2]) <;> (repeat' split) <;> first | rfl | (exfalso; omega)

theorem vsts (vs : Reg) (rs1 : Reg) (rs2 : Reg) (pfx : Option Pfx) : Statement (.vsts vs rs1 rs2 pfx) := by
  intro _ hwf
  have := vs.isLt
  have := rs1.isLt
  have := rs2.isLt
  obtain ⟨w, hw⟩ : ∃ w, w = encR 0 rs2 rs1 1 vs 9 := ⟨_, rfl⟩
  have A : Asm 0 rs2.val rs1.val 1 vs.val 9 w := ⟨by rw [hw]; first | decide | (simp only [encR] <;> omega), by decide, by omega, by omega, by decide, by omega, by decide⟩
  have f0 : bits w 6 2 = 9 := (b_6_2 A).trans (rfl)
  have f1 : bits w 14 12 = 1 := (b_14_12 A).trans (rfl)
  have f2 : bits w 31 25 = 0 := (b_31_25 A).trans (rfl)
  have f3 : rg w 15 = rs1 := r_15_32 A rs1 (by omega)
  have f4 : rg w 20 = rs2 := r_20_32 A rs2 (by omega)
  have f5 : rg w 7 = vs := r_7_32 A vs (by omega)
  obtain ⟨w0, w4, wx⟩ := word_ok A (by decide)
  refine paired _ w pfx rfl hw.symm w0 w4 wx (by simp [tileMajor, f0]) ?_ (Option.isNone_iff_eq_none.mp (Bool.and_eq_true_iff.mp hwf).1)
  simp only [decMajor, decTileStore, f0, f1, f2, f3, f4, f5] <;> (try simp [failIf, withScope, port, scope_of, tint_of, tflt_of, fmt_of, cond_of, cmpFmt_of, partOk_eq, tflt_ne, tint_ne]) <;> (repeat' split) <;> first | rfl | (exfalso; omega)

theorem vstg (vs : Reg) (rs1 : Reg) (vs2 : Reg) (pfx : Option Pfx) : Statement (.vstg vs rs1 vs2 pfx) := by
  intro _ hwf
  have h2 : (plain vs2) = true := (Bool.and_eq_true_iff.mp hwf).2
  have := vs.isLt
  have := rs1.isLt
  have := vs2.isLt
  obtain ⟨w, hw⟩ : ∃ w, w = encR 0 vs2 rs1 2 vs 9 := ⟨_, rfl⟩
  have A : Asm 0 vs2.val rs1.val 2 vs.val 9 w := ⟨by rw [hw]; first | decide | (simp only [encR] <;> omega), by decide, by omega, by omega, by decide, by omega, by decide⟩
  have f0 : bits w 6 2 = 9 := (b_6_2 A).trans (rfl)
  have f1 : bits w 14 12 = 2 := (b_14_12 A).trans (rfl)
  have f2 : bits w 31 25 = 0 := (b_31_25 A).trans (rfl)
  have f3 : rg w 15 = rs1 := r_15_32 A rs1 (by omega)
  have f4 : rg w 20 = vs2 := r_20_32 A vs2 (by omega)
  have f5 : rg w 7 = vs := r_7_32 A vs (by omega)
  obtain ⟨w0, w4, wx⟩ := word_ok A (by decide)
  refine paired _ w pfx rfl hw.symm w0 w4 wx (by simp [tileMajor, f0]) ?_ (Option.isNone_iff_eq_none.mp (Bool.and_eq_true_iff.mp hwf).1)
  try simp [plain] at h2
  simp only [decMajor, decTileStore, f0, f1, f2, f3, f4, f5] <;> (try simp [failIf, withScope, port, scope_of, tint_of, tflt_of, fmt_of, cond_of, cmpFmt_of, partOk_eq, tflt_ne, tint_ne, h2]) <;> (repeat' split) <;> first | rfl | (exfalso; omega)

theorem ldfE (rd : Reg) (rs1 : Reg) (imm : Int) (la : La) : Statement (.ldfE rd rs1 imm la) := by
  intro _ hwf
  have h2 : (inRange 8 imm && plain rd) = true := (Bool.and_eq_true_iff.mp hwf).2
  have := rd.isLt
  have := rs1.isLt
  have := ux_lt 8 imm
  have := la.isLt
  obtain ⟨w, hw⟩ : ∃ w, w = encLi la (ux 8 imm) rs1 0 rd 2 := ⟨_, rfl⟩
  have A : Asm (la.val * 8 + (ux 8 imm) / 32) ((ux 8 imm) % 32) rs1.val 0 rd.val 2 w := ⟨by rw [hw]; first | decide | (simp only [encLi] <;> omega), by omega, by omega, by omega, by decide, by omega, by decide⟩
  have f0 : bits w 6 2 = 2 := (b_6_2 A).trans (rfl)
  have f1 : bits w 14 12 = 0 := (b_14_12 A).trans (rfl)
  have f2 : bits w 31 28 = la.val := (b_31_28 A).trans (by omega)
  have f3 : rg w 15 = rs1 := r_15_32 A rs1 (by omega)
  have f4 : rg w 7 = rd := r_7_32 A rd (by omega)
  have f5 : laOf w = la := r_28_16 A la (by omega)
  have f6 : immL w = imm := i_immL A imm (by revert h2; simp; intros; assumption) (by omega)
  obtain ⟨w0, w4, wx⟩ := word_ok A (by decide)
  refine single _ w rfl hw.symm w0 w4 wx ?_ rfl
  try simp [plain] at h2
  simp only [decMajor, decFullEmpty, f0, f1, f2, f3, f4, f5, f6] <;> (try simp [failIf, withScope, port, scope_of, tint_of, tflt_of, fmt_of, cond_of, cmpFmt_of, partOk_eq, tflt_ne, tint_ne, h2]) <;> (repeat' split) <;> first | rfl | (exfalso; omega)

theorem ldfF (rd : Reg) (rs1 : Reg) (imm : Int) (la : La) : Statement (.ldfF rd rs1 imm la) := by
  intro _ hwf
  have h2 : (inRange 8 imm && plain rd) = true := (Bool.and_eq_true_iff.mp hwf).2
  have := rd.isLt
  have := rs1.isLt
  have := ux_lt 8 imm
  have := la.isLt
  obtain ⟨w, hw⟩ : ∃ w, w = encLi la (ux 8 imm) rs1 1 rd 2 := ⟨_, rfl⟩
  have A : Asm (la.val * 8 + (ux 8 imm) / 32) ((ux 8 imm) % 32) rs1.val 1 rd.val 2 w := ⟨by rw [hw]; first | decide | (simp only [encLi] <;> omega), by omega, by omega, by omega, by decide, by omega, by decide⟩
  have f0 : bits w 6 2 = 2 := (b_6_2 A).trans (rfl)
  have f1 : bits w 14 12 = 1 := (b_14_12 A).trans (rfl)
  have f2 : bits w 31 28 = la.val := (b_31_28 A).trans (by omega)
  have f3 : rg w 15 = rs1 := r_15_32 A rs1 (by omega)
  have f4 : rg w 7 = rd := r_7_32 A rd (by omega)
  have f5 : laOf w = la := r_28_16 A la (by omega)
  have f6 : immL w = imm := i_immL A imm (by revert h2; simp; intros; assumption) (by omega)
  obtain ⟨w0, w4, wx⟩ := word_ok A (by decide)
  refine single _ w rfl hw.symm w0 w4 wx ?_ rfl
  try simp [plain] at h2
  simp only [decMajor, decFullEmpty, f0, f1, f2, f3, f4, f5, f6] <;> (try simp [failIf, withScope, port, scope_of, tint_of, tflt_of, fmt_of, cond_of, cmpFmt_of, partOk_eq, tflt_ne, tint_ne, h2]) <;> (repeat' split) <;> first | rfl | (exfalso; omega)

theorem ste (rs2 : Reg) (rs1 : Reg) (imm : Int) : Statement (.ste rs2 rs1 imm) := by
  intro _ hwf
  have h2 : (inRange 12 imm) = true := (Bool.and_eq_true_iff.mp hwf).2
  have := rs2.isLt
  have := rs1.isLt
  have := ux_lt 12 imm
  obtain ⟨w, hw⟩ : ∃ w, w = encS (ux 12 imm) rs2 rs1 2 2 := ⟨_, rfl⟩
  have A : Asm ((ux 12 imm) / 32) rs2.val rs1.val 2 ((ux 12 imm) % 32) 2 w := ⟨by rw [hw]; first | decide | (simp only [encS] <;> omega), by omega, by omega, by omega, by decide, by omega, by decide⟩
  have f0 : bits w 6 2 = 2 := (b_6_2 A).trans (rfl)
  have f1 : bits w 14 12 = 2 := (b_14_12 A).trans (rfl)
  have f2 : bits w 24 20 = rs2.val := (b_24_20 A).trans (by omega)
  have f3 : rg w 15 = rs1 := r_15_32 A rs1 (by omega)
  have f4 : rg w 20 = rs2 := r_20_32 A rs2 (by omega)
  have f5 : immS w = imm := i_immS A imm (h2) (by omega)
  obtain ⟨w0, w4, wx⟩ := word_ok A (by decide)
  refine single _ w rfl hw.symm w0 w4 wx ?_ rfl
  try simp [plain] at h2
  simp only [decMajor, decFullEmpty, f0, f1, f2, f3, f4, f5] <;> (try simp [failIf, withScope, port, scope_of, tint_of, tflt_of, fmt_of, cond_of, cmpFmt_of, partOk_eq, tflt_ne, tint_ne, h2]) <;> (repeat' split) <;> first | rfl | (exfalso; omega)

theorem stf (rs2 : Reg) (rs1 : Reg) (imm : Int) : Statement (.stf rs2 rs1 imm) := by
  intro _ hwf
  have h2 : (inRange 12 imm) = true := (Bool.and_eq_true_iff.mp hwf).2
  have := rs2.isLt
  have := rs1.isLt
  have := ux_lt 12 imm
  obtain ⟨w, hw⟩ : ∃ w, w = encS (ux 12 imm) rs2 rs1 3 2 := ⟨_, rfl⟩
  have A : Asm ((ux 12 imm) / 32) rs2.val rs1.val 3 ((ux 12 imm) % 32) 2 w := ⟨by rw [hw]; first | decide | (simp only [encS] <;> omega), by omega, by omega, by omega, by decide, by omega, by decide⟩
  have f0 : bits w 6 2 = 2 := (b_6_2 A).trans (rfl)
  have f1 : bits w 14 12 = 3 := (b_14_12 A).trans (rfl)
  have f2 : bits w 24 20 = rs2.val := (b_24_20 A).trans (by omega)
  have f3 : rg w 15 = rs1 := r_15_32 A rs1 (by omega)
  have f4 : rg w 20 = rs2 := r_20_32 A rs2 (by omega)
  have f5 : immS w = imm := i_immS A imm (h2) (by omega)
  obtain ⟨w0, w4, wx⟩ := word_ok A (by decide)
  refine single _ w rfl hw.symm w0 w4 wx ?_ rfl
  try simp [plain] at h2
  simp only [decMajor, decFullEmpty, f0, f1, f2, f3, f4, f5] <;> (try simp [failIf, withScope, port, scope_of, tint_of, tflt_of, fmt_of, cond_of, cmpFmt_of, partOk_eq, tflt_ne, tint_ne, h2]) <;> (repeat' split) <;> first | rfl | (exfalso; omega)

theorem fetag (rd : Reg) (rs1 : Reg) (imm : Int) : Statement (.fetag rd rs1 imm) := by
  intro _ hwf
  have h2 : (inRange 8 imm && plain rd) = true := (Bool.and_eq_true_iff.mp hwf).2
  have := rd.isLt
  have := rs1.isLt
  have := ux_lt 8 imm
  obtain ⟨w, hw⟩ : ∃ w, w = encLi 0 (ux 8 imm) rs1 4 rd 2 := ⟨_, rfl⟩
  have A : Asm (0 * 8 + (ux 8 imm) / 32) ((ux 8 imm) % 32) rs1.val 4 rd.val 2 w := ⟨by rw [hw]; first | decide | (simp only [encLi] <;> omega), by omega, by omega, by omega, by decide, by omega, by decide⟩
  have f0 : bits w 6 2 = 2 := (b_6_2 A).trans (rfl)
  have f1 : bits w 14 12 = 4 := (b_14_12 A).trans (rfl)
  have f2 : bits w 31 28 = 0 := (b_31_28 A).trans (by omega)
  have f3 : rg w 15 = rs1 := r_15_32 A rs1 (by omega)
  have f4 : rg w 7 = rd := r_7_32 A rd (by omega)
  have f5 : laOf w = (0 : Fin 16) := r_28_16 A (0 : Fin 16) (by simp <;> omega)
  have f6 : immL w = imm := i_immL A imm (by revert h2; simp; intros; assumption) (by omega)
  obtain ⟨w0, w4, wx⟩ := word_ok A (by decide)
  refine single _ w rfl hw.symm w0 w4 wx ?_ rfl
  try simp [plain] at h2
  simp only [decMajor, decFullEmpty, f0, f1, f2, f3, f4, f5, f6] <;> (try simp [failIf, withScope, port, scope_of, tint_of, tflt_of, fmt_of, cond_of, cmpFmt_of, partOk_eq, tflt_ne, tint_ne, h2]) <;> (repeat' split) <;> first | rfl | (exfalso; omega)

theorem fsetE (rs1 : Reg) (imm : Int) : Statement (.fsetE rs1 imm) := by
  intro _ hwf
  have h2 : (inRange 12 imm) = true := (Bool.and_eq_true_iff.mp hwf).2
  have := rs1.isLt
  have := ux_lt 12 imm
  obtain ⟨w, hw⟩ : ∃ w, w = encS (ux 12 imm) 0 rs1 5 2 := ⟨_, rfl⟩
  have A : Asm ((ux 12 imm) / 32) 0 rs1.val 5 ((ux 12 imm) % 32) 2 w := ⟨by rw [hw]; first | decide | (simp only [encS] <;> omega), by omega, by decide, by omega, by decide, by omega, by decide⟩
  have f0 : bits w 6 2 = 2 := (b_6_2 A).trans (rfl)
  have f1 : bits w 14 12 = 5 := (b_14_12 A).trans (rfl)
  have f2 : bits w 24 20 = 0 := (b_24_20 A).trans (rfl)
  have f3 : rg w 15 = rs1 := r_15_32 A rs1 (by omega)
  have f4 : rg w 20 = (0 : Fin 32) := r_20_32 A (0 : Fin 32) (rfl)
  have f5 : immS w = imm := i_immS A imm (h2) (by omega)
  obtain ⟨w0, w4, wx⟩ := word_ok A (by decide)
  refine single _ w rfl hw.symm w0 w4 wx ?_ rfl
  try simp [plain] at h2
  simp only [decMajor, decFullEmpty, f0, f1, f2, f3, f4, f5] <;> (try simp [failIf, withScope, port, scope_of, tint_of, tflt_of, fmt_of, cond_of, cmpFmt_of, partOk_eq, tflt_ne, tint_ne, h2]) <;> (repeat' split) <;> first | rfl | (exfalso; omega)

theorem fsetF (rs1 : Reg) (imm : Int) : Statement (.fsetF rs1 imm) := by
  intro _ hwf
  have h2 : (inRange 12 imm) = true := (Bool.and_eq_true_iff.mp hwf).2
  have := rs1.isLt
  have := ux_lt 12 imm
  obtain ⟨w, hw⟩ : ∃ w, w = encS (ux 12 imm) 0 rs1 6 2 := ⟨_, rfl⟩
  have A : Asm ((ux 12 imm) / 32) 0 rs1.val 6 ((ux 12 imm) % 32) 2 w := ⟨by rw [hw]; first | decide | (simp only [encS] <;> omega), by omega, by decide, by omega, by decide, by omega, by decide⟩
  have f0 : bits w 6 2 = 2 := (b_6_2 A).trans (rfl)
  have f1 : bits w 14 12 = 6 := (b_14_12 A).trans (rfl)
  have f2 : bits w 24 20 = 0 := (b_24_20 A).trans (rfl)
  have f3 : rg w 15 = rs1 := r_15_32 A rs1 (by omega)
  have f4 : rg w 20 = (0 : Fin 32) := r_20_32 A (0 : Fin 32) (rfl)
  have f5 : immS w = imm := i_immS A imm (h2) (by omega)
  obtain ⟨w0, w4, wx⟩ := word_ok A (by decide)
  refine single _ w rfl hw.symm w0 w4 wx ?_ rfl
  try simp [plain] at h2
  simp only [decMajor, decFullEmpty, f0, f1, f2, f3, f4, f5] <;> (try simp [failIf, withScope, port, scope_of, tint_of, tflt_of, fmt_of, cond_of, cmpFmt_of, partOk_eq, tflt_ne, tint_ne, h2]) <;> (repeat' split) <;> first | rfl | (exfalso; omega)

theorem amoswap (rd : Reg) (rs1 : Reg) (dbl : Bool) (aq : Bool) (rl : Bool) (sc : Scope) (la : La) : Statement (.amoswap rd rs1 dbl aq rl sc la) := by
  intro _ hwf
  have h2 : (plain rd) = true := (Bool.and_eq_true_iff.mp hwf).2
  have := rd.isLt
  have := rs1.isLt
  have := b2n_lt dbl
  have := b2n_lt aq
  have := b2n_lt rl
  have := scope_lt sc
  have := la.isLt
  obtain ⟨w, hw⟩ : ∃ w, w = encA la 0 dbl aq rl rs1 sc rd := ⟨_, rfl⟩
  have A : Asm (la.val * 8 + 0) (0 + b2n dbl * 8 + b2n aq * 4 + b2n rl * 2) rs1.val sc.code rd.val 11 w := ⟨by rw [hw]; first | decide | (simp only [encA] <;> omega), by omega, by omega, by omega, by omega, by omega, by decide⟩
  have f0 : bits w 6 2 = 11 := (b_6_2 A).trans (rfl)
  have f1 : bits w 27 24 = 0 := (b_27_24 A).trans (by omega)
  have f2 : bits w 20 20 = 0 := (b_20_20 A).trans (by omega)
  have f3 : bits w 14 12 = sc.code := (b_14_12 A).trans (by omega)
  have f4 : bit w 23 = dbl := t_23 A _ (by omega)
  have f5 : bit w 22 = aq := t_22 A _ (by omega)
  have f6 : bit w 21 = rl := t_21 A _ (by omega)
  have f7 : rg w 15 = rs1 := r_15_32 A rs1 (by omega)
  have f8 : rg w 7 = rd := r_7_32 A rd (by omega)
  have f9 : laOf w = la := r_28_16 A la (by omega)
  obtain ⟨w0, w4, wx⟩ := word_ok A (by decide)
  refine single _ w rfl hw.symm w0 w4 wx ?_ rfl
  try simp [plain] at h2
  simp only [decMajor, decAmo, f0, f1, f2, f3, f4, f5, f6, f7, f8, f9] <;> (try simp [failIf, withScope, port, scope_of, tint_of, tflt_of, fmt_of, cond_of, cmpFmt_of, partOk_eq, tflt_ne, tint_ne, h2]) <;> (repeat' split) <;> first | rfl | (exfalso; omega)

theorem amoadd (rd : Reg) (rs1 : Reg) (dbl : Bool) (aq : Bool) (rl : Bool) (sc : Scope) (la : La) : Statement (.amoadd rd rs1 dbl aq rl sc la) := by
  intro _ hwf
  have h2 : (plain rd) = true := (Bool.and_eq_true_iff.mp hwf).2
  have := rd.isLt
  have := rs1.isLt
  have := b2n_lt dbl
  have := b2n_lt aq
  have := b2n_lt rl
  have := scope_lt sc
  have := la.isLt
  obtain ⟨w, hw⟩ : ∃ w, w = encA la 1 dbl aq rl rs1 sc rd := ⟨_, rfl⟩
  have A : Asm (la.val * 8 + 0) (16 + b2n dbl * 8 + b2n aq * 4 + b2n rl * 2) rs1.val sc.code rd.val 11 w := ⟨by rw [hw]; first | decide | (simp only [encA] <;> omega), by omega, by omega, by omega, by omega, by omega, by decide⟩
  have f0 : bits w 6 2 = 11 := (b_6_2 A).trans (rfl)
  have f1 : bits w 27 24 = 1 := (b_27_24 A).trans (by omega)
  have f2 : bits w 20 20 = 0 := (b_20_20 A).trans (by omega)
  have f3 : bits w 14 12 = sc.code := (b_14_12 A).trans (by omega)
  have f4 : bit w 23 = dbl := t_23 A _ (by omega)
  have f5 : bit w 22 = aq := t_22 A _ (by omega)
  have f6 : bit w 21 = rl := t_21 A _ (by omega)
  have f7 : rg w 15 = rs1 := r_15_32 A rs1 (by omega)
  have f8 : rg w 7 = rd := r_7_32 A rd (by omega)
  have f9 : laOf w = la := r_28_16 A la (by omega)
  obtain ⟨w0, w4, wx⟩ := word_ok A (by decide)
  refine single _ w rfl hw.symm w0 w4 wx ?_ rfl
  try simp [plain] at h2
  simp only [decMajor, decAmo, f0, f1, f2, f3, f4, f5, f6, f7, f8, f9] <;> (try simp [failIf, withScope, port, scope_of, tint_of, tflt_of, fmt_of, cond_of, cmpFmt_of, partOk_eq, tflt_ne, tint_ne, h2]) <;> (repeat' split) <;> first | rfl | (exfalso; omega)

theorem amoand (rd : Reg) (rs1 : Reg) (dbl : Bool) (aq : Bool) (rl : Bool) (sc : Scope) (la : La) : Statement (.amoand rd rs1 dbl aq rl sc la) := by
  intro _ hwf
  have h2 : (plain rd) = true := (Bool.and_eq_true_iff.mp hwf).2
  have := rd.isLt
  have := rs1.isLt
  have := b2n_lt dbl
  have := b2n_lt aq
  have := b2n_lt rl
  have := scope_lt sc
  have := la.isLt
  obtain ⟨w, hw⟩ : ∃ w, w = encA la 2 dbl aq rl rs1 sc rd := ⟨_, rfl⟩
  have A : Asm (la.val * 8 + 1) (0 + b2n dbl * 8 + b2n aq * 4 + b2n rl * 2) rs1.val sc.code rd.val 11 w := ⟨by rw [hw]; first | decide | (simp only [encA] <;> omega), by omega, by omega, by omega, by omega, by omega, by decide⟩
  have f0 : bits w 6 2 = 11 := (b_6_2 A).trans (rfl)
  have f1 : bits w 27 24 = 2 := (b_27_24 A).trans (by omega)
  have f2 : bits w 20 20 = 0 := (b_20_20 A).trans (by omega)
  have f3 : bits w 14 12 = sc.code := (b_14_12 A).trans (by omega)
  have f4 : bit w 23 = dbl := t_23 A _ (by omega)
  have f5 : bit w 22 = aq := t_22 A _ (by omega)
  have f6 : bit w 21 = rl := t_21 A _ (by omega)
  have f7 : rg w 15 = rs1 := r_15_32 A rs1 (by omega)
  have f8 : rg w 7 = rd := r_7_32 A rd (by omega)
  have f9 : laOf w = la := r_28_16 A la (by omega)
  obtain ⟨w0, w4, wx⟩ := word_ok A (by decide)
  refine single _ w rfl hw.symm w0 w4 wx ?_ rfl
  try simp [plain] at h2
  simp only [decMajor, decAmo, f0, f1, f2, f3, f4, f5, f6, f7, f8, f9] <;> (try simp [failIf, withScope, port, scope_of, tint_of, tflt_of, fmt_of, cond_of, cmpFmt_of, partOk_eq, tflt_ne, tint_ne, h2]) <;> (repeat' split) <;> first | rfl | (exfalso; omega)

theorem amoor (rd : Reg) (rs1 : Reg) (dbl : Bool) (aq : Bool) (rl : Bool) (sc : Scope) (la : La) : Statement (.amoor rd rs1 dbl aq rl sc la) := by
  intro _ hwf
  have h2 : (plain rd) = true := (Bool.and_eq_true_iff.mp hwf).2
  have := rd.isLt
  have := rs1.isLt
  have := b2n_lt dbl
  have := b2n_lt aq
  have := b2n_lt rl
  have := scope_lt sc
  have := la.isLt
  obtain ⟨w, hw⟩ : ∃ w, w = encA la 3 dbl aq rl rs1 sc rd := ⟨_, rfl⟩
  have A : Asm (la.val * 8 + 1) (16 + b2n dbl * 8 + b2n aq * 4 + b2n rl * 2) rs1.val sc.code rd.val 11 w := ⟨by rw [hw]; first | decide | (simp only [encA] <;> omega), by omega, by omega, by omega, by omega, by omega, by decide⟩
  have f0 : bits w 6 2 = 11 := (b_6_2 A).trans (rfl)
  have f1 : bits w 27 24 = 3 := (b_27_24 A).trans (by omega)
  have f2 : bits w 20 20 = 0 := (b_20_20 A).trans (by omega)
  have f3 : bits w 14 12 = sc.code := (b_14_12 A).trans (by omega)
  have f4 : bit w 23 = dbl := t_23 A _ (by omega)
  have f5 : bit w 22 = aq := t_22 A _ (by omega)
  have f6 : bit w 21 = rl := t_21 A _ (by omega)
  have f7 : rg w 15 = rs1 := r_15_32 A rs1 (by omega)
  have f8 : rg w 7 = rd := r_7_32 A rd (by omega)
  have f9 : laOf w = la := r_28_16 A la (by omega)
  obtain ⟨w0, w4, wx⟩ := word_ok A (by decide)
  refine single _ w rfl hw.symm w0 w4 wx ?_ rfl
  try simp [plain] at h2
  simp only [decMajor, decAmo, f0, f1, f2, f3, f4, f5, f6, f7, f8, f9] <;> (try simp [failIf, withScope, port, scope_of, tint_of, tflt_of, fmt_of, cond_of, cmpFmt_of, partOk_eq, tflt_ne, tint_ne, h2]) <;> (repeat' split) <;> first | rfl | (exfalso; omega)

theorem amoxor (rd : Reg) (rs1 : Reg) (dbl : Bool) (aq : Bool) (rl : Bool) (sc : Scope) (la : La) : Statement (.amoxor rd rs1 dbl aq rl sc la) := by
  intro _ hwf
  have h2 : (plain rd) = true := (Bool.and_eq_true_iff.mp hwf).2
  have := rd.isLt
  have := rs1.isLt
  have := b2n_lt dbl
  have := b2n_lt aq
  have := b2n_lt rl
  have := scope_lt sc
  have := la.isLt
  obtain ⟨w, hw⟩ : ∃ w, w = encA la 4 dbl aq rl rs1 sc rd := ⟨_, rfl⟩
  have A : Asm (la.val * 8 + 2) (0 + b2n dbl * 8 + b2n aq * 4 + b2n rl * 2) rs1.val sc.code rd.val 11 w := ⟨by rw [hw]; first | decide | (simp only [encA] <;> omega), by omega, by omega, by omega, by omega, by omega, by decide⟩
  have f0 : bits w 6 2 = 11 := (b_6_2 A).trans (rfl)
  have f1 : bits w 27 24 = 4 := (b_27_24 A).trans (by omega)
  have f2 : bits w 20 20 = 0 := (b_20_20 A).trans (by omega)
  have f3 : bits w 14 12 = sc.code := (b_14_12 A).trans (by omega)
  have f4 : bit w 23 = dbl := t_23 A _ (by omega)
  have f5 : bit w 22 = aq := t_22 A _ (by omega)
  have f6 : bit w 21 = rl := t_21 A _ (by omega)
  have f7 : rg w 15 = rs1 := r_15_32 A rs1 (by omega)
  have f8 : rg w 7 = rd := r_7_32 A rd (by omega)
  have f9 : laOf w = la := r_28_16 A la (by omega)
  obtain ⟨w0, w4, wx⟩ := word_ok A (by decide)
  refine single _ w rfl hw.symm w0 w4 wx ?_ rfl
  try simp [plain] at h2
  simp only [decMajor, decAmo, f0, f1, f2, f3, f4, f5, f6, f7, f8, f9] <;> (try simp [failIf, withScope, port, scope_of, tint_of, tflt_of, fmt_of, cond_of, cmpFmt_of, partOk_eq, tflt_ne, tint_ne, h2]) <;> (repeat' split) <;> first | rfl | (exfalso; omega)

theorem amomin (rd : Reg) (rs1 : Reg) (dbl : Bool) (aq : Bool) (rl : Bool) (sc : Scope) (la : La) : Statement (.amomin rd rs1 dbl aq rl sc la) := by
  intro _ hwf
  have h2 : (plain rd) = true := (Bool.and_eq_true_iff.mp hwf).2
  have := rd.isLt
  have := rs1.isLt
  have := b2n_lt dbl
  have := b2n_lt aq
  have := b2n_lt rl
  have := scope_lt sc
  have := la.isLt
  obtain ⟨w, hw⟩ : ∃ w, w = encA la 5 dbl aq rl rs1 sc rd := ⟨_, rfl⟩
  have A : Asm (la.val * 8 + 2) (16 + b2n dbl * 8 + b2n aq * 4 + b2n rl * 2) rs1.val sc.code rd.val 11 w := ⟨by rw [hw]; first | decide | (simp only [encA] <;> omega), by omega, by omega, by omega, by omega, by omega, by decide⟩
  have f0 : bits w 6 2 = 11 := (b_6_2 A).trans (rfl)
  have f1 : bits w 27 24 = 5 := (b_27_24 A).trans (by omega)
  have f2 : bits w 20 20 = 0 := (b_20_20 A).trans (by omega)
  have f3 : bits w 14 12 = sc.code := (b_14_12 A).trans (by omega)
  have f4 : bit w 23 = dbl := t_23 A _ (by omega)
  have f5 : bit w 22 = aq := t_22 A _ (by omega)
  have f6 : bit w 21 = rl := t_21 A _ (by omega)
  have f7 : rg w 15 = rs1 := r_15_32 A rs1 (by omega)
  have f8 : rg w 7 = rd := r_7_32 A rd (by omega)
  have f9 : laOf w = la := r_28_16 A la (by omega)
  obtain ⟨w0, w4, wx⟩ := word_ok A (by decide)
  refine single _ w rfl hw.symm w0 w4 wx ?_ rfl
  try simp [plain] at h2
  simp only [decMajor, decAmo, f0, f1, f2, f3, f4, f5, f6, f7, f8, f9] <;> (try simp [failIf, withScope, port, scope_of, tint_of, tflt_of, fmt_of, cond_of, cmpFmt_of, partOk_eq, tflt_ne, tint_ne, h2]) <;> (repeat' split) <;> first | rfl | (exfalso; omega)

theorem amomax (rd : Reg) (rs1 : Reg) (dbl : Bool) (aq : Bool) (rl : Bool) (sc : Scope) (la : La) : Statement (.amomax rd rs1 dbl aq rl sc la) := by
  intro _ hwf
  have h2 : (plain rd) = true := (Bool.and_eq_true_iff.mp hwf).2
  have := rd.isLt
  have := rs1.isLt
  have := b2n_lt dbl
  have := b2n_lt aq
  have := b2n_lt rl
  have := scope_lt sc
  have := la.isLt
  obtain ⟨w, hw⟩ : ∃ w, w = encA la 6 dbl aq rl rs1 sc rd := ⟨_, rfl⟩
  have A : Asm (la.val * 8 + 3) (0 + b2n dbl * 8 + b2n aq * 4 + b2n rl * 2) rs1.val sc.code rd.val 11 w := ⟨by rw [hw]; first | decide | (simp only [encA] <;> omega), by omega, by omega, by omega, by omega, by omega, by decide⟩
  have f0 : bits w 6 2 = 11 := (b_6_2 A).trans (rfl)
  have f1 : bits w 27 24 = 6 := (b_27_24 A).trans (by omega)
  have f2 : bits w 20 20 = 0 := (b_20_20 A).trans (by omega)
  have f3 : bits w 14 12 = sc.code := (b_14_12 A).trans (by omega)
  have f4 : bit w 23 = dbl := t_23 A _ (by omega)
  have f5 : bit w 22 = aq := t_22 A _ (by omega)
  have f6 : bit w 21 = rl := t_21 A _ (by omega)
  have f7 : rg w 15 = rs1 := r_15_32 A rs1 (by omega)
  have f8 : rg w 7 = rd := r_7_32 A rd (by omega)
  have f9 : laOf w = la := r_28_16 A la (by omega)
  obtain ⟨w0, w4, wx⟩ := word_ok A (by decide)
  refine single _ w rfl hw.symm w0 w4 wx ?_ rfl
  try simp [plain] at h2
  simp only [decMajor, decAmo, f0, f1, f2, f3, f4, f5, f6, f7, f8, f9] <;> (try simp [failIf, withScope, port, scope_of, tint_of, tflt_of, fmt_of, cond_of, cmpFmt_of, partOk_eq, tflt_ne, tint_ne, h2]) <;> (repeat' split) <;> first | rfl | (exfalso; omega)

theorem amominu (rd : Reg) (rs1 : Reg) (dbl : Bool) (aq : Bool) (rl : Bool) (sc : Scope) (la : La) : Statement (.amominu rd rs1 dbl aq rl sc la) := by
  intro _ hwf
  have h2 : (plain rd) = true := (Bool.and_eq_true_iff.mp hwf).2
  have := rd.isLt
  have := rs1.isLt
  have := b2n_lt dbl
  have := b2n_lt aq
  have := b2n_lt rl
  have := scope_lt sc
  have := la.isLt
  obtain ⟨w, hw⟩ : ∃ w, w = encA la 7 dbl aq rl rs1 sc rd := ⟨_, rfl⟩
  have A : Asm (la.val * 8 + 3) (16 + b2n dbl * 8 + b2n aq * 4 + b2n rl * 2) rs1.val sc.code rd.val 11 w := ⟨by rw [hw]; first | decide | (simp only [encA] <;> omega), by omega, by omega, by omega, by omega, by omega, by decide⟩
  have f0 : bits w 6 2 = 11 := (b_6_2 A).trans (rfl)
  have f1 : bits w 27 24 = 7 := (b_27_24 A).trans (by omega)
  have f2 : bits w 20 20 = 0 := (b_20_20 A).trans (by omega)
  have f3 : bits w 14 12 = sc.code := (b_14_12 A).trans (by omega)
  have f4 : bit w 23 = dbl := t_23 A _ (by omega)
  have f5 : bit w 22 = aq := t_22 A _ (by omega)
  have f6 : bit w 21 = rl := t_21 A _ (by omega)
  have f7 : rg w 15 = rs1 := r_15_32 A rs1 (by omega)
  have f8 : rg w 7 = rd := r_7_32 A rd (by omega)
  have f9 : laOf w = la := r_28_16 A la (by omega)
  obtain ⟨w0, w4, wx⟩ := word_ok A (by decide)
  refine single _ w rfl hw.symm w0 w4 wx ?_ rfl
  try simp [plain] at h2
  simp only [decMajor, decAmo, f0, f1, f2, f3, f4, f5, f6, f7, f8, f9] <;> (try simp [failIf, withScope, port, scope_of, tint_of, tflt_of, fmt_of, cond_of, cmpFmt_of, partOk_eq, tflt_ne, tint_ne, h2]) <;> (repeat' split) <;> first | rfl | (exfalso; omega)

theorem amomaxu (rd : Reg) (rs1 : Reg) (dbl : Bool) (aq : Bool) (rl : Bool) (sc : Scope) (la : La) : Statement (.amomaxu rd rs1 dbl aq rl sc la) := by
  intro _ hwf
  have h2 : (plain rd) = true := (Bool.and_eq_true_iff.mp hwf).2
  have := rd.isLt
  have := rs1.isLt
  have := b2n_lt dbl
  have := b2n_lt aq
  have := b2n_lt rl
  have := scope_lt sc
  have := la.isLt
  obtain ⟨w, hw⟩ : ∃ w, w = encA la 8 dbl aq rl rs1 sc rd := ⟨_, rfl⟩
  have A : Asm (la.val * 8 + 4) (0 + b2n dbl * 8 + b2n aq * 4 + b2n rl * 2) rs1.val sc.code rd.val 11 w := ⟨by rw [hw]; first | decide | (simp only [encA] <;> omega), by omega, by omega, by omega, by omega, by omega, by decide⟩
  have f0 : bits w 6 2 = 11 := (b_6_2 A).trans (rfl)
  have f1 : bits w 27 24 = 8 := (b_27_24 A).trans (by omega)
  have f2 : bits w 20 20 = 0 := (b_20_20 A).trans (by omega)
  have f3 : bits w 14 12 = sc.code := (b_14_12 A).trans (by omega)
  have f4 : bit w 23 = dbl := t_23 A _ (by omega)
  have f5 : bit w 22 = aq := t_22 A _ (by omega)
  have f6 : bit w 21 = rl := t_21 A _ (by omega)
  have f7 : rg w 15 = rs1 := r_15_32 A rs1 (by omega)
  have f8 : rg w 7 = rd := r_7_32 A rd (by omega)
  have f9 : laOf w = la := r_28_16 A la (by omega)
  obtain ⟨w0, w4, wx⟩ := word_ok A (by decide)
  refine single _ w rfl hw.symm w0 w4 wx ?_ rfl
  try simp [plain] at h2
  simp only [decMajor, decAmo, f0, f1, f2, f3, f4, f5, f6, f7, f8, f9] <;> (try simp [failIf, withScope, port, scope_of, tint_of, tflt_of, fmt_of, cond_of, cmpFmt_of, partOk_eq, tflt_ne, tint_ne, h2]) <;> (repeat' split) <;> first | rfl | (exfalso; omega)

theorem amofadd (rd : Reg) (rs1 : Reg) (aq : Bool) (rl : Bool) (sc : Scope) (la : La) : Statement (.amofadd rd rs1 aq rl sc la) := by
  intro _ hwf
  have h2 : (plain rd) = true := (Bool.and_eq_true_iff.mp hwf).2
  have := rd.isLt
  have := rs1.isLt
  have := b2n_lt aq
  have := b2n_lt rl
  have := scope_lt sc
  have := la.isLt
  obtain ⟨w, hw⟩ : ∃ w, w = encA la 9 false aq rl rs1 sc rd := ⟨_, rfl⟩
  have A : Asm (la.val * 8 + 4) (16 + 0 * 8 + b2n aq * 4 + b2n rl * 2) rs1.val sc.code rd.val 11 w := ⟨by rw [hw]; first | decide | (simp only [encA, b2n_false] <;> omega), by omega, by omega, by omega, by omega, by omega, by decide⟩
  have f0 : bits w 6 2 = 11 := (b_6_2 A).trans (rfl)
  have f1 : bits w 27 24 = 9 := (b_27_24 A).trans (by omega)
  have f2 : bits w 20 20 = 0 := (b_20_20 A).trans (by omega)
  have f3 : bits w 14 12 = sc.code := (b_14_12 A).trans (by omega)
  have f4 : bit w 23 = false := t_23 A _ (by simp only [b2n_true, b2n_false]; omega)
  have f5 : bit w 22 = aq := t_22 A _ (by omega)
  have f6 : bit w 21 = rl := t_21 A _ (by omega)
  have f7 : rg w 15 = rs1 := r_15_32 A rs1 (by omega)
  have f8 : rg w 7 = rd := r_7_32 A rd (by omega)
  have f9 : laOf w = la := r_28_16 A la (by omega)
  obtain ⟨w0, w4, wx⟩ := word_ok A (by decide)
  refine single _ w rfl hw.symm w0 w4 wx ?_ rfl
  try simp [plain] at h2
  simp only [decMajor, decAmo, f0, f1, f2, f3, f4, f5, f6, f7, f8, f9] <;> (try simp [failIf, withScope, port, scope_of, tint_of, tflt_of, fmt_of, cond_of, cmpFmt_of, partOk_eq, tflt_ne, tint_ne, h2]) <;> (repeat' split) <;> first | rfl | (exfalso; omega)

theorem amocas (rd : Reg) (rs1 : Reg) (dbl : Bool) (aq : Bool) (rl : Bool) (sc : Scope) (la : La) : Statement (.amocas rd rs1 dbl aq rl sc la) := by
  intro _ hwf
  have h2 : (plain rd && rd.val % 2 == 0) = true := (Bool.and_eq_true_iff.mp hwf).2
  have := rd.isLt
  have := rs1.isLt
  have := b2n_lt dbl
  have := b2n_lt aq
  have := b2n_lt rl
  have := scope_lt sc
  have := la.isLt
  obtain ⟨w, hw⟩ : ∃ w, w = encA la 10 dbl aq rl rs1 sc rd := ⟨_, rfl⟩
  have A : Asm (la.val * 8 + 5) (0 + b2n dbl * 8 + b2n aq * 4 + b2n rl * 2) rs1.val sc.code rd.val 11 w := ⟨by rw [hw]; first | decide | (simp only [encA] <;> omega), by omega, by omega, by omega, by omega, by omega, by decide⟩
  have f0 : bits w 6 2 = 11 := (b_6_2 A).trans (rfl)
  have f1 : bits w 27 24 = 10 := (b_27_24 A).trans (by omega)
  have f2 : bits w 20 20 = 0 := (b_20_20 A).trans (by omega)
  have f3 : bits w 14 12 = sc.code := (b_14_12 A).trans (by omega)
  have f4 : bit w 23 = dbl := t_23 A _ (by omega)
  have f5 : bit w 22 = aq := t_22 A _ (by omega)
  have f6 : bit w 21 = rl := t_21 A _ (by omega)
  have f7 : rg w 15 = rs1 := r_15_32 A rs1 (by omega)
  have f8 : rg w 7 = rd := r_7_32 A rd (by omega)
  have f9 : laOf w = la := r_28_16 A la (by omega)
  obtain ⟨w0, w4, wx⟩ := word_ok A (by decide)
  refine single _ w rfl hw.symm w0 w4 wx ?_ rfl
  try simp [plain] at h2
  simp only [decMajor, decAmo, f0, f1, f2, f3, f4, f5, f6, f7, f8, f9] <;> (try simp [failIf, withScope, port, scope_of, tint_of, tflt_of, fmt_of, cond_of, cmpFmt_of, partOk_eq, tflt_ne, tint_ne, h2]) <;> (repeat' split) <;> first | rfl | (exfalso; omega)

theorem lr (rd : Reg) (rs1 : Reg) (dbl : Bool) (aq : Bool) (sc : Scope) (la : La) : Statement (.lr rd rs1 dbl aq sc la) := by
  intro _ hwf
  have h2 : (plain rd) = true := (Bool.and_eq_true_iff.mp hwf).2
  have := rd.isLt
  have := rs1.isLt
  have := b2n_lt dbl
  have := b2n_lt aq
  have := scope_lt sc
  have := la.isLt
  obtain ⟨w, hw⟩ : ∃ w, w = encA la 11 dbl aq false rs1 sc rd := ⟨_, rfl⟩
  have A : Asm (la.val * 8 + 5) (16 + b2n dbl * 8 + b2n aq * 4 + 0 * 2) rs1.val sc.code rd.val 11 w := ⟨by rw [hw]; first | decide | (simp only [encA, b2n_false] <;> omega), by omega, by omega, by omega, by omega, by omega, by decide⟩
  have f0 : bits w 6 2 = 11 := (b_6_2 A).trans (rfl)
  have f1 : bits w 27 24 = 11 := (b_27_24 A).trans (by omega)
  have f2 : bits w 20 20 = 0 := (b_20_20 A).trans (by omega)
  have f3 : bits w 14 12 = sc.code := (b_14_12 A).trans (by omega)
  have f4 : bit w 23 = dbl := t_23 A _ (by omega)
  have f5 : bit w 22 = aq := t_22 A _ (by omega)
  have f6 : bit w 21 = false := t_21 A _ (by simp only [b2n_true, b2n_false]; omega)
  have f7 : rg w 15 = rs1 := r_15_32 A rs1 (by omega)
  have f8 : rg w 7 = rd := r_7_32 A rd (by omega)
  have f9 : laOf w = la := r_28_16 A la (by omega)
  obtain ⟨w0, w4, wx⟩ := word_ok A (by decide)
  refine single _ w rfl hw.symm w0 w4 wx ?_ rfl
  try simp [plain] at h2
  simp only [decMajor, decAmo, f0, f1, f2, f3, f4, f5, f6, f7, f8, f9] <;> (try simp [failIf, withScope, port, scope_of, tint_of, tflt_of, fmt_of, cond_of, cmpFmt_of, partOk_eq, tflt_ne, tint_ne, h2]) <;> (repeat' split) <;> first | rfl | (exfalso; omega)

theorem sc (rd : Reg) (rs1 : Reg) (dbl : Bool) (rl : Bool) (sc : Scope) (la : La) : Statement (.sc rd rs1 dbl rl sc la) := by
  intro _ hwf
  have h2 : (plain rd) = true := (Bool.and_eq_true_iff.mp hwf).2
  have := rd.isLt
  have := rs1.isLt
  have := b2n_lt dbl
  have := b2n_lt rl
  have := scope_lt sc
  have := la.isLt
  obtain ⟨w, hw⟩ : ∃ w, w = encA la 12 dbl false rl rs1 sc rd := ⟨_, rfl⟩
  have A : Asm (la.val * 8 + 6) (0 + b2n dbl * 8 + 0 * 4 + b2n rl * 2) rs1.val sc.code rd.val 11 w := ⟨by rw [hw]; first | decide | (simp only [encA, b2n_false] <;> omega), by omega, by omega, by omega, by omega, by omega, by decide⟩
  have f0 : bits w 6 2 = 11 := (b_6_2 A).trans (rfl)
  have f1 : bits w 27 24 = 12 := (b_27_24 A).trans (by omega)
  have f2 : bits w 20 20 = 0 := (b_20_20 A).trans (by omega)
  have f3 : bits w 14 12 = sc.code := (b_14_12 A).trans (by omega)
  have f4 : bit w 23 = dbl := t_23 A _ (by omega)
  have f5 : bit w 22 = false := t_22 A _ (by simp only [b2n_true, b2n_false]; omega)
  have f6 : bit w 21 = rl := t_21 A _ (by omega)
  have f7 : rg w 15 = rs1 := r_15_32 A rs1 (by omega)
  have f8 : rg w 7 = rd := r_7_32 A rd (by omega)
  have f9 : laOf w = la := r_28_16 A la (by omega)
  obtain ⟨w0, w4, wx⟩ := word_ok A (by decide)
  refine single _ w rfl hw.symm w0 w4 wx ?_ rfl
  try simp [plain] at h2
  simp only [decMajor, decAmo, f0, f1, f2, f3, f4, f5, f6, f7, f8, f9] <;> (try simp [failIf, withScope, port, scope_of, tint_of, tflt_of, fmt_of, cond_of, cmpFmt_of, partOk_eq, tflt_ne, tint_ne, h2]) <;> (repeat' split) <;> first | rfl | (exfalso; omega)

theorem redadd (rs2 : Reg) (rs1 : Reg) (dbl : Bool) : Statement (.redadd rs2 rs1 dbl) := by
  intro _ hwf
  have := rs2.isLt
  have := rs1.isLt
  have := b2n_lt dbl
  obtain ⟨w, hw⟩ : ∃ w, w = encR (b2n dbl * 16 + 1) rs2 rs1 7 0 11 := ⟨_, rfl⟩
  have A : Asm ((b2n dbl * 16 + 1)) rs2.val rs1.val 7 0 11 w := ⟨by rw [hw]; first | decide | (simp only [encR] <;> omega), by omega, by omega, by omega, by decide, by decide, by decide⟩
  have f0 : bits w 6 2 = 11 := (b_6_2 A).trans (rfl)
  have f1 : bits w 28 25 = 1 := (b_28_25 A).trans (by omega)
  have f2 : bits w 31 30 = 0 := (b_31_30 A).trans (by omega)
  have f3 : bits w 11 7 = 0 := (b_11_7 A).trans (rfl)
  have f4 : bits w 14 12 = 7 := (b_14_12 A).trans (rfl)
  have f5 : bit w 29 = dbl := t_29 A _ (by omega)
  have f6 : rg w 15 = rs1 := r_15_32 A rs1 (by omega)
  have f7 : rg w 20 = rs2 := r_20_32 A rs2 (by omega)
  obtain ⟨w0, w4, wx⟩ := word_ok A (by decide)
  refine single _ w rfl hw.symm w0 w4 wx ?_ rfl
  simp only [decMajor, decRed, f0, f1, f2, f3, f4, f5, f6, f7] <;> (try simp [failIf, withScope, port, scope_of, tint_of, tflt_of, fmt_of, cond_of, cmpFmt_of, partOk_eq, tflt_ne, tint_ne]) <;> (repeat' split) <;> first | rfl | (exfalso; omega)

theorem redand (rs2 : Reg) (rs1 : Reg) (dbl : Bool) : Statement (.redand rs2 rs1 dbl) := by
  intro _ hwf
  have := rs2.isLt
  have := rs1.isLt
  have := b2n_lt dbl
  obtain ⟨w, hw⟩ : ∃ w, w = encR (b2n dbl * 16 + 2) rs2 rs1 7 0 11 := ⟨_, rfl⟩
  have A : Asm ((b2n dbl * 16 + 2)) rs2.val rs1.val 7 0 11 w := ⟨by rw [hw]; first | decide | (simp only [encR] <;> omega), by omega, by omega, by omega, by decide, by decide, by decide⟩
  have f0 : bits w 6 2 = 11 := (b_6_2 A).trans (rfl)
  have f1 : bits w 28 25 = 2 := (b_28_25 A).trans (by omega)
  have f2 : bits w 31 30 = 0 := (b_31_30 A).trans (by omega)
  have f3 : bits w 11 7 = 0 := (b_11_7 A).trans (rfl)
  have f4 : bits w 14 12 = 7 := (b_14_12 A).trans (rfl)
  have f5 : bit w 29 = dbl := t_29 A _ (by omega)
  have f6 : rg w 15 = rs1 := r_15_32 A rs1 (by omega)
  have f7 : rg w 20 = rs2 := r_20_32 A rs2 (by omega)
  obtain ⟨w0, w4, wx⟩ := word_ok A (by decide)
  refine single _ w rfl hw.symm w0 w4 wx ?_ rfl
  simp only [decMajor, decRed, f0, f1, f2, f3, f4, f5, f6, f7] <;> (try simp [failIf, withScope, port, scope_of, tint_of, tflt_of, fmt_of, cond_of, cmpFmt_of, partOk_eq, tflt_ne, tint_ne]) <;> (repeat' split) <;> first | rfl | (exfalso; omega)

theorem redor (rs2 : Reg) (rs1 : Reg) (dbl : Bool) : Statement (.redor rs2 rs1 dbl) := by
  intro _ hwf
  have := rs2.isLt
  have := rs1.isLt
  have := b2n_lt dbl
  obtain ⟨w, hw⟩ : ∃ w, w = encR (b2n dbl * 16 + 3) rs2 rs1 7 0 11 := ⟨_, rfl⟩
  have A : Asm ((b2n dbl * 16 + 3)) rs2.val rs1.val 7 0 11 w := ⟨by rw [hw]; first | decide | (simp only [encR] <;> omega), by omega, by omega, by omega, by decide, by decide, by decide⟩
  have f0 : bits w 6 2 = 11 := (b_6_2 A).trans (rfl)
  have f1 : bits w 28 25 = 3 := (b_28_25 A).trans (by omega)
  have f2 : bits w 31 30 = 0 := (b_31_30 A).trans (by omega)
  have f3 : bits w 11 7 = 0 := (b_11_7 A).trans (rfl)
  have f4 : bits w 14 12 = 7 := (b_14_12 A).trans (rfl)
  have f5 : bit w 29 = dbl := t_29 A _ (by omega)
  have f6 : rg w 15 = rs1 := r_15_32 A rs1 (by omega)
  have f7 : rg w 20 = rs2 := r_20_32 A rs2 (by omega)
  obtain ⟨w0, w4, wx⟩ := word_ok A (by decide)
  refine single _ w rfl hw.symm w0 w4 wx ?_ rfl
  simp only [decMajor, decRed, f0, f1, f2, f3, f4, f5, f6, f7] <;> (try simp [failIf, withScope, port, scope_of, tint_of, tflt_of, fmt_of, cond_of, cmpFmt_of, partOk_eq, tflt_ne, tint_ne]) <;> (repeat' split) <;> first | rfl | (exfalso; omega)

theorem redxor (rs2 : Reg) (rs1 : Reg) (dbl : Bool) : Statement (.redxor rs2 rs1 dbl) := by
  intro _ hwf
  have := rs2.isLt
  have := rs1.isLt
  have := b2n_lt dbl
  obtain ⟨w, hw⟩ : ∃ w, w = encR (b2n dbl * 16 + 4) rs2 rs1 7 0 11 := ⟨_, rfl⟩
  have A : Asm ((b2n dbl * 16 + 4)) rs2.val rs1.val 7 0 11 w := ⟨by rw [hw]; first | decide | (simp only [encR] <;> omega), by omega, by omega, by omega, by decide, by decide, by decide⟩
  have f0 : bits w 6 2 = 11 := (b_6_2 A).trans (rfl)
  have f1 : bits w 28 25 = 4 := (b_28_25 A).trans (by omega)
  have f2 : bits w 31 30 = 0 := (b_31_30 A).trans (by omega)
  have f3 : bits w 11 7 = 0 := (b_11_7 A).trans (rfl)
  have f4 : bits w 14 12 = 7 := (b_14_12 A).trans (rfl)
  have f5 : bit w 29 = dbl := t_29 A _ (by omega)
  have f6 : rg w 15 = rs1 := r_15_32 A rs1 (by omega)
  have f7 : rg w 20 = rs2 := r_20_32 A rs2 (by omega)
  obtain ⟨w0, w4, wx⟩ := word_ok A (by decide)
  refine single _ w rfl hw.symm w0 w4 wx ?_ rfl
  simp only [decMajor, decRed, f0, f1, f2, f3, f4, f5, f6, f7] <;> (try simp [failIf, withScope, port, scope_of, tint_of, tflt_of, fmt_of, cond_of, cmpFmt_of, partOk_eq, tflt_ne, tint_ne]) <;> (repeat' split) <;> first | rfl | (exfalso; omega)

theorem redmin (rs2 : Reg) (rs1 : Reg) (dbl : Bool) : Statement (.redmin rs2 rs1 dbl) := by
  intro _ hwf
  have := rs2.isLt
  have := rs1.isLt
  have := b2n_lt dbl
  obtain ⟨w, hw⟩ : ∃ w, w = encR (b2n dbl * 16 + 5) rs2 rs1 7 0 11 := ⟨_, rfl⟩
  have A : Asm ((b2n dbl * 16 + 5)) rs2.val rs1.val 7 0 11 w := ⟨by rw [hw]; first | decide | (simp only [encR] <;> omega), by omega, by omega, by omega, by decide, by decide, by decide⟩
  have f0 : bits w 6 2 = 11 := (b_6_2 A).trans (rfl)
  have f1 : bits w 28 25 = 5 := (b_28_25 A).trans (by omega)
  have f2 : bits w 31 30 = 0 := (b_31_30 A).trans (by omega)
  have f3 : bits w 11 7 = 0 := (b_11_7 A).trans (rfl)
  have f4 : bits w 14 12 = 7 := (b_14_12 A).trans (rfl)
  have f5 : bit w 29 = dbl := t_29 A _ (by omega)
  have f6 : rg w 15 = rs1 := r_15_32 A rs1 (by omega)
  have f7 : rg w 20 = rs2 := r_20_32 A rs2 (by omega)
  obtain ⟨w0, w4, wx⟩ := word_ok A (by decide)
  refine single _ w rfl hw.symm w0 w4 wx ?_ rfl
  simp only [decMajor, decRed, f0, f1, f2, f3, f4, f5, f6, f7] <;> (try simp [failIf, withScope, port, scope_of, tint_of, tflt_of, fmt_of, cond_of, cmpFmt_of, partOk_eq, tflt_ne, tint_ne]) <;> (repeat' split) <;> first | rfl | (exfalso; omega)

theorem redmax (rs2 : Reg) (rs1 : Reg) (dbl : Bool) : Statement (.redmax rs2 rs1 dbl) := by
  intro _ hwf
  have := rs2.isLt
  have := rs1.isLt
  have := b2n_lt dbl
  obtain ⟨w, hw⟩ : ∃ w, w = encR (b2n dbl * 16 + 6) rs2 rs1 7 0 11 := ⟨_, rfl⟩
  have A : Asm ((b2n dbl * 16 + 6)) rs2.val rs1.val 7 0 11 w := ⟨by rw [hw]; first | decide | (simp only [encR] <;> omega), by omega, by omega, by omega, by decide, by decide, by decide⟩
  have f0 : bits w 6 2 = 11 := (b_6_2 A).trans (rfl)
  have f1 : bits w 28 25 = 6 := (b_28_25 A).trans (by omega)
  have f2 : bits w 31 30 = 0 := (b_31_30 A).trans (by omega)
  have f3 : bits w 11 7 = 0 := (b_11_7 A).trans (rfl)
  have f4 : bits w 14 12 = 7 := (b_14_12 A).trans (rfl)
  have f5 : bit w 29 = dbl := t_29 A _ (by omega)
  have f6 : rg w 15 = rs1 := r_15_32 A rs1 (by omega)
  have f7 : rg w 20 = rs2 := r_20_32 A rs2 (by omega)
  obtain ⟨w0, w4, wx⟩ := word_ok A (by decide)
  refine single _ w rfl hw.symm w0 w4 wx ?_ rfl
  simp only [decMajor, decRed, f0, f1, f2, f3, f4, f5, f6, f7] <;> (try simp [failIf, withScope, port, scope_of, tint_of, tflt_of, fmt_of, cond_of, cmpFmt_of, partOk_eq, tflt_ne, tint_ne]) <;> (repeat' split) <;> first | rfl | (exfalso; omega)

theorem redminu (rs2 : Reg) (rs1 : Reg) (dbl : Bool) : Statement (.redminu rs2 rs1 dbl) := by
  intro _ hwf
  have := rs2.isLt
  have := rs1.isLt
  have := b2n_lt dbl
  obtain ⟨w, hw⟩ : ∃ w, w = encR (b2n dbl * 16 + 7) rs2 rs1 7 0 11 := ⟨_, rfl⟩
  have A : Asm ((b2n dbl * 16 + 7)) rs2.val rs1.val 7 0 11 w := ⟨by rw [hw]; first | decide | (simp only [encR] <;> omega), by omega, by omega, by omega, by decide, by decide, by decide⟩
  have f0 : bits w 6 2 = 11 := (b_6_2 A).trans (rfl)
  have f1 : bits w 28 25 = 7 := (b_28_25 A).trans (by omega)
  have f2 : bits w 31 30 = 0 := (b_31_30 A).trans (by omega)
  have f3 : bits w 11 7 = 0 := (b_11_7 A).trans (rfl)
  have f4 : bits w 14 12 = 7 := (b_14_12 A).trans (rfl)
  have f5 : bit w 29 = dbl := t_29 A _ (by omega)
  have f6 : rg w 15 = rs1 := r_15_32 A rs1 (by omega)
  have f7 : rg w 20 = rs2 := r_20_32 A rs2 (by omega)
  obtain ⟨w0, w4, wx⟩ := word_ok A (by decide)
  refine single _ w rfl hw.symm w0 w4 wx ?_ rfl
  simp only [decMajor, decRed, f0, f1, f2, f3, f4, f5, f6, f7] <;> (try simp [failIf, withScope, port, scope_of, tint_of, tflt_of, fmt_of, cond_of, cmpFmt_of, partOk_eq, tflt_ne, tint_ne]) <;> (repeat' split) <;> first | rfl | (exfalso; omega)

theorem redmaxu (rs2 : Reg) (rs1 : Reg) (dbl : Bool) : Statement (.redmaxu rs2 rs1 dbl) := by
  intro _ hwf
  have := rs2.isLt
  have := rs1.isLt
  have := b2n_lt dbl
  obtain ⟨w, hw⟩ : ∃ w, w = encR (b2n dbl * 16 + 8) rs2 rs1 7 0 11 := ⟨_, rfl⟩
  have A : Asm ((b2n dbl * 16 + 8)) rs2.val rs1.val 7 0 11 w := ⟨by rw [hw]; first | decide | (simp only [encR] <;> omega), by omega, by omega, by omega, by decide, by decide, by decide⟩
  have f0 : bits w 6 2 = 11 := (b_6_2 A).trans (rfl)
  have f1 : bits w 28 25 = 8 := (b_28_25 A).trans (by omega)
  have f2 : bits w 31 30 = 0 := (b_31_30 A).trans (by omega)
  have f3 : bits w 11 7 = 0 := (b_11_7 A).trans (rfl)
  have f4 : bits w 14 12 = 7 := (b_14_12 A).trans (rfl)
  have f5 : bit w 29 = dbl := t_29 A _ (by omega)
  have f6 : rg w 15 = rs1 := r_15_32 A rs1 (by omega)
  have f7 : rg w 20 = rs2 := r_20_32 A rs2 (by omega)
  obtain ⟨w0, w4, wx⟩ := word_ok A (by decide)
  refine single _ w rfl hw.symm w0 w4 wx ?_ rfl
  simp only [decMajor, decRed, f0, f1, f2, f3, f4, f5, f6, f7] <;> (try simp [failIf, withScope, port, scope_of, tint_of, tflt_of, fmt_of, cond_of, cmpFmt_of, partOk_eq, tflt_ne, tint_ne]) <;> (repeat' split) <;> first | rfl | (exfalso; omega)

theorem redfadd (rs2 : Reg) (rs1 : Reg) : Statement (.redfadd rs2 rs1) := by
  intro _ hwf
  have := rs2.isLt
  have := rs1.isLt
  obtain ⟨w, hw⟩ : ∃ w, w = encR 9 rs2 rs1 7 0 11 := ⟨_, rfl⟩
  have A : Asm 9 rs2.val rs1.val 7 0 11 w := ⟨by rw [hw]; first | decide | (simp only [encR] <;> omega), by decide, by omega, by omega, by decide, by decide, by decide⟩
  have f0 : bits w 6 2 = 11 := (b_6_2 A).trans (rfl)
  have f1 : bits w 28 25 = 9 := (b_28_25 A).trans (rfl)
  have f2 : bits w 31 30 = 0 := (b_31_30 A).trans (rfl)
  have f3 : bits w 11 7 = 0 := (b_11_7 A).trans (rfl)
  have f4 : bits w 14 12 = 7 := (b_14_12 A).trans (rfl)
  have f5 : bit w 29 = false := t_29 A _ (rfl)
  have f6 : rg w 15 = rs1 := r_15_32 A rs1 (by omega)
  have f7 : rg w 20 = rs2 := r_20_32 A rs2 (by omega)
  obtain ⟨w0, w4, wx⟩ := word_ok A (by decide)
  refine single _ w rfl hw.symm w0 w4 wx ?_ rfl
  simp only [decMajor, decRed, f0, f1, f2, f3, f4, f5, f6, f7] <;> (try simp [failIf, withScope, port, scope_of, tint_of, tflt_of, fmt_of, cond_of, cmpFmt_of, partOk_eq, tflt_ne, tint_ne]) <;> (repeat' split) <;> first | rfl | (exfalso; omega)

theorem fence (pred : Fin 256) (succ : Fin 256) (sc : Scope) : Statement (.fence pred succ sc) := by
  intro _ hwf
  have := pred.isLt
  have := succ.isLt
  have := scope_lt sc
  obtain ⟨w, hw⟩ : ∃ w, w = pred.val * 2 ^ 24 + succ.val * 2 ^ 16 + sc.code * 2 ^ 7 + 15 := ⟨_, rfl⟩
  have A : Asm (pred.val / 2) (pred.val % 2 * 16 + succ.val / 16) (succ.val % 16 * 2) 0 sc.code 3 w := ⟨by rw [hw]; try omega, by omega, by omega, by omega, by decide, by omega, by decide⟩
  have f0 : bits w 6 2 = 3 := (b_6_2 A).trans (rfl)
  have f1 : bits w 14 12 = 0 := (b_14_12 A).trans (rfl)
  have f2 : bits w 15 15 = 0 := (b_15_15 A).trans (by omega)
  have f3 : bits w 11 10 = 0 := (b_11_10 A).trans (by omega)
  have f4 : bits w 9 7 = sc.code := (b_9_7 A).trans (by omega)
  have f5 : bits w 11 7 = sc.code := (b_11_7 A).trans (by omega)
  have f6 : Fin.ofNat 256 (w / 2 ^ 16) = succ := r_16_256 A succ (by omega)
  have f7 : Fin.ofNat 256 (w / 2 ^ 24) = pred := r_24_256 A pred (by omega)
  obtain ⟨w0, w4, wx⟩ := word_ok A (by decide)
  refine single _ w rfl hw.symm w0 w4 wx ?_ rfl
  simp only [decMajor, decMisc, f0, f1, f2, f3, f4, f5, f6, f7] <;> (try simp [failIf, withScope, port, scope_of, tint_of, tflt_of, fmt_of, cond_of, cmpFmt_of, partOk_eq, tflt_ne, tint_ne]) <;> (repeat' split) <;> first | rfl | (exfalso; omega)

theorem ifence : Statement .ifence := by
  intro _ hwf
  obtain ⟨w, hw⟩ : ∃ w, w = 4111 := ⟨_, rfl⟩
  have A : Asm 0 0 0 1 0 3 w := ⟨by rw [hw]; try omega, by decide, by decide, by decide, by decide, by decide, by decide⟩
  have f0 : bits w 6 2 = 3 := (b_6_2 A).trans (rfl)
  have f1 : bits w 14 12 = 1 := (b_14_12 A).trans (rfl)
  have f2 : bits w 15 15 = 0 := (b_15_15 A).trans (rfl)
  have f3 : bits w 11 10 = 0 := (b_11_10 A).trans (rfl)
  have f4 : bits w 9 7 = 0 := (b_9_7 A).trans (rfl)
  have f5 : bits w 31 15 = 0 := (b_31_15 A).trans (rfl)
  have f6 : bits w 11 7 = 0 := (b_11_7 A).trans (rfl)
  have f7 : bits w 31 25 = 0 := (b_31_25 A).trans (rfl)
  have f8 : bits w 31 29 = 0 := (b_31_29 A).trans (rfl)
  have f9 : bits w 28 28 = 0 := (b_28_28 A).trans (rfl)
  have f10 : rg w 15 = (0 : Fin 32) := r_15_32 A (0 : Fin 32) (rfl)
  have f11 : rg w 20 = (0 : Fin 32) := r_20_32 A (0 : Fin 32) (rfl)
  have f12 : rg w 7 = (0 : Fin 32) := r_7_32 A (0 : Fin 32) (rfl)
  have f13 : Fin.ofNat 256 (w / 2 ^ 16) = (0 : Fin 256) := r_16_256 A (0 : Fin 256) (rfl)
  have f14 : Fin.ofNat 256 (w / 2 ^ 24) = (0 : Fin 256) := r_24_256 A (0 : Fin 256) (rfl)
  have f15 : Fin.ofNat 8 (w / 2 ^ 25) = (0 : Fin 8) := r_25_8 A (0 : Fin 8) (rfl)
  obtain ⟨w0, w4, wx⟩ := word_ok A (by decide)
  refine single _ w rfl hw.symm w0 w4 wx ?_ rfl
  simp only [decMajor, decMisc, f0, f1, f2, f3, f4, f5, f6, f7, f8, f9, f10, f11, f12, f13, f14, f15] <;> (try simp [failIf, withScope, port, scope_of, tint_of, tflt_of, fmt_of, cond_of, cmpFmt_of, partOk_eq, tflt_ne, tint_ne]) <;> (repeat' split) <;> first | rfl | (exfalso; omega)

theorem codeinv (rs1 : Reg) (rs2 : Reg) (sc : Scope) : Statement (.codeinv rs1 rs2 sc) := by
  intro _ hwf
  have h2 : (plain rs1 && plain rs2) = true := (Bool.and_eq_true_iff.mp hwf).2
  have := rs1.isLt
  have := rs2.isLt
  have := scope_lt sc
  obtain ⟨w, hw⟩ : ∃ w, w = rs2.val * 2 ^ 20 + rs1.val * 2 ^ 15 + 2 * 2 ^ 12 + sc.code * 2 ^ 7 + 15 := ⟨_, rfl⟩
  have A : Asm 0 rs2.val rs1.val 2 sc.code 3 w := ⟨by rw [hw]; try omega, by decide, by omega, by omega, by decide, by omega, by decide⟩
  have f0 : bits w 6 2 = 3 := (b_6_2 A).trans (rfl)
  have f1 : bits w 14 12 = 2 := (b_14_12 A).trans (rfl)
  have f2 : bits w 11 10 = 0 := (b_11_10 A).trans (by omega)
  have f3 : bits w 9 7 = sc.code := (b_9_7 A).trans (by omega)
  have f4 : bits w 11 7 = sc.code := (b_11_7 A).trans (by omega)
  have f5 : bits w 31 25 = 0 := (b_31_25 A).trans (rfl)
  have f6 : bits w 31 29 = 0 := (b_31_29 A).trans (rfl)
  have f7 : bits w 28 28 = 0 := (b_28_28 A).trans (rfl)
  have f8 : rg w 15 = rs1 := r_15_32 A rs1 (by omega)
  have f9 : rg w 20 = rs2 := r_20_32 A rs2 (by omega)
  have f10 : Fin.ofNat 8 (w / 2 ^ 25) = (0 : Fin 8) := r_25_8 A (0 : Fin 8) (rfl)
  obtain ⟨w0, w4, wx⟩ := word_ok A (by decide)
  refine single _ w rfl hw.symm w0 w4 wx ?_ rfl
  try simp [plain] at h2
  simp only [decMajor, decMisc, f0, f1, f2, f3, f4, f5, f6, f7, f8, f9, f10] <;> (try simp [failIf, withScope, port, scope_of, tint_of, tflt_of, fmt_of, cond_of, cmpFmt_of, partOk_eq, tflt_ne, tint_ne, h2]) <;> (repeat' split) <;> first | rfl | (exfalso; omega)

theorem ipref (rs2 : Reg) (rs1 : Reg) : Statement (.ipref rs2 rs1) := by
  intro _ hwf
  have h2 : (plain rs1 && plain rs2) = true := (Bool.and_eq_true_iff.mp hwf).2
  have := rs2.isLt
  have := rs1.isLt
  obtain ⟨w, hw⟩ : ∃ w, w = encR 0 rs2 rs1 3 0 3 := ⟨_, rfl⟩
  have A : Asm 0 rs2.val rs1.val 3 0 3 w := ⟨by rw [hw]; first | decide | (simp only [encR] <;> omega), by decide, by omega, by omega, by decide, by decide, by decide⟩
  have f0 : bits w 6 2 = 3 := (b_6_2 A).trans (rfl)
  have f1 : bits w 14 12 = 3 := (b_14_12 A).trans (rfl)
  have f2 : bits w 11 10 = 0 := (b_11_10 A).trans (rfl)
  have f3 : bits w 9 7 = 0 := (b_9_7 A).trans (rfl)
  have f4 : bits w 11 7 = 0 := (b_11_7 A).trans (rfl)
  have f5 : bits w 31 25 = 0 := (b_31_25 A).trans (rfl)
  have f6 : bits w 31 29 = 0 := (b_31_29 A).trans (rfl)
  have f7 : bits w 28 28 = 0 := (b_28_28 A).trans (rfl)
  have f8 : rg w 15 = rs1 := r_15_32 A rs1 (by omega)
  have f9 : rg w 20 = rs2 := r_20_32 A rs2 (by omega)
  have f10 : rg w 7 = (0 : Fin 32) := r_7_32 A (0 : Fin 32) (rfl)
  have f11 : Fin.ofNat 8 (w / 2 ^ 25) = (0 : Fin 8) := r_25_8 A (0 : Fin 8) (rfl)
  obtain ⟨w0, w4, wx⟩ := word_ok A (by decide)
  refine single _ w rfl hw.symm w0 w4 wx ?_ rfl
  try simp [plain] at h2
  simp only [decMajor, decMisc, f0, f1, f2, f3, f4, f5, f6, f7, f8, f9, f10, f11] <;> (try simp [failIf, withScope, port, scope_of, tint_of, tflt_of, fmt_of, cond_of, cmpFmt_of, partOk_eq, tflt_ne, tint_ne, h2]) <;> (repeat' split) <;> first | rfl | (exfalso; omega)

theorem dpref (rs1 : Reg) (imm : Int) : Statement (.dpref rs1 imm) := by
  intro _ hwf
  have h2 : (inRange 12 imm && plain rs1) = true := (Bool.and_eq_true_iff.mp hwf).2
  have := rs1.isLt
  have := ux_lt 12 imm
  obtain ⟨w, hw⟩ : ∃ w, w = encI (ux 12 imm) rs1 4 0 3 := ⟨_, rfl⟩
  have A : Asm ((ux 12 imm) / 32) ((ux 12 imm) % 32) rs1.val 4 0 3 w := ⟨by rw [hw]; first | decide | (simp only [encI] <;> omega), by omega, by omega, by omega, by decide, by decide, by decide⟩
  have f0 : bits w 6 2 = 3 := (b_6_2 A).trans (rfl)
  have f1 : bits w 14 12 = 4 := (b_14_12 A).trans (rfl)
  have f2 : bits w 11 10 = 0 := (b_11_10 A).trans (rfl)
  have f3 : bits w 9 7 = 0 := (b_9_7 A).trans (rfl)
  have f4 : bits w 11 7 = 0 := (b_11_7 A).trans (rfl)
  have f5 : rg w 15 = rs1 := r_15_32 A rs1 (by omega)
  have f6 : rg w 7 = (0 : Fin 32) := r_7_32 A (0 : Fin 32) (rfl)
  have f7 : immI w = imm := i_immI A imm (by revert h2; simp; intros; assumption) (by omega)
  obtain ⟨w0, w4, wx⟩ := word_ok A (by decide)
  refine single _ w rfl hw.symm w0 w4 wx ?_ rfl
  try simp [plain] at h2
  simp only [decMajor, decMisc, f0, f1, f2, f3, f4, f5, f6, f7] <;> (try simp [failIf, withScope, port, scope_of, tint_of, tflt_of, fmt_of, cond_of, cmpFmt_of, partOk_eq, tflt_ne, tint_ne, h2]) <;> (repeat' split) <;> first | rfl | (exfalso; omega)

theorem tlblog (rd : Reg) (rs1 : Reg) (rs2 : Reg) (die : Fin 8) : Statement (.tlblog rd rs1 rs2 die) := by
  intro _ hwf
  have h2 : (plain rd && plain rs1 && plain rs2) = true := (Bool.and_eq_true_iff.mp hwf).2
  have := rd.isLt
  have := rs1.isLt
  have := rs2.isLt
  have := die.isLt
  obtain ⟨w, hw⟩ : ∃ w, w = encR die.val rs2 rs1 5 rd 3 := ⟨_, rfl⟩
  have A : Asm die.val rs2.val rs1.val 5 rd.val 3 w := ⟨by rw [hw]; first | decide | (simp only [encR] <;> omega), by omega, by omega, by omega, by decide, by omega, by decide⟩
  have f0 : bits w 6 2 = 3 := (b_6_2 A).trans (rfl)
  have f1 : bits w 14 12 = 5 := (b_14_12 A).trans (rfl)
  have f2 : bits w 11 7 = rd.val := (b_11_7 A).trans (by omega)
  have f3 : bits w 31 25 = die.val := (b_31_25 A).trans (by omega)
  have f4 : bits w 31 29 = 0 := (b_31_29 A).trans (by omega)
  have f5 : bits w 28 28 = 0 := (b_28_28 A).trans (by omega)
  have f6 : rg w 15 = rs1 := r_15_32 A rs1 (by omega)
  have f7 : rg w 20 = rs2 := r_20_32 A rs2 (by omega)
  have f8 : rg w 7 = rd := r_7_32 A rd (by omega)
  have f9 : Fin.ofNat 8 (w / 2 ^ 25) = die := r_25_8 A die (by omega)
  obtain ⟨w0, w4, wx⟩ := word_ok A (by decide)
  refine single _ w rfl hw.symm w0 w4 wx ?_ rfl
  try simp [plain] at h2
  simp only [decMajor, decMisc, f0, f1, f2, f3, f4, f5, f6, f7, f8, f9] <;> (try simp [failIf, withScope, port, scope_of, tint_of, tflt_of, fmt_of, cond_of, cmpFmt_of, partOk_eq, tflt_ne, tint_ne, h2]) <;> (repeat' split) <;> first | rfl | (exfalso; omega)

theorem tlblogw (rd : Reg) (rs1 : Reg) (rs2 : Reg) (die : Fin 8) : Statement (.tlblogw rd rs1 rs2 die) := by
  intro _ hwf
  have h2 : (plain rd && plain rs1 && plain rs2) = true := (Bool.and_eq_true_iff.mp hwf).2
  have := rd.isLt
  have := rs1.isLt
  have := rs2.isLt
  have := die.isLt
  obtain ⟨w, hw⟩ : ∃ w, w = encR (8 + die.val) rs2 rs1 5 rd 3 := ⟨_, rfl⟩
  have A : Asm ((8 + die.val)) rs2.val rs1.val 5 rd.val 3 w := ⟨by rw [hw]; first | decide | (simp only [encR] <;> omega), by omega, by omega, by omega, by decide, by omega, by decide⟩
  have f0 : bits w 6 2 = 3 := (b_6_2 A).trans (rfl)
  have f1 : bits w 14 12 = 5 := (b_14_12 A).trans (rfl)
  have f2 : bits w 11 7 = rd.val := (b_11_7 A).trans (by omega)
  have f3 : bits w 31 29 = 0 := (b_31_29 A).trans (by omega)
  have f4 : bits w 28 28 = 1 := (b_28_28 A).trans (by omega)
  have f5 : rg w 15 = rs1 := r_15_32 A rs1 (by omega)
  have f6 : rg w 20 = rs2 := r_20_32 A rs2 (by omega)
  have f7 : rg w 7 = rd := r_7_32 A rd (by omega)
  have f8 : Fin.ofNat 8 (w / 2 ^ 25) = die := r_25_8 A die (by omega)
  obtain ⟨w0, w4, wx⟩ := word_ok A (by decide)
  refine single _ w rfl hw.symm w0 w4 wx ?_ rfl
  try simp [plain] at h2
  simp only [decMajor, decMisc, f0, f1, f2, f3, f4, f5, f6, f7, f8] <;> (try simp [failIf, withScope, port, scope_of, tint_of, tflt_of, fmt_of, cond_of, cmpFmt_of, partOk_eq, tflt_ne, tint_ne, h2]) <;> (repeat' split) <;> first | rfl | (exfalso; omega)

theorem vadd (vd : Reg) (vs1 : Reg) (src2 : Reg) (x : Bool) (ty : TInt) (pfx : Option Pfx) : Statement (.vadd vd vs1 src2 x ty pfx) := by
  intro _ hwf
  have := vd.isLt
  have := vs1.isLt
  have := src2.isLt
  have := b2n_lt x
  have := tint_lt ty
  obtain ⟨w, hw⟩ : ∃ w, w = encV 0 (b2n x) src2 vs1 ty.code vd 18 := ⟨_, rfl⟩
  have A : Asm (0 * 8 + (b2n x)) src2.val vs1.val ty.code vd.val 18 w := ⟨by rw [hw]; first | decide | (simp only [encV] <;> omega), by omega, by omega, by omega, by omega, by omega, by decide⟩
  have f0 : bits w 6 2 = 18 := (b_6_2 A).trans (rfl)
  have f1 : bits w 31 28 = 0 := (b_31_28 A).trans (by omega)
  have f2 : bits w 14 12 = ty.code := (b_14_12 A).trans (by omega)
  have f3 : bits w 27 26 = 0 := (b_27_26 A).trans (by omega)
  have f4 : bit w 25 = x := t_25 A _ (by omega)
  have f5 : rg w 15 = vs1 := r_15_32 A vs1 (by omega)
  have f6 : rg w 20 = src2 := r_20_32 A src2 (by omega)
  have f7 : rg w 7 = vd := r_7_32 A vd (by omega)
  obtain ⟨w0, w4, wx⟩ := word_ok A (by decide)
  refine paired _ w pfx rfl hw.symm w0 w4 wx (by simp [tileMajor, f0]) ?_ (Option.isNone_iff_eq_none.mp (Bool.and_eq_true_iff.mp hwf).1)
  simp only [decMajor, decTileInt, f0, f1, f2, f3, f4, f5, f6, f7] <;> (try simp [failIf, withScope, port, scope_of, tint_of, tflt_of, fmt_of, cond_of, cmpFmt_of, partOk_eq, tflt_ne, tint_ne]) <;> (repeat' split) <;> first | rfl | (exfalso; omega)

theorem vsub (vd : Reg) (vs1 : Reg) (src2 : Reg) (x : Bool) (ty : TInt) (pfx : Option Pfx) : Statement (.vsub vd vs1 src2 x ty pfx) := by
  intro _ hwf
  have := vd.isLt
  have := vs1.isLt
  have := src2.isLt
  have := b2n_lt x
  have := tint_lt ty
  obtain ⟨w, hw⟩ : ∃ w, w = encV 1 (b2n x) src2 vs1 ty.code vd 18 := ⟨_, rfl⟩
  have A : Asm (1 * 8 + (b2n x)) src2.val vs1.val ty.code vd.val 18 w := ⟨by rw [hw]; first | decide | (simp only [encV] <;> omega), by omega, by omega, by omega, by omega, by omega, by decide⟩
  have f0 : bits w 6 2 = 18 := (b_6_2 A).trans (rfl)
  have f1 : bits w 31 28 = 1 := (b_31_28 A).trans (by omega)
  have f2 : bits w 14 12 = ty.code := (b_14_12 A).trans (by omega)
  have f3 : bits w 27 26 = 0 := (b_27_26 A).trans (by omega)
  have f4 : bit w 25 = x := t_25 A _ (by omega)
  have f5 : rg w 15 = vs1 := r_15_32 A vs1 (by omega)
  have f6 : rg w 20 = src2 := r_20_32 A src2 (by omega)
  have f7 : rg w 7 = vd := r_7_32 A vd (by omega)
  obtain ⟨w0, w4, wx⟩ := word_ok A (by decide)
  refine paired _ w pfx rfl hw.symm w0 w4 wx (by simp [tileMajor, f0]) ?_ (Option.isNone_iff_eq_none.mp (Bool.and_eq_true_iff.mp hwf).1)
  simp only [decMajor, decTileInt, f0, f1, f2, f3, f4, f5, f6, f7] <;> (try simp [failIf, withScope, port, scope_of, tint_of, tflt_of, fmt_of, cond_of, cmpFmt_of, partOk_eq, tflt_ne, tint_ne]) <;> (repeat' split) <;> first | rfl | (exfalso; omega)

theorem vmul (vd : Reg) (vs1 : Reg) (src2 : Reg) (x : Bool) (ty : TInt) (pfx : Option Pfx) : Statement (.vmul vd vs1 src2 x ty pfx) := by
  intro _ hwf
  have := vd.isLt
  have := vs1.isLt
  have := src2.isLt
  have := b2n_lt x
  have := tint_lt ty
  obtain ⟨w, hw⟩ : ∃ w, w = encV 2 (b2n x) src2 vs1 ty.code vd 18 := ⟨_, rfl⟩
  have A : Asm (2 * 8 + (b2n x)) src2.val vs1.val ty.code vd.val 18 w := ⟨by rw [hw]; first | decide | (simp only [encV] <;> omega), by omega, by omega, by omega, by omega, by omega, by decide⟩
  have f0 : bits w 6 2 = 18 := (b_6_2 A).trans (rfl)
  have f1 : bits w 31 28 = 2 := (b_31_28 A).trans (by omega)
  have f2 : bits w 14 12 = ty.code := (b_14_12 A).trans (by omega)
  have f3 : bits w 27 26 = 0 := (b_27_26 A).trans (by omega)
  have f4 : bit w 25 = x := t_25 A _ (by omega)
  have f5 : rg w 15 = vs1 := r_15_32 A vs1 (by omega)
  have f6 : rg w 20 = src2 := r_20_32 A src2 (by omega)
  have f7 : rg w 7 = vd := r_7_32 A vd (by omega)
  obtain ⟨w0, w4, wx⟩ := word_ok A (by decide)
  refine paired _ w pfx rfl hw.symm w0 w4 wx (by simp [tileMajor, f0]) ?_ (Option.isNone_iff_eq_none.mp (Bool.and_eq_true_iff.mp hwf).1)
  simp only [decMajor, decTileInt, f0, f1, f2, f3, f4, f5, f6, f7] <;> (try simp [failIf, withScope, port, scope_of, tint_of, tflt_of, fmt_of, cond_of, cmpFmt_of, partOk_eq, tflt_ne, tint_ne]) <;> (repeat' split) <;> first | rfl | (exfalso; omega)

theorem vmulh (vd : Reg) (vs1 : Reg) (src2 : Reg) (x : Bool) (ty : TInt) (pfx : Option Pfx) : Statement (.vmulh vd vs1 src2 x ty pfx) := by
  intro _ hwf
  have := vd.isLt
  have := vs1.isLt
  have := src2.isLt
  have := b2n_lt x
  have := tint_lt ty
  obtain ⟨w, hw⟩ : ∃ w, w = encV 3 (b2n x) src2 vs1 ty.code vd 18 := ⟨_, rfl⟩
  have A : Asm (3 * 8 + (b2n x)) src2.val vs1.val ty.code vd.val 18 w := ⟨by rw [hw]; first | decide | (simp only [encV] <;> omega), by omega, by omega, by omega, by omega, by omega, by decide⟩
  have f0 : bits w 6 2 = 18 := (b_6_2 A).trans (rfl)
  have f1 : bits w 31 28 = 3 := (b_31_28 A).trans (by omega)
  have f2 : bits w 14 12 = ty.code := (b_14_12 A).trans (by omega)
  have f3 : bits w 27 26 = 0 := (b_27_26 A).trans (by omega)
  have f4 : bit w 25 = x := t_25 A _ (by omega)
  have f5 : rg w 15 = vs1 := r_15_32 A vs1 (by omega)
  have f6 : rg w 20 = src2 := r_20_32 A src2 (by omega)
  have f7 : rg w 7 = vd := r_7_32 A vd (by omega)
  obtain ⟨w0, w4, wx⟩ := word_ok A (by decide)
  refine paired _ w pfx rfl hw.symm w0 w4 wx (by simp [tileMajor, f0]) ?_ (Option.isNone_iff_eq_none.mp (Bool.and_eq_true_iff.mp hwf).1)
  simp only [decMajor, decTileInt, f0, f1, f2, f3, f4, f5, f6, f7] <;> (try simp [failIf, withScope, port, scope_of, tint_of, tflt_of, fmt_of, cond_of, cmpFmt_of, partOk_eq, tflt_ne, tint_ne]) <;> (repeat' split) <;> first | rfl | (exfalso; omega)

theorem vmin (vd : Reg) (vs1 : Reg) (src2 : Reg) (x : Bool) (ty : TInt) (pfx : Option Pfx) : Statement (.vmin vd vs1 src2 x ty pfx) := by
  intro _ hwf
  have := vd.isLt
  have := vs1.isLt
  have := src2.isLt
  have := b2n_lt x
  have := tint_lt ty
  obtain ⟨w, hw⟩ : ∃ w, w = encV 4 (b2n x) src2 vs1 ty.code vd 18 := ⟨_, rfl⟩
  have A : Asm (4 * 8 + (b2n x)) src2.val vs1.val ty.code vd.val 18 w := ⟨by rw [hw]; first | decide | (simp only [encV] <;> omega), by omega, by omega, by omega, by omega, by omega, by decide⟩
  have f0 : bits w 6 2 = 18 := (b_6_2 A).trans (rfl)
  have f1 : bits w 31 28 = 4 := (b_31_28 A).trans (by omega)
  have f2 : bits w 14 12 = ty.code := (b_14_12 A).trans (by omega)
  have f3 : bits w 27 26 = 0 := (b_27_26 A).trans (by omega)
  have f4 : bit w 25 = x := t_25 A _ (by omega)
  have f5 : rg w 15 = vs1 := r_15_32 A vs1 (by omega)
  have f6 : rg w 20 = src2 := r_20_32 A src2 (by omega)
  have f7 : rg w 7 = vd := r_7_32 A vd (by omega)
  obtain ⟨w0, w4, wx⟩ := word_ok A (by decide)
  refine paired _ w pfx rfl hw.symm w0 w4 wx (by simp [tileMajor, f0]) ?_ (Option.isNone_iff_eq_none.mp (Bool.and_eq_true_iff.mp hwf).1)
  simp only [decMajor, decTileInt, f0, f1, f2, f3, f4, f5, f6, f7] <;> (try simp [failIf, withScope, port, scope_of, tint_of, tflt_of, fmt_of, cond_of, cmpFmt_of, partOk_eq, tflt_ne, tint_ne]) <;> (repeat' split) <;> first | rfl | (exfalso; omega)

theorem vmax (vd : Reg) (vs1 : Reg) (src2 : Reg) (x : Bool) (ty : TInt) (pfx : Option Pfx) : Statement (.vmax vd vs1 src2 x ty pfx) := by
  intro _ hwf
  have := vd.isLt
  have := vs1.isLt
  have := src2.isLt
  have := b2n_lt x
  have := tint_lt ty
  obtain ⟨w, hw⟩ : ∃ w, w = encV 5 (b2n x) src2 vs1 ty.code vd 18 := ⟨_, rfl⟩
  have A : Asm (5 * 8 + (b2n x)) src2.val vs1.val ty.code vd.val 18 w := ⟨by rw [hw]; first | decide | (simp only [encV] <;> omega), by omega, by omega, by omega, by omega, by omega, by decide⟩
  have f0 : bits w 6 2 = 18 := (b_6_2 A).trans (rfl)
  have f1 : bits w 31 28 = 5 := (b_31_28 A).trans (by omega)
  have f2 : bits w 14 12 = ty.code := (b_14_12 A).trans (by omega)
  have f3 : bits w 27 26 = 0 := (b_27_26 A).trans (by omega)
  have f4 : bit w 25 = x := t_25 A _ (by omega)
  have f5 : rg w 15 = vs1 := r_15_32 A vs1 (by omega)
  have f6 : rg w 20 = src2 := r_20_32 A src2 (by omega)
  have f7 : rg w 7 = vd := r_7_32 A vd (by omega)
  obtain ⟨w0, w4, wx⟩ := word_ok A (by decide)
  refine paired _ w pfx rfl hw.symm w0 w4 wx (by simp [tileMajor, f0]) ?_ (Option.isNone_iff_eq_none.mp (Bool.and_eq_true_iff.mp hwf).1)
  simp only [decMajor, decTileInt, f0, f1, f2, f3, f4, f5, f6, f7] <;> (try simp [failIf, withScope, port, scope_of, tint_of, tflt_of, fmt_of, cond_of, cmpFmt_of, partOk_eq, tflt_ne, tint_ne]) <;> (repeat' split) <;> first | rfl | (exfalso; omega)

theorem vand (vd : Reg) (vs1 : Reg) (src2 : Reg) (x : Bool) (ty : TInt) (pfx : Option Pfx) : Statement (.vand vd vs1 src2 x ty pfx) := by
  intro _ hwf
  have := vd.isLt
  have := vs1.isLt
  have := src2.isLt
  have := b2n_lt x
  have := tint_lt ty
  obtain ⟨w, hw⟩ : ∃ w, w = encV 6 (b2n x) src2 vs1 ty.code vd 18 := ⟨_, rfl⟩
  have A : Asm (6 * 8 + (b2n x)) src2.val vs1.val ty.code vd.val 18 w := ⟨by rw [hw]; first | decide | (simp only [encV] <;> omega), by omega, by omega, by omega, by omega, by omega, by decide⟩
  have f0 : bits w 6 2 = 18 := (b_6_2 A).trans (rfl)
  have f1 : bits w 31 28 = 6 := (b_31_28 A).trans (by omega)
  have f2 : bits w 14 12 = ty.code := (b_14_12 A).trans (by omega)
  have f3 : bits w 27 26 = 0 := (b_27_26 A).trans (by omega)
  have f4 : bit w 25 = x := t_25 A _ (by omega)
  have f5 : rg w 15 = vs1 := r_15_32 A vs1 (by omega)
  have f6 : rg w 20 = src2 := r_20_32 A src2 (by omega)
  have f7 : rg w 7 = vd := r_7_32 A vd (by omega)
  obtain ⟨w0, w4, wx⟩ := word_ok A (by decide)
  refine paired _ w pfx rfl hw.symm w0 w4 wx (by simp [tileMajor, f0]) ?_ (Option.isNone_iff_eq_none.mp (Bool.and_eq_true_iff.mp hwf).1)
  simp only [decMajor, decTileInt, f0, f1, f2, f3, f4, f5, f6, f7] <;> (try simp [failIf, withScope, port, scope_of, tint_of, tflt_of, fmt_of, cond_of, cmpFmt_of, partOk_eq, tflt_ne, tint_ne]) <;> (repeat' split) <;> first | rfl | (exfalso; omega)

theorem vor (vd : Reg) (vs1 : Reg) (src2 : Reg) (x : Bool) (ty : TInt) (pfx : Option Pfx) : Statement (.vor vd vs1 src2 x ty pfx) := by
  intro _ hwf
  have := vd.isLt
  have := vs1.isLt
  have := src2.isLt
  have := b2n_lt x
  have := tint_lt ty
  obtain ⟨w, hw⟩ : ∃ w, w = encV 7 (b2n x) src2 vs1 ty.code vd 18 := ⟨_, rfl⟩
  have A : Asm (7 * 8 + (b2n x)) src2.val vs1.val ty.code vd.val 18 w := ⟨by rw [hw]; first | decide | (simp only [encV] <;> omega), by omega, by omega, by omega, by omega, by omega, by decide⟩
  have f0 : bits w 6 2 = 18 := (b_6_2 A).trans (rfl)
  have f1 : bits w 31 28 = 7 := (b_31_28 A).trans (by omega)
  have f2 : bits w 14 12 = ty.code := (b_14_12 A).trans (by omega)
  have f3 : bits w 27 26 = 0 := (b_27_26 A).trans (by omega)
  have f4 : bit w 25 = x := t_25 A _ (by omega)
  have f5 : rg w 15 = vs1 := r_15_32 A vs1 (by omega)
  have f6 : rg w 20 = src2 := r_20_32 A src2 (by omega)
  have f7 : rg w 7 = vd := r_7_32 A vd (by omega)
  obtain ⟨w0, w4, wx⟩ := word_ok A (by decide)
  refine paired _ w pfx rfl hw.symm w0 w4 wx (by simp [tileMajor, f0]) ?_ (Option.isNone_iff_eq_none.mp (Bool.and_eq_true_iff.mp hwf).1)
  simp only [decMajor, decTileInt, f0, f1, f2, f3, f4, f5, f6, f7] <;> (try simp [failIf, withScope, port, scope_of, tint_of, tflt_of, fmt_of, cond_of, cmpFmt_of, partOk_eq, tflt_ne, tint_ne]) <;> (repeat' split) <;> first | rfl | (exfalso; omega)

theorem vxor (vd : Reg) (vs1 : Reg) (src2 : Reg) (x : Bool) (ty : TInt) (pfx : Option Pfx) : Statement (.vxor vd vs1 src2 x ty pfx) := by
  intro _ hwf
  have := vd.isLt
  have := vs1.isLt
  have := src2.isLt
  have := b2n_lt x
  have := tint_lt ty
  obtain ⟨w, hw⟩ : ∃ w, w = encV 8 (b2n x) src2 vs1 ty.code vd 18 := ⟨_, rfl⟩
  have A : Asm (8 * 8 + (b2n x)) src2.val vs1.val ty.code vd.val 18 w := ⟨by rw [hw]; first | decide | (simp only [encV] <;> omega), by omega, by omega, by omega, by omega, by omega, by decide⟩
  have f0 : bits w 6 2 = 18 := (b_6_2 A).trans (rfl)
  have f1 : bits w 31 28 = 8 := (b_31_28 A).trans (by omega)
  have f2 : bits w 14 12 = ty.code := (b_14_12 A).trans (by omega)
  have f3 : bits w 27 26 = 0 := (b_27_26 A).trans (by omega)
  have f4 : bit w 25 = x := t_25 A _ (by omega)
  have f5 : rg w 15 = vs1 := r_15_32 A vs1 (by omega)
  have f6 : rg w 20 = src2 := r_20_32 A src2 (by omega)
  have f7 : rg w 7 = vd := r_7_32 A vd (by omega)
  obtain ⟨w0, w4, wx⟩ := word_ok A (by decide)
  refine paired _ w pfx rfl hw.symm w0 w4 wx (by simp [tileMajor, f0]) ?_ (Option.isNone_iff_eq_none.mp (Bool.and_eq_true_iff.mp hwf).1)
  simp only [decMajor, decTileInt, f0, f1, f2, f3, f4, f5, f6, f7] <;> (try simp [failIf, withScope, port, scope_of, tint_of, tflt_of, fmt_of, cond_of, cmpFmt_of, partOk_eq, tflt_ne, tint_ne]) <;> (repeat' split) <;> first | rfl | (exfalso; omega)

theorem vsll (vd : Reg) (vs1 : Reg) (src2 : Reg) (x : Bool) (ty : TInt) (pfx : Option Pfx) : Statement (.vsll vd vs1 src2 x ty pfx) := by
  intro _ hwf
  have := vd.isLt
  have := vs1.isLt
  have := src2.isLt
  have := b2n_lt x
  have := tint_lt ty
  obtain ⟨w, hw⟩ : ∃ w, w = encV 9 (b2n x) src2 vs1 ty.code vd 18 := ⟨_, rfl⟩
  have A : Asm (9 * 8 + (b2n x)) src2.val vs1.val ty.code vd.val 18 w := ⟨by rw [hw]; first | decide | (simp only [encV] <;> omega), by omega, by omega, by omega, by omega, by omega, by decide⟩
  have f0 : bits w 6 2 = 18 := (b_6_2 A).trans (rfl)
  have f1 : bits w 31 28 = 9 := (b_31_28 A).trans (by omega)
  have f2 : bits w 14 12 = ty.code := (b_14_12 A).trans (by omega)
  have f3 : bits w 27 26 = 0 := (b_27_26 A).trans (by omega)
  have f4 : bit w 25 = x := t_25 A _ (by omega)
  have f5 : rg w 15 = vs1 := r_15_32 A vs1 (by omega)
  have f6 : rg w 20 = src2 := r_20_32 A src2 (by omega)
  have f7 : rg w 7 = vd := r_7_32 A vd (by omega)
  obtain ⟨w0, w4, wx⟩ := word_ok A (by decide)
  refine paired _ w pfx rfl hw.symm w0 w4 wx (by simp [tileMajor, f0]) ?_ (Option.isNone_iff_eq_none.mp (Bool.and_eq_true_iff.mp hwf).1)
  simp only [decMajor, decTileInt, f0, f1, f2, f3, f4, f5, f6, f7] <;> (try simp [failIf, withScope, port, scope_of, tint_of, tflt_of, fmt_of, cond_of, cmpFmt_of, partOk_eq, tflt_ne, tint_ne]) <;> (repeat' split) <;> first | rfl | (exfalso; omega)

theorem vsr (vd : Reg) (vs1 : Reg) (src2 : Reg) (x : Bool) (ty : TInt) (pfx : Option Pfx) : Statement (.vsr vd vs1 src2 x ty pfx) := by
  intro _ hwf
  have := vd.isLt
  have := vs1.isLt
  have := src2.isLt
  have := b2n_lt x
  have := tint_lt ty
  obtain ⟨w, hw⟩ : ∃ w, w = encV 10 (b2n x) src2 vs1 ty.code vd 18 := ⟨_, rfl⟩
  have A : Asm (10 * 8 + (b2n x)) src2.val vs1.val ty.code vd.val 18 w := ⟨by rw [hw]; first | decide | (simp only [encV] <;> omega), by omega, by omega, by omega, by omega, by omega, by decide⟩
  have f0 : bits w 6 2 = 18 := (b_6_2 A).trans (rfl)
  have f1 : bits w 31 28 = 10 := (b_31_28 A).trans (by omega)
  have f2 : bits w 14 12 = ty.code := (b_14_12 A).trans (by omega)
  have f3 : bits w 27 26 = 0 := (b_27_26 A).trans (by omega)
  have f4 : bit w 25 = x := t_25 A _ (by omega)
  have f5 : rg w 15 = vs1 := r_15_32 A vs1 (by omega)
  have f6 : rg w 20 = src2 := r_20_32 A src2 (by omega)
  have f7 : rg w 7 = vd := r_7_32 A vd (by omega)
  obtain ⟨w0, w4, wx⟩ := word_ok A (by decide)
  refine paired _ w pfx rfl hw.symm w0 w4 wx (by simp [tileMajor, f0]) ?_ (Option.isNone_iff_eq_none.mp (Bool.and_eq_true_iff.mp hwf).1)
  simp only [decMajor, decTileInt, f0, f1, f2, f3, f4, f5, f6, f7] <;> (try simp [failIf, withScope, port, scope_of, tint_of, tflt_of, fmt_of, cond_of, cmpFmt_of, partOk_eq, tflt_ne, tint_ne]) <;> (repeat' split) <;> first | rfl | (exfalso; omega)

theorem vabsd (vd : Reg) (vs1 : Reg) (src2 : Reg) (x : Bool) (ty : TInt) (pfx : Option Pfx) : Statement (.vabsd vd vs1 src2 x ty pfx) := by
  intro _ hwf
  have := vd.isLt
  have := vs1.isLt
  have := src2.isLt
  have := b2n_lt x
  have := tint_lt ty
  obtain ⟨w, hw⟩ : ∃ w, w = encV 11 (b2n x) src2 vs1 ty.code vd 18 := ⟨_, rfl⟩
  have A : Asm (11 * 8 + (b2n x)) src2.val vs1.val ty.code vd.val 18 w := ⟨by rw [hw]; first | decide | (simp only [encV] <;> omega), by omega, by omega, by omega, by omega, by omega, by decide⟩
  have f0 : bits w 6 2 = 18 := (b_6_2 A).trans (rfl)
  have f1 : bits w 31 28 = 11 := (b_31_28 A).trans (by omega)
  have f2 : bits w 14 12 = ty.code := (b_14_12 A).trans (by omega)
  have f3 : bits w 27 26 = 0 := (b_27_26 A).trans (by omega)
  have f4 : bit w 25 = x := t_25 A _ (by omega)
  have f5 : rg w 15 = vs1 := r_15_32 A vs1 (by omega)
  have f6 : rg w 20 = src2 := r_20_32 A src2 (by omega)
  have f7 : rg w 7 = vd := r_7_32 A vd (by omega)
  obtain ⟨w0, w4, wx⟩ := word_ok A (by decide)
  refine paired _ w pfx rfl hw.symm w0 w4 wx (by simp [tileMajor, f0]) ?_ (Option.isNone_iff_eq_none.mp (Bool.and_eq_true_iff.mp hwf).1)
  simp only [decMajor, decTileInt, f0, f1, f2, f3, f4, f5, f6, f7] <;> (try simp [failIf, withScope, port, scope_of, tint_of, tflt_of, fmt_of, cond_of, cmpFmt_of, partOk_eq, tflt_ne, tint_ne]) <;> (repeat' split) <;> first | rfl | (exfalso; omega)

theorem vfadd (vd : Reg) (vs1 : Reg) (src2 : Reg) (x : Bool) (ty : TFlt) (pfx : Option Pfx) : Statement (.vfadd vd vs1 src2 x ty pfx) := by
  intro _ hwf
  have := vd.isLt
  have := vs1.isLt
  have := src2.isLt
  have := b2n_lt x
  have := tflt_lt ty
  obtain ⟨w, hw⟩ : ∃ w, w = encV 0 (b2n x) src2 vs1 ty.code vd 19 := ⟨_, rfl⟩
  have A : Asm (0 * 8 + (b2n x)) src2.val vs1.val ty.code vd.val 19 w := ⟨by rw [hw]; first | decide | (simp only [encV] <;> omega), by omega, by omega, by omega, by omega, by omega, by decide⟩
  have f0 : bits w 6 2 = 19 := (b_6_2 A).trans (rfl)
  have f1 : bits w 14 12 = ty.code := (b_14_12 A).trans (by omega)
  have f2 : bits w 31 28 = 0 := (b_31_28 A).trans (by omega)
  have f3 : bits w 27 25 = b2n x := (b_27_25 A).trans (by omega)
  have f4 : bits w 24 20 = src2.val := (b_24_20 A).trans (by omega)
  have f5 : bits w 27 26 = 0 := (b_27_26 A).trans (by omega)
  have f6 : bit w 25 = x := t_25 A _ (by omega)
  have f7 : rg w 15 = vs1 := r_15_32 A vs1 (by omega)
  have f8 : rg w 20 = src2 := r_20_32 A src2 (by omega)
  have f9 : rg w 7 = vd := r_7_32 A vd (by omega)
  have f10 : laOf w = (0 : Fin 16) := r_28_16 A (0 : Fin 16) (by simp <;> omega)
  obtain ⟨w0, w4, wx⟩ := word_ok A (by decide)
  refine paired _ w pfx rfl hw.symm w0 w4 wx (by simp [tileMajor, f0]) ?_ (Option.isNone_iff_eq_none.mp (Bool.and_eq_true_iff.mp hwf).1)
  simp only [decMajor, decTileFp, f0, f1, f2, f3, f4, f5, f6, f7, f8, f9, f10] <;> (try simp [failIf, withScope, port, scope_of, tint_of, tflt_of, fmt_of, cond_of, cmpFmt_of, partOk_eq, tflt_ne, tint_ne]) <;> (repeat' split) <;> first | rfl | (exfalso; omega)

theorem vfsub (vd : Reg) (vs1 : Reg) (src2 : Reg) (x : Bool) (ty : TFlt) (pfx : Option Pfx) : Statement (.vfsub vd vs1 src2 x ty pfx) := by
  intro _ hwf
  have := vd.isLt
  have := vs1.isLt
  have := src2.isLt
  have := b2n_lt x
  have := tflt_lt ty
  obtain ⟨w, hw⟩ : ∃ w, w = encV 1 (b2n x) src2 vs1 ty.code vd 19 := ⟨_, rfl⟩
  have A : Asm (1 * 8 + (b2n x)) src2.val vs1.val ty.code vd.val 19 w := ⟨by rw [hw]; first | decide | (simp only [encV] <;> omega), by omega, by omega, by omega, by omega, by omega, by decide⟩
  have f0 : bits w 6 2 = 19 := (b_6_2 A).trans (rfl)
  have f1 : bits w 14 12 = ty.code := (b_14_12 A).trans (by omega)
  have f2 : bits w 31 28 = 1 := (b_31_28 A).trans (by omega)
  have f3 : bits w 27 25 = b2n x := (b_27_25 A).trans (by omega)
  have f4 : bits w 24 20 = src2.val := (b_24_20 A).trans (by omega)
  have f5 : bits w 27 26 = 0 := (b_27_26 A).trans (by omega)
  have f6 : bit w 25 = x := t_25 A _ (by omega)
  have f7 : rg w 15 = vs1 := r_15_32 A vs1 (by omega)
  have f8 : rg w 20 = src2 := r_20_32 A src2 (by omega)
  have f9 : rg w 7 = vd := r_7_32 A vd (by omega)
  have f10 : laOf w = (1 : Fin 16) := r_28_16 A (1 : Fin 16) (by simp <;> omega)
  obtain ⟨w0, w4, wx⟩ := word_ok A (by decide)
  refine paired _ w pfx rfl hw.symm w0 w4 wx (by simp [tileMajor, f0]) ?_ (Option.isNone_iff_eq_none.mp (Bool.and_eq_true_iff.mp hwf).1)
  simp only [decMajor, decTileFp, f0, f1, f2, f3, f4, f5, f6, f7, f8, f9, f10] <;> (try simp [failIf, withScope, port, scope_of, tint_of, tflt_of, fmt_of, cond_of, cmpFmt_of, partOk_eq, tflt_ne, tint_ne]) <;> (repeat' split) <;> first | rfl | (exfalso; omega)

theorem vfmul (vd : Reg) (vs1 : Reg) (src2 : Reg) (x : Bool) (ty : TFlt) (pfx : Option Pfx) : Statement (.vfmul vd vs1 src2 x ty pfx) := by
  intro _ hwf
  have := vd.isLt
  have := vs1.isLt
  have := src2.isLt
  have := b2n_lt x
  have := tflt_lt ty
  obtain ⟨w, hw⟩ : ∃ w, w = encV 2 (b2n x) src2 vs1 ty.code vd 19 := ⟨_, rfl⟩
  have A : Asm (2 * 8 + (b2n x)) src2.val vs1.val ty.code vd.val 19 w := ⟨by rw [hw]; first | decide | (simp only [encV] <;> omega), by omega, by omega, by omega, by omega, by omega, by decide⟩
  have f0 : bits w 6 2 = 19 := (b_6_2 A).trans (rfl)
  have f1 : bits w 14 12 = ty.code := (b_14_12 A).trans (by omega)
  have f2 : bits w 31 28 = 2 := (b_31_28 A).trans (by omega)
  have f3 : bits w 27 25 = b2n x := (b_27_25 A).trans (by omega)
  have f4 : bits w 24 20 = src2.val := (b_24_20 A).trans (by omega)
  have f5 : bits w 27 26 = 0 := (b_27_26 A).trans (by omega)
  have f6 : bit w 25 = x := t_25 A _ (by omega)
  have f7 : rg w 15 = vs1 := r_15_32 A vs1 (by omega)
  have f8 : rg w 20 = src2 := r_20_32 A src2 (by omega)
  have f9 : rg w 7 = vd := r_7_32 A vd (by omega)
  have f10 : laOf w = (2 : Fin 16) := r_28_16 A (2 : Fin 16) (by simp <;> omega)
  obtain ⟨w0, w4, wx⟩ := word_ok A (by decide)
  refine paired _ w pfx rfl hw.symm w0 w4 wx (by simp [tileMajor, f0]) ?_ (Option.isNone_iff_eq_none.mp (Bool.and_eq_true_iff.mp hwf).1)
  simp only [decMajor, decTileFp, f0, f1, f2, f3, f4, f5, f6, f7, f8, f9, f10] <;> (try simp [failIf, withScope, port, scope_of, tint_of, tflt_of, fmt_of, cond_of, cmpFmt_of, partOk_eq, tflt_ne, tint_ne]) <;> (repeat' split) <;> first | rfl | (exfalso; omega)

theorem vfmin (vd : Reg) (vs1 : Reg) (src2 : Reg) (x : Bool) (ty : TFlt) (pfx : Option Pfx) : Statement (.vfmin vd vs1 src2 x ty pfx) := by
  intro _ hwf
  have := vd.isLt
  have := vs1.isLt
  have := src2.isLt
  have := b2n_lt x
  have := tflt_lt ty
  obtain ⟨w, hw⟩ : ∃ w, w = encV 3 (b2n x) src2 vs1 ty.code vd 19 := ⟨_, rfl⟩
  have A : Asm (3 * 8 + (b2n x)) src2.val vs1.val ty.code vd.val 19 w := ⟨by rw [hw]; first | decide | (simp only [encV] <;> omega), by omega, by omega, by omega, by omega, by omega, by decide⟩
  have f0 : bits w 6 2 = 19 := (b_6_2 A).trans (rfl)
  have f1 : bits w 14 12 = ty.code := (b_14_12 A).trans (by omega)
  have f2 : bits w 31 28 = 3 := (b_31_28 A).trans (by omega)
  have f3 : bits w 27 25 = b2n x := (b_27_25 A).trans (by omega)
  have f4 : bits w 24 20 = src2.val := (b_24_20 A).trans (by omega)
  have f5 : bits w 27 26 = 0 := (b_27_26 A).trans (by omega)
  have f6 : bit w 25 = x := t_25 A _ (by omega)
  have f7 : rg w 15 = vs1 := r_15_32 A vs1 (by omega)
  have f8 : rg w 20 = src2 := r_20_32 A src2 (by omega)
  have f9 : rg w 7 = vd := r_7_32 A vd (by omega)
  have f10 : laOf w = (3 : Fin 16) := r_28_16 A (3 : Fin 16) (by simp <;> omega)
  obtain ⟨w0, w4, wx⟩ := word_ok A (by decide)
  refine paired _ w pfx rfl hw.symm w0 w4 wx (by simp [tileMajor, f0]) ?_ (Option.isNone_iff_eq_none.mp (Bool.and_eq_true_iff.mp hwf).1)
  simp only [decMajor, decTileFp, f0, f1, f2, f3, f4, f5, f6, f7, f8, f9, f10] <;> (try simp [failIf, withScope, port, scope_of, tint_of, tflt_of, fmt_of, cond_of, cmpFmt_of, partOk_eq, tflt_ne, tint_ne]) <;> (repeat' split) <;> first | rfl | (exfalso; omega)

theorem vfmax (vd : Reg) (vs1 : Reg) (src2 : Reg) (x : Bool) (ty : TFlt) (pfx : Option Pfx) : Statement (.vfmax vd vs1 src2 x ty pfx) := by
  intro _ hwf
  have := vd.isLt
  have := vs1.isLt
  have := src2.isLt
  have := b2n_lt x
  have := tflt_lt ty
  obtain ⟨w, hw⟩ : ∃ w, w = encV 4 (b2n x) src2 vs1 ty.code vd 19 := ⟨_, rfl⟩
  have A : Asm (4 * 8 + (b2n x)) src2.val vs1.val ty.code vd.val 19 w := ⟨by rw [hw]; first | decide | (simp only [encV] <;> omega), by omega, by omega, by omega, by omega, by omega, by decide⟩
  have f0 : bits w 6 2 = 19 := (b_6_2 A).trans (rfl)
  have f1 : bits w 14 12 = ty.code := (b_14_12 A).trans (by omega)
  have f2 : bits w 31 28 = 4 := (b_31_28 A).trans (by omega)
  have f3 : bits w 27 25 = b2n x := (b_27_25 A).trans (by omega)
  have f4 : bits w 24 20 = src2.val := (b_24_20 A).trans (by omega)
  have f5 : bits w 27 26 = 0 := (b_27_26 A).trans (by omega)
  have f6 : bit w 25 = x := t_25 A _ (by omega)
  have f7 : rg w 15 = vs1 := r_15_32 A vs1 (by omega)
  have f8 : rg w 20 = src2 := r_20_32 A src2 (by omega)
  have f9 : rg w 7 = vd := r_7_32 A vd (by omega)
  have f10 : laOf w = (4 : Fin 16) := r_28_16 A (4 : Fin 16) (by simp <;> omega)
  obtain ⟨w0, w4, wx⟩ := word_ok A (by decide)
  refine paired _ w pfx rfl hw.symm w0 w4 wx (by simp [tileMajor, f0]) ?_ (Option.isNone_iff_eq_none.mp (Bool.and_eq_true_iff.mp hwf).1)
  simp only [decMajor, decTileFp, f0, f1, f2, f3, f4, f5, f6, f7, f8, f9, f10] <;> (try simp [failIf, withScope, port, scope_of, tint_of, tflt_of, fmt_of, cond_of, cmpFmt_of, partOk_eq, tflt_ne, tint_ne]) <;> (repeat' split) <;> first | rfl | (exfalso; omega)

theorem vfma (vd : Reg) (vs1 : Reg) (src2 : Reg) (x : Bool) (ty : TFlt) (pfx : Option Pfx) : Statement (.vfma vd vs1 src2 x ty pfx) := by
  intro _ hwf
  have := vd.isLt
  have := vs1.isLt
  have := src2.isLt
  have := b2n_lt x
  have := tflt_lt ty
  obtain ⟨w, hw⟩ : ∃ w, w = encV 5 (b2n x) src2 vs1 ty.code vd 19 := ⟨_, rfl⟩
  have A : Asm (5 * 8 + (b2n x)) src2.val vs1.val ty.code vd.val 19 w := ⟨by rw [hw]; first | decide | (simp only [encV] <;> omega), by omega, by omega, by omega, by omega, by omega, by decide⟩
  have f0 : bits w 6 2 = 19 := (b_6_2 A).trans (rfl)
  have f1 : bits w 14 12 = ty.code := (b_14_12 A).trans (by omega)
  have f2 : bits w 31 28 = 5 := (b_31_28 A).trans (by omega)
  have f3 : bits w 27 25 = b2n x := (b_27_25 A).trans (by omega)
  have f4 : bits w 24 20 = src2.val := (b_24_20 A).trans (by omega)
  have f5 : bits w 27 26 = 0 := (b_27_26 A).trans (by omega)
  have f6 : bit w 25 = x := t_25 A _ (by omega)
  have f7 : rg w 15 = vs1 := r_15_32 A vs1 (by omega)
  have f8 : rg w 20 = src2 := r_20_32 A src2 (by omega)
  have f9 : rg w 7 = vd := r_7_32 A vd (by omega)
  have f10 : laOf w = (5 : Fin 16) := r_28_16 A (5 : Fin 16) (by simp <;> omega)
  obtain ⟨w0, w4, wx⟩ := word_ok A (by decide)
  refine paired _ w pfx rfl hw.symm w0 w4 wx (by simp [tileMajor, f0]) ?_ (Option.isNone_iff_eq_none.mp (Bool.and_eq_true_iff.mp hwf).1)
  simp only [decMajor, decTileFp, f0, f1, f2, f3, f4, f5, f6, f7, f8, f9, f10] <;> (try simp [failIf, withScope, port, scope_of, tint_of, tflt_of, fmt_of, cond_of, cmpFmt_of, partOk_eq, tflt_ne, tint_ne]) <;> (repeat' split) <;> first | rfl | (exfalso; omega)

theorem vfms (vd : Reg) (vs1 : Reg) (src2 : Reg) (x : Bool) (ty : TFlt) (pfx : Option Pfx) : Statement (.vfms vd vs1 src2 x ty pfx) := by
  intro _ hwf
  have := vd.isLt
  have := vs1.isLt
  have := src2.isLt
  have := b2n_lt x
  have := tflt_lt ty
  obtain ⟨w, hw⟩ : ∃ w, w = encV 6 (b2n x) src2 vs1 ty.code vd 19 := ⟨_, rfl⟩
  have A : Asm (6 * 8 + (b2n x)) src2.val vs1.val ty.code vd.val 19 w := ⟨by rw [hw]; first | decide | (simp only [encV] <;> omega), by omega, by omega, by omega, by omega, by omega, by decide⟩
  have f0 : bits w 6 2 = 19 := (b_6_2 A).trans (rfl)
  have f1 : bits w 14 12 = ty.code := (b_14_12 A).trans (by omega)
  have f2 : bits w 31 28 = 6 := (b_31_28 A).trans (by omega)
  have f3 : bits w 27 25 = b2n x := (b_27_25 A).trans (by omega)
  have f4 : bits w 24 20 = src2.val := (b_24_20 A).trans (by omega)
  have f5 : bits w 27 26 = 0 := (b_27_26 A).trans (by omega)
  have f6 : bit w 25 = x := t_25 A _ (by omega)
  have f7 : rg w 15 = vs1 := r_15_32 A vs1 (by omega)
  have f8 : rg w 20 = src2 := r_20_32 A src2 (by omega)
  have f9 : rg w 7 = vd := r_7_32 A vd (by omega)
  have f10 : laOf w = (6 : Fin 16) := r_28_16 A (6 : Fin 16) (by simp <;> omega)
  obtain ⟨w0, w4, wx⟩ := word_ok A (by decide)
  refine paired _ w pfx rfl hw.symm w0 w4 wx (by simp [tileMajor, f0]) ?_ (Option.isNone_iff_eq_none.mp (Bool.and_eq_true_iff.mp hwf).1)
  simp only [decMajor, decTileFp, f0, f1, f2, f3, f4, f5, f6, f7, f8, f9, f10] <;> (try simp [failIf, withScope, port, scope_of, tint_of, tflt_of, fmt_of, cond_of, cmpFmt_of, partOk_eq, tflt_ne, tint_ne]) <;> (repeat' split) <;> first | rfl | (exfalso; omega)

theorem vfnma (vd : Reg) (vs1 : Reg) (src2 : Reg) (x : Bool) (ty : TFlt) (pfx : Option Pfx) : Statement (.vfnma vd vs1 src2 x ty pfx) := by
  intro _ hwf
  have := vd.isLt
  have := vs1.isLt
  have := src2.isLt
  have := b2n_lt x
  have := tflt_lt ty
  obtain ⟨w, hw⟩ : ∃ w, w = encV 7 (b2n x) src2 vs1 ty.code vd 19 := ⟨_, rfl⟩
  have A : Asm (7 * 8 + (b2n x)) src2.val vs1.val ty.code vd.val 19 w := ⟨by rw [hw]; first | decide | (simp only [encV] <;> omega), by omega, by omega, by omega, by omega, by omega, by decide⟩
  have f0 : bits w 6 2 = 19 := (b_6_2 A).trans (rfl)
  have f1 : bits w 14 12 = ty.code := (b_14_12 A).trans (by omega)
  have f2 : bits w 31 28 = 7 := (b_31_28 A).trans (by omega)
  have f3 : bits w 27 25 = b2n x := (b_27_25 A).trans (by omega)
  have f4 : bits w 24 20 = src2.val := (b_24_20 A).trans (by omega)
  have f5 : bits w 27 26 = 0 := (b_27_26 A).trans (by omega)
  have f6 : bit w 25 = x := t_25 A _ (by omega)
  have f7 : rg w 15 = vs1 := r_15_32 A vs1 (by omega)
  have f8 : rg w 20 = src2 := r_20_32 A src2 (by omega)
  have f9 : rg w 7 = vd := r_7_32 A vd (by omega)
  have f10 : laOf w = (7 : Fin 16) := r_28_16 A (7 : Fin 16) (by simp <;> omega)
  obtain ⟨w0, w4, wx⟩ := word_ok A (by decide)
  refine paired _ w pfx rfl hw.symm w0 w4 wx (by simp [tileMajor, f0]) ?_ (Option.isNone_iff_eq_none.mp (Bool.and_eq_true_iff.mp hwf).1)
  simp only [decMajor, decTileFp, f0, f1, f2, f3, f4, f5, f6, f7, f8, f9, f10] <;> (try simp [failIf, withScope, port, scope_of, tint_of, tflt_of, fmt_of, cond_of, cmpFmt_of, partOk_eq, tflt_ne, tint_ne]) <;> (repeat' split) <;> first | rfl | (exfalso; omega)

theorem vfabs (vd : Reg) (vs1 : Reg) (ty : TFlt) (pfx : Option Pfx) : Statement (.vfabs vd vs1 ty pfx) := by
  intro _ hwf
  have := vd.isLt
  have := vs1.isLt
  have := tflt_lt ty
  obtain ⟨w, hw⟩ : ∃ w, w = encV 8 0 0 vs1 ty.code vd 19 := ⟨_, rfl⟩
  have A : Asm 64 0 vs1.val ty.code vd.val 19 w := ⟨by rw [hw]; first | decide | (simp only [encV] <;> omega), by decide, by decide, by omega, by omega, by omega, by decide⟩
  have f0 : bits w 6 2 = 19 := (b_6_2 A).trans (rfl)
  have f1 : bits w 14 12 = ty.code := (b_14_12 A).trans (by omega)
  have f2 : bits w 31 28 = 8 := (b_31_28 A).trans (rfl)
  have f3 : bits w 27 25 = 0 := (b_27_25 A).trans (rfl)
  have f4 : bits w 24 20 = 0 := (b_24_20 A).trans (rfl)
  have f5 : bits w 27 26 = 0 := (b_27_26 A).trans (rfl)
  have f6 : bit w 25 = false := t_25 A _ (rfl)
  have f7 : rg w 15 = vs1 := r_15_32 A vs1 (by omega)
  have f8 : rg w 20 = (0 : Fin 32) := r_20_32 A (0 : Fin 32) (rfl)
  have f9 : rg w 7 = vd := r_7_32 A vd (by omega)
  have f10 : laOf w = (8 : Fin 16) := r_28_16 A (8 : Fin 16) (rfl)
  obtain ⟨w0, w4, wx⟩ := word_ok A (by decide)
  refine paired _ w pfx rfl hw.symm w0 w4 wx (by simp [tileMajor, f0]) ?_ (Option.isNone_iff_eq_none.mp (Bool.and_eq_true_iff.mp hwf).1)
  simp only [decMajor, decTileFp, f0, f1, f2, f3, f4, f5, f6, f7, f8, f9, f10] <;> (try simp [failIf, withScope, port, scope_of, tint_of, tflt_of, fmt_of, cond_of, cmpFmt_of, partOk_eq, tflt_ne, tint_ne]) <;> (repeat' split) <;> first | rfl | (exfalso; omega)

theorem vfneg (vd : Reg) (vs1 : Reg) (ty : TFlt) (pfx : Option Pfx) : Statement (.vfneg vd vs1 ty pfx) := by
  intro _ hwf
  have := vd.isLt
  have := vs1.isLt
  have := tflt_lt ty
  obtain ⟨w, hw⟩ : ∃ w, w = encV 9 0 0 vs1 ty.code vd 19 := ⟨_, rfl⟩
  have A : Asm 72 0 vs1.val ty.code vd.val 19 w := ⟨by rw [hw]; first | decide | (simp only [encV] <;> omega), by decide, by decide, by omega, by omega, by omega, by decide⟩
  have f0 : bits w 6 2 = 19 := (b_6_2 A).trans (rfl)
  have f1 : bits w 14 12 = ty.code := (b_14_12 A).trans (by omega)
  have f2 : bits w 31 28 = 9 := (b_31_28 A).trans (rfl)
  have f3 : bits w 27 25 = 0 := (b_27_25 A).trans (rfl)
  have f4 : bits w 24 20 = 0 := (b_24_20 A).trans (rfl)
  have f5 : bits w 27 26 = 0 := (b_27_26 A).trans (rfl)
  have f6 : bit w 25 = false := t_25 A _ (rfl)
  have f7 : rg w 15 = vs1 := r_15_32 A vs1 (by omega)
  have f8 : rg w 20 = (0 : Fin 32) := r_20_32 A (0 : Fin 32) (rfl)
  have f9 : rg w 7 = vd := r_7_32 A vd (by omega)
  have f10 : laOf w = (9 : Fin 16) := r_28_16 A (9 : Fin 16) (rfl)
  obtain ⟨w0, w4, wx⟩ := word_ok A (by decide)
  refine paired _ w pfx rfl hw.symm w0 w4 wx (by simp [tileMajor, f0]) ?_ (Option.isNone_iff_eq_none.mp (Bool.and_eq_true_iff.mp hwf).1)
  simp only [decMajor, decTileFp, f0, f1, f2, f3, f4, f5, f6, f7, f8, f9, f10] <;> (try simp [failIf, withScope, port, scope_of, tint_of, tflt_of, fmt_of, cond_of, cmpFmt_of, partOk_eq, tflt_ne, tint_ne]) <;> (repeat' split) <;> first | rfl | (exfalso; omega)

theorem vscacc (vd : Reg) (vs1 : Reg) (vs2 : Reg) (pfx : Option Pfx) : Statement (.vscacc vd vs1 vs2 pfx) := by
  intro _ hwf
  have := vd.isLt
  have := vs1.isLt
  have := vs2.isLt
  obtain ⟨w, hw⟩ : ∃ w, w = encV 10 0 vs2 vs1 0 vd 19 := ⟨_, rfl⟩
  have A : Asm 80 vs2.val vs1.val 0 vd.val 19 w := ⟨by rw [hw]; first | decide | (simp only [encV] <;> omega), by decide, by omega, by omega, by decide, by omega, by decide⟩
  have f0 : bits w 6 2 = 19 := (b_6_2 A).trans (rfl)
  have f1 : bits w 14 12 = 0 := (b_14_12 A).trans (rfl)
  have f2 : bits w 31 28 = 10 := (b_31_28 A).trans (rfl)
  have f3 : bits w 27 25 = 0 := (b_27_25 A).trans (rfl)
  have f4 : bits w 24 20 = vs2.val := (b_24_20 A).trans (by omega)
  have f5 : bits w 27 26 = 0 := (b_27_26 A).trans (rfl)
  have f6 : bit w 25 = false := t_25 A _ (rfl)
  have f7 : rg w 15 = vs1 := r_15_32 A vs1 (by omega)
  have f8 : rg w 20 = vs2 := r_20_32 A vs2 (by omega)
  have f9 : rg w 7 = vd := r_7_32 A vd (by omega)
  have f10 : laOf w = (10 : Fin 16) := r_28_16 A (10 : Fin 16) (rfl)
  obtain ⟨w0, w4, wx⟩ := word_ok A (by decide)
  refine paired _ w pfx rfl hw.symm w0 w4 wx (by simp [tileMajor, f0]) ?_ (Option.isNone_iff_eq_none.mp (Bool.and_eq_true_iff.mp hwf).1)
  simp only [decMajor, decTileFp, f0, f1, f2, f3, f4, f5, f6, f7, f8, f9, f10] <;> (try simp [failIf, withScope, port, scope_of, tint_of, tflt_of, fmt_of, cond_of, cmpFmt_of, partOk_eq, tflt_ne, tint_ne]) <;> (repeat' split) <;> first | rfl | (exfalso; omega)

theorem vfdivF32 (vd : Reg) (vs1 : Reg) (vs2 : Reg) (la : La) (pfx : Option Pfx) : Statement (.vfdivF32 vd vs1 vs2 la pfx) := by
  intro _ hwf
  have h2 : (plain vd) = true := (Bool.and_eq_true_iff.mp hwf).2
  have := vd.isLt
  have := vs1.isLt
  have := vs2.isLt
  have := la.isLt
  obtain ⟨w, hw⟩ : ∃ w, w = encV la.val 0 vs2 vs1 7 vd 19 := ⟨_, rfl⟩
  have A : Asm (la.val * 8 + 0) vs2.val vs1.val 7 vd.val 19 w := ⟨by rw [hw]; first | decide | (simp only [encV] <;> omega), by omega, by omega, by omega, by decide, by omega, by decide⟩
  have f0 : bits w 6 2 = 19 := (b_6_2 A).trans (rfl)
  have f1 : bits w 14 12 = 7 := (b_14_12 A).trans (rfl)
  have f2 : bits w 31 28 = la.val := (b_31_28 A).trans (by omega)
  have f3 : bits w 27 25 = 0 := (b_27_25 A).trans (by omega)
  have f4 : bits w 24 20 = vs2.val := (b_24_20 A).trans (by omega)
  have f5 : bits w 27 26 = 0 := (b_27_26 A).trans (by omega)
  have f6 : bit w 25 = false := t_25 A _ (by simp only [b2n_true, b2n_false]; omega)
  have f7 : rg w 15 = vs1 := r_15_32 A vs1 (by omega)
  have f8 : rg w 20 = vs2 := r_20_32 A vs2 (by omega)
  have f9 : rg w 7 = vd := r_7_32 A vd (by omega)
  have f10 : laOf w = la := r_28_16 A la (by omega)
  obtain ⟨w0, w4, wx⟩ := word_ok A (by decide)
  refine paired _ w pfx rfl hw.symm w0 w4 wx (by simp [tileMajor, f0]) ?_ (Option.isNone_iff_eq_none.mp (Bool.and_eq_true_iff.mp hwf).1)
  try simp [plain] at h2
  simp only [decMajor, decTileFp, f0, f1, f2, f3, f4, f5, f6, f7, f8, f9, f10] <;> (try simp [failIf, withScope, port, scope_of, tint_of, tflt_of, fmt_of, cond_of, cmpFmt_of, partOk_eq, tflt_ne, tint_ne, h2]) <;> (repeat' split) <;> first | rfl | (exfalso; omega)

theorem vfsqrtF32 (vd : Reg) (vs1 : Reg) (la : La) (pfx : Option Pfx) : Statement (.vfsqrtF32 vd vs1 la pfx) := by
  intro _ hwf
  have h2 : (plain vd) = true := (Bool.and_eq_true_iff.mp hwf).2
  have := vd.isLt
  have := vs1.isLt
  have := la.isLt
  obtain ⟨w, hw⟩ : ∃ w, w = encV la.val 1 0 vs1 7 vd 19 := ⟨_, rfl⟩
  have A : Asm (la.val * 8 + 1) 0 vs1.val 7 vd.val 19 w := ⟨by rw [hw]; first | decide | (simp only [encV] <;> omega), by omega, by decide, by omega, by decide, by omega, by decide⟩
  have f0 : bits w 6 2 = 19 := (b_6_2 A).trans (rfl)
  have f1 : bits w 14 12 = 7 := (b_14_12 A).trans (rfl)
  have f2 : bits w 31 28 = la.val := (b_31_28 A).trans (by omega)
  have f3 : bits w 27 25 = 1 := (b_27_25 A).trans (by omega)
  have f4 : bits w 24 20 = 0 := (b_24_20 A).trans (rfl)
  have f5 : bits w 27 26 = 0 := (b_27_26 A).trans (by omega)
  have f6 : bit w 25 = true := t_25 A _ (by simp only [b2n_true, b2n_false]; omega)
  have f7 : rg w 15 = vs1 := r_15_32 A vs1 (by omega)
  have f8 : rg w 20 = (0 : Fin 32) := r_20_32 A (0 : Fin 32) (rfl)
  have f9 : rg w 7 = vd := r_7_32 A vd (by omega)
  have f10 : laOf w = la := r_28_16 A la (by omega)
  obtain ⟨w0, w4, wx⟩ := word_ok A (by decide)
  refine paired _ w pfx rfl hw.symm w0 w4 wx (by simp [tileMajor, f0]) ?_ (Option.isNone_iff_eq_none.mp (Bool.and_eq_true_iff.mp hwf).1)
  try simp [plain] at h2
  simp only [decMajor, decTileFp, f0, f1, f2, f3, f4, f5, f6, f7, f8, f9, f10] <;> (try simp [failIf, withScope, port, scope_of, tint_of, tflt_of, fmt_of, cond_of, cmpFmt_of, partOk_eq, tflt_ne, tint_ne, h2]) <;> (repeat' split) <;> first | rfl | (exfalso; omega)

theorem vfdivBf16 (vd : Reg) (vs1 : Reg) (vs2 : Reg) (la : La) (pfx : Option Pfx) : Statement (.vfdivBf16 vd vs1 vs2 la pfx) := by
  intro _ hwf
  have h2 : (plain vd) = true := (Bool.and_eq_true_iff.mp hwf).2
  have := vd.isLt
  have := vs1.isLt
  have := vs2.isLt
  have := la.isLt
  obtain ⟨w, hw⟩ : ∃ w, w = encV la.val 2 vs2 vs1 7 vd 19 := ⟨_, rfl⟩
  have A : Asm (la.val * 8 + 2) vs2.val vs1.val 7 vd.val 19 w := ⟨by rw [hw]; first | decide | (simp only [encV] <;> omega), by omega, by omega, by omega, by decide, by omega, by decide⟩
  have f0 : bits w 6 2 = 19 := (b_6_2 A).trans (rfl)
  have f1 : bits w 14 12 = 7 := (b_14_12 A).trans (rfl)
  have f2 : bits w 31 28 = la.val := (b_31_28 A).trans (by omega)
  have f3 : bits w 27 25 = 2 := (b_27_25 A).trans (by omega)
  have f4 : bits w 24 20 = vs2.val := (b_24_20 A).trans (by omega)
  have f5 : bits w 27 26 = 1 := (b_27_26 A).trans (by omega)
  have f6 : bit w 25 = false := t_25 A _ (by simp only [b2n_true, b2n_false]; omega)
  have f7 : rg w 15 = vs1 := r_15_32 A vs1 (by omega)
  have f8 : rg w 20 = vs2 := r_20_32 A vs2 (by omega)
  have f9 : rg w 7 = vd := r_7_32 A vd (by omega)
  have f10 : laOf w = la := r_28_16 A la (by omega)
  obtain ⟨w0, w4, wx⟩ := word_ok A (by decide)
  refine paired _ w pfx rfl hw.symm w0 w4 wx (by simp [tileMajor, f0]) ?_ (Option.isNone_iff_eq_none.mp (Bool.and_eq_true_iff.mp hwf).1)
  try simp [plain] at h2
  simp only [decMajor, decTileFp, f0, f1, f2, f3, f4, f5, f6, f7, f8, f9, f10] <;> (try simp [failIf, withScope, port, scope_of, tint_of, tflt_of, fmt_of, cond_of, cmpFmt_of, partOk_eq, tflt_ne, tint_ne, h2]) <;> (repeat' split) <;> first | rfl | (exfalso; omega)

theorem vfsqrtBf16 (vd : Reg) (vs1 : Reg) (la : La) (pfx : Option Pfx) : Statement (.vfsqrtBf16 vd vs1 la pfx) := by
  intro _ hwf
  have h2 : (plain vd) = true := (Bool.and_eq_true_iff.mp hwf).2
  have := vd.isLt
  have := vs1.isLt
  have := la.isLt
  obtain ⟨w, hw⟩ : ∃ w, w = encV la.val 3 0 vs1 7 vd 19 := ⟨_, rfl⟩
  have A : Asm (la.val * 8 + 3) 0 vs1.val 7 vd.val 19 w := ⟨by rw [hw]; first | decide | (simp only [encV] <;> omega), by omega, by decide, by omega, by decide, by omega, by decide⟩
  have f0 : bits w 6 2 = 19 := (b_6_2 A).trans (rfl)
  have f1 : bits w 14 12 = 7 := (b_14_12 A).trans (rfl)
  have f2 : bits w 31 28 = la.val := (b_31_28 A).trans (by omega)
  have f3 : bits w 27 25 = 3 := (b_27_25 A).trans (by omega)
  have f4 : bits w 24 20 = 0 := (b_24_20 A).trans (rfl)
  have f5 : bits w 27 26 = 1 := (b_27_26 A).trans (by omega)
  have f6 : bit w 25 = true := t_25 A _ (by simp only [b2n_true, b2n_false]; omega)
  have f7 : rg w 15 = vs1 := r_15_32 A vs1 (by omega)
  have f8 : rg w 20 = (0 : Fin 32) := r_20_32 A (0 : Fin 32) (rfl)
  have f9 : rg w 7 = vd := r_7_32 A vd (by omega)
  have f10 : laOf w = la := r_28_16 A la (by omega)
  obtain ⟨w0, w4, wx⟩ := word_ok A (by decide)
  refine paired _ w pfx rfl hw.symm w0 w4 wx (by simp [tileMajor, f0]) ?_ (Option.isNone_iff_eq_none.mp (Bool.and_eq_true_iff.mp hwf).1)
  try simp [plain] at h2
  simp only [decMajor, decTileFp, f0, f1, f2, f3, f4, f5, f6, f7, f8, f9, f10] <;> (try simp [failIf, withScope, port, scope_of, tint_of, tflt_of, fmt_of, cond_of, cmpFmt_of, partOk_eq, tflt_ne, tint_ne, h2]) <;> (repeat' split) <;> first | rfl | (exfalso; omega)

theorem vfdivF16 (vd : Reg) (vs1 : Reg) (vs2 : Reg) (la : La) (pfx : Option Pfx) : Statement (.vfdivF16 vd vs1 vs2 la pfx) := by
  intro _ hwf
  have h2 : (plain vd) = true := (Bool.and_eq_true_iff.mp hwf).2
  have := vd.isLt
  have := vs1.isLt
  have := vs2.isLt
  have := la.isLt
  obtain ⟨w, hw⟩ : ∃ w, w = encV la.val 4 vs2 vs1 7 vd 19 := ⟨_, rfl⟩
  have A : Asm (la.val * 8 + 4) vs2.val vs1.val 7 vd.val 19 w := ⟨by rw [hw]; first | decide | (simp only [encV] <;> omega), by omega, by omega, by omega, by decide, by omega, by decide⟩
  have f0 : bits w 6 2 = 19 := (b_6_2 A).trans (rfl)
  have f1 : bits w 14 12 = 7 := (b_14_12 A).trans (rfl)
  have f2 : bits w 31 28 = la.val := (b_31_28 A).trans (by omega)
  have f3 : bits w 27 25 = 4 := (b_27_25 A).trans (by omega)
  have f4 : bits w 24 20 = vs2.val := (b_24_20 A).trans (by omega)
  have f5 : bits w 27 26 = 2 := (b_27_26 A).trans (by omega)
  have f6 : bit w 25 = false := t_25 A _ (by simp only [b2n_true, b2n_false]; omega)
  have f7 : rg w 15 = vs1 := r_15_32 A vs1 (by omega)
  have f8 : rg w 20 = vs2 := r_20_32 A vs2 (by omega)
  have f9 : rg w 7 = vd := r_7_32 A vd (by omega)
  have f10 : laOf w = la := r_28_16 A la (by omega)
  obtain ⟨w0, w4, wx⟩ := word_ok A (by decide)
  refine paired _ w pfx rfl hw.symm w0 w4 wx (by simp [tileMajor, f0]) ?_ (Option.isNone_iff_eq_none.mp (Bool.and_eq_true_iff.mp hwf).1)
  try simp [plain] at h2
  simp only [decMajor, decTileFp, f0, f1, f2, f3, f4, f5, f6, f7, f8, f9, f10] <;> (try simp [failIf, withScope, port, scope_of, tint_of, tflt_of, fmt_of, cond_of, cmpFmt_of, partOk_eq, tflt_ne, tint_ne, h2]) <;> (repeat' split) <;> first | rfl | (exfalso; omega)

theorem vfsqrtF16 (vd : Reg) (vs1 : Reg) (la : La) (pfx : Option Pfx) : Statement (.vfsqrtF16 vd vs1 la pfx) := by
  intro _ hwf
  have h2 : (plain vd) = true := (Bool.and_eq_true_iff.mp hwf).2
  have := vd.isLt
  have := vs1.isLt
  have := la.isLt
  obtain ⟨w, hw⟩ : ∃ w, w = encV la.val 5 0 vs1 7 vd 19 := ⟨_, rfl⟩
  have A : Asm (la.val * 8 + 5) 0 vs1.val 7 vd.val 19 w := ⟨by rw [hw]; first | decide | (simp only [encV] <;> omega), by omega, by decide, by omega, by decide, by omega, by decide⟩
  have f0 : bits w 6 2 = 19 := (b_6_2 A).trans (rfl)
  have f1 : bits w 14 12 = 7 := (b_14_12 A).trans (rfl)
  have f2 : bits w 31 28 = la.val := (b_31_28 A).trans (by omega)
  have f3 : bits w 27 25 = 5 := (b_27_25 A).trans (by omega)
  have f4 : bits w 24 20 = 0 := (b_24_20 A).trans (rfl)
  have f5 : bits w 27 26 = 2 := (b_27_26 A).trans (by omega)
  have f6 : bit w 25 = true := t_25 A _ (by simp only [b2n_true, b2n_false]; omega)
  have f7 : rg w 15 = vs1 := r_15_32 A vs1 (by omega)
  have f8 : rg w 20 = (0 : Fin 32) := r_20_32 A (0 : Fin 32) (rfl)
  have f9 : rg w 7 = vd := r_7_32 A vd (by omega)
  have f10 : laOf w = la := r_28_16 A la (by omega)
  obtain ⟨w0, w4, wx⟩ := word_ok A (by decide)
  refine paired _ w pfx rfl hw.symm w0 w4 wx (by simp [tileMajor, f0]) ?_ (Option.isNone_iff_eq_none.mp (Bool.and_eq_true_iff.mp hwf).1)
  try simp [plain] at h2
  simp only [decMajor, decTileFp, f0, f1, f2, f3, f4, f5, f6, f7, f8, f9, f10] <;> (try simp [failIf, withScope, port, scope_of, tint_of, tflt_of, fmt_of, cond_of, cmpFmt_of, partOk_eq, tflt_ne, tint_ne, h2]) <;> (repeat' split) <;> first | rfl | (exfalso; omega)

theorem vexp2 (vd : Reg) (vs1 : Reg) (la : La) (pfx : Option Pfx) : Statement (.vexp2 vd vs1 la pfx) := by
  intro _ hwf
  have h2 : (plain vd) = true := (Bool.and_eq_true_iff.mp hwf).2
  have := vd.isLt
  have := vs1.isLt
  have := la.isLt
  obtain ⟨w, hw⟩ : ∃ w, w = encV la.val 0 0 vs1 7 vd 20 := ⟨_, rfl⟩
  have A : Asm (la.val * 8 + 0) 0 vs1.val 7 vd.val 20 w := ⟨by rw [hw]; first | decide | (simp only [encV] <;> omega), by omega, by decide, by omega, by decide, by omega, by decide⟩
  have f0 : bits w 6 2 = 20 := (b_6_2 A).trans (rfl)
  have f1 : bits w 14 12 = 7 := (b_14_12 A).trans (rfl)
  have f2 : bits w 31 28 = la.val := (b_31_28 A).trans (by omega)
  have f3 : bits w 27 25 = 0 := (b_27_25 A).trans (by omega)
  have f4 : bits w 19 15 = vs1.val := (b_19_15 A).trans (by omega)
  have f5 : bits w 24 20 = 0 := (b_24_20 A).trans (rfl)
  have f6 : bits w 23 20 = 0 := (b_23_20 A).trans (rfl)
  have f7 : bits w 24 24 = 0 := (b_24_24 A).trans (rfl)
  have f8 : bit w 24 = false := t_24 A _ (rfl)
  have f9 : rg w 15 = vs1 := r_15_32 A vs1 (by omega)
  have f10 : rg w 20 = (0 : Fin 32) := r_20_32 A (0 : Fin 32) (rfl)
  have f11 : rg w 7 = vd := r_7_32 A vd (by omega)
  have f12 : laOf w = la := r_28_16 A la (by omega)
  have f13 : Fin.ofNat 8 (w / 2 ^ 25) = (0 : Fin 8) := r_25_8 A (0 : Fin 8) (by simp <;> omega)
  obtain ⟨w0, w4, wx⟩ := word_ok A (by decide)
  refine paired _ w pfx rfl hw.symm w0 w4 wx (by simp [tileMajor, f0]) ?_ (Option.isNone_iff_eq_none.mp (Bool.and_eq_true_iff.mp hwf).1)
  try simp [plain] at h2
  simp only [decMajor, decTileMisc, f0, f1, f2, f3, f4, f5, f6, f7, f8, f9, f10, f11, f12, f13] <;> (try simp [failIf, withScope, port, scope_of, tint_of, tflt_of, fmt_of, cond_of, cmpFmt_of, partOk_eq, tflt_ne, tint_ne, h2]) <;> (repeat' split) <;> first | rfl | (exfalso; omega)

theorem vlog2 (vd : Reg) (vs1 : Reg) (la : La) (pfx : Option Pfx) : Statement (.vlog2 vd vs1 la pfx) := by
  intro _ hwf
  have h2 : (plain vd) = true := (Bool.and_eq_true_iff.mp hwf).2
  have := vd.isLt
  have := vs1.isLt
  have := la.isLt
  obtain ⟨w, hw⟩ : ∃ w, w = encV la.val 1 0 vs1 7 vd 20 := ⟨_, rfl⟩
  have A : Asm (la.val * 8 + 1) 0 vs1.val 7 vd.val 20 w := ⟨by rw [hw]; first | decide | (simp only [encV] <;> omega), by omega, by decide, by omega, by decide, by omega, by decide⟩
  have f0 : bits w 6 2 = 20 := (b_6_2 A).trans (rfl)
  have f1 : bits w 14 12 = 7 := (b_14_12 A).trans (rfl)
  have f2 : bits w 31 28 = la.val := (b_31_28 A).trans (by omega)
  have f3 : bits w 27 25 = 1 := (b_27_25 A).trans (by omega)
  have f4 : bits w 19 15 = vs1.val := (b_19_15 A).trans (by omega)
  have f5 : bits w 24 20 = 0 := (b_24_20 A).trans (rfl)
  have f6 : bits w 23 20 = 0 := (b_23_20 A).trans (rfl)
  have f7 : bits w 24 24 = 0 := (b_24_24 A).trans (rfl)
  have f8 : bit w 24 = false := t_24 A _ (rfl)
  have f9 : rg w 15 = vs1 := r_15_32 A vs1 (by omega)
  have f10 : rg w 20 = (0 : Fin 32) := r_20_32 A (0 : Fin 32) (rfl)
  have f11 : rg w 7 = vd := r_7_32 A vd (by omega)
  have f12 : laOf w = la := r_28_16 A la (by omega)
  have f13 : Fin.ofNat 8 (w / 2 ^ 25) = (1 : Fin 8) := r_25_8 A (1 : Fin 8) (by simp <;> omega)
  obtain ⟨w0, w4, wx⟩ := word_ok A (by decide)
  refine paired _ w pfx rfl hw.symm w0 w4 wx (by simp [tileMajor, f0]) ?_ (Option.isNone_iff_eq_none.mp (Bool.and_eq_true_iff.mp hwf).1)
  try simp [plain] at h2
  simp only [decMajor, decTileMisc, f0, f1, f2, f3, f4, f5, f6, f7, f8, f9, f10, f11, f12, f13] <;> (try simp [failIf, withScope, port, scope_of, tint_of, tflt_of, fmt_of, cond_of, cmpFmt_of, partOk_eq, tflt_ne, tint_ne, h2]) <;> (repeat' split) <;> first | rfl | (exfalso; omega)

theorem vrcp (vd : Reg) (vs1 : Reg) (la : La) (pfx : Option Pfx) : Statement (.vrcp vd vs1 la pfx) := by
  intro _ hwf
  have h2 : (plain vd) = true := (Bool.and_eq_true_iff.mp hwf).2
  have := vd.isLt
  have := vs1.isLt
  have := la.isLt
  obtain ⟨w, hw⟩ : ∃ w, w = encV la.val 2 0 vs1 7 vd 20 := ⟨_, rfl⟩
  have A : Asm (la.val * 8 + 2) 0 vs1.val 7 vd.val 20 w := ⟨by rw [hw]; first | decide | (simp only [encV] <;> omega), by omega, by decide, by omega, by decide, by omega, by decide⟩
  have f0 : bits w 6 2 = 20 := (b_6_2 A).trans (rfl)
  have f1 : bits w 14 12 = 7 := (b_14_12 A).trans (rfl)
  have f2 : bits w 31 28 = la.val := (b_31_28 A).trans (by omega)
  have f3 : bits w 27 25 = 2 := (b_27_25 A).trans (by omega)
  have f4 : bits w 19 15 = vs1.val := (b_19_15 A).trans (by omega)
  have f5 : bits w 24 20 = 0 := (b_24_20 A).trans (rfl)
  have f6 : bits w 23 20 = 0 := (b_23_20 A).trans (rfl)
  have f7 : bits w 24 24 = 0 := (b_24_24 A).trans (rfl)
  have f8 : bit w 24 = false := t_24 A _ (rfl)
  have f9 : rg w 15 = vs1 := r_15_32 A vs1 (by omega)
  have f10 : rg w 20 = (0 : Fin 32) := r_20_32 A (0 : Fin 32) (rfl)
  have f11 : rg w 7 = vd := r_7_32 A vd (by omega)
  have f12 : laOf w = la := r_28_16 A la (by omega)
  have f13 : Fin.ofNat 8 (w / 2 ^ 25) = (2 : Fin 8) := r_25_8 A (2 : Fin 8) (by simp <;> omega)
  obtain ⟨w0, w4, wx⟩ := word_ok A (by decide)
  refine paired _ w pfx rfl hw.symm w0 w4 wx (by simp [tileMajor, f0]) ?_ (Option.isNone_iff_eq_none.mp (Bool.and_eq_true_iff.mp hwf).1)
  try simp [plain] at h2
  simp only [decMajor, decTileMisc, f0, f1, f2, f3, f4, f5, f6, f7, f8, f9, f10, f11, f12, f13] <;> (try simp [failIf, withScope, port, scope_of, tint_of, tflt_of, fmt_of, cond_of, cmpFmt_of, partOk_eq, tflt_ne, tint_ne, h2]) <;> (repeat' split) <;> first | rfl | (exfalso; omega)

theorem vrsqrt (vd : Reg) (vs1 : Reg) (la : La) (pfx : Option Pfx) : Statement (.vrsqrt vd vs1 la pfx) := by
  intro _ hwf
  have h2 : (plain vd) = true := (Bool.and_eq_true_iff.mp hwf).2
  have := vd.isLt
  have := vs1.isLt
  have := la.isLt
  obtain ⟨w, hw⟩ : ∃ w, w = encV la.val 3 0 vs1 7 vd 20 := ⟨_, rfl⟩
  have A : Asm (la.val * 8 + 3) 0 vs1.val 7 vd.val 20 w := ⟨by rw [hw]; first | decide | (simp only [encV] <;> omega), by omega, by decide, by omega, by decide, by omega, by decide⟩
  have f0 : bits w 6 2 = 20 := (b_6_2 A).trans (rfl)
  have f1 : bits w 14 12 = 7 := (b_14_12 A).trans (rfl)
  have f2 : bits w 31 28 = la.val := (b_31_28 A).trans (by omega)
  have f3 : bits w 27 25 = 3 := (b_27_25 A).trans (by omega)
  have f4 : bits w 19 15 = vs1.val := (b_19_15 A).trans (by omega)
  have f5 : bits w 24 20 = 0 := (b_24_20 A).trans (rfl)
  have f6 : bits w 23 20 = 0 := (b_23_20 A).trans (rfl)
  have f7 : bits w 24 24 = 0 := (b_24_24 A).trans (rfl)
  have f8 : bit w 24 = false := t_24 A _ (rfl)
  have f9 : rg w 15 = vs1 := r_15_32 A vs1 (by omega)
  have f10 : rg w 20 = (0 : Fin 32) := r_20_32 A (0 : Fin 32) (rfl)
  have f11 : rg w 7 = vd := r_7_32 A vd (by omega)
  have f12 : laOf w = la := r_28_16 A la (by omega)
  have f13 : Fin.ofNat 8 (w / 2 ^ 25) = (3 : Fin 8) := r_25_8 A (3 : Fin 8) (by simp <;> omega)
  obtain ⟨w0, w4, wx⟩ := word_ok A (by decide)
  refine paired _ w pfx rfl hw.symm w0 w4 wx (by simp [tileMajor, f0]) ?_ (Option.isNone_iff_eq_none.mp (Bool.and_eq_true_iff.mp hwf).1)
  try simp [plain] at h2
  simp only [decMajor, decTileMisc, f0, f1, f2, f3, f4, f5, f6, f7, f8, f9, f10, f11, f12, f13] <;> (try simp [failIf, withScope, port, scope_of, tint_of, tflt_of, fmt_of, cond_of, cmpFmt_of, partOk_eq, tflt_ne, tint_ne, h2]) <;> (repeat' split) <;> first | rfl | (exfalso; omega)

theorem vsqrt (vd : Reg) (vs1 : Reg) (la : La) (pfx : Option Pfx) : Statement (.vsqrt vd vs1 la pfx) := by
  intro _ hwf
  have h2 : (plain vd) = true := (Bool.and_eq_true_iff.mp hwf).2
  have := vd.isLt
  have := vs1.isLt
  have := la.isLt
  obtain ⟨w, hw⟩ : ∃ w, w = encV la.val 4 0 vs1 7 vd 20 := ⟨_, rfl⟩
  have A : Asm (la.val * 8 + 4) 0 vs1.val 7 vd.val 20 w := ⟨by rw [hw]; first | decide | (simp only [encV] <;> omega), by omega, by decide, by omega, by decide, by omega, by decide⟩
  have f0 : bits w 6 2 = 20 := (b_6_2 A).trans (rfl)
  have f1 : bits w 14 12 = 7 := (b_14_12 A).trans (rfl)
  have f2 : bits w 31 28 = la.val := (b_31_28 A).trans (by omega)
  have f3 : bits w 27 25 = 4 := (b_27_25 A).trans (by omega)
  have f4 : bits w 19 15 = vs1.val := (b_19_15 A).trans (by omega)
  have f5 : bits w 24 20 = 0 := (b_24_20 A).trans (rfl)
  have f6 : bits w 23 20 = 0 := (b_23_20 A).trans (rfl)
  have f7 : bits w 24 24 = 0 := (b_24_24 A).trans (rfl)
  have f8 : bit w 24 = false := t_24 A _ (rfl)
  have f9 : rg w 15 = vs1 := r_15_32 A vs1 (by omega)
  have f10 : rg w 20 = (0 : Fin 32) := r_20_32 A (0 : Fin 32) (rfl)
  have f11 : rg w 7 = vd := r_7_32 A vd (by omega)
  have f12 : laOf w = la := r_28_16 A la (by omega)
  have f13 : Fin.ofNat 8 (w / 2 ^ 25) = (4 : Fin 8) := r_25_8 A (4 : Fin 8) (by simp <;> omega)
  obtain ⟨w0, w4, wx⟩ := word_ok A (by decide)
  refine paired _ w pfx rfl hw.symm w0 w4 wx (by simp [tileMajor, f0]) ?_ (Option.isNone_iff_eq_none.mp (Bool.and_eq_true_iff.mp hwf).1)
  try simp [plain] at h2
  simp only [decMajor, decTileMisc, f0, f1, f2, f3, f4, f5, f6, f7, f8, f9, f10, f11, f12, f13] <;> (try simp [failIf, withScope, port, scope_of, tint_of, tflt_of, fmt_of, cond_of, cmpFmt_of, partOk_eq, tflt_ne, tint_ne, h2]) <;> (repeat' split) <;> first | rfl | (exfalso; omega)

theorem vtanh (vd : Reg) (vs1 : Reg) (la : La) (pfx : Option Pfx) : Statement (.vtanh vd vs1 la pfx) := by
  intro _ hwf
  have h2 : (plain vd) = true := (Bool.and_eq_true_iff.mp hwf).2
  have := vd.isLt
  have := vs1.isLt
  have := la.isLt
  obtain ⟨w, hw⟩ : ∃ w, w = encV la.val 5 0 vs1 7 vd 20 := ⟨_, rfl⟩
  have A : Asm (la.val * 8 + 5) 0 vs1.val 7 vd.val 20 w := ⟨by rw [hw]; first | decide | (simp only [encV] <;> omega), by omega, by decide, by omega, by decide, by omega, by decide⟩
  have f0 : bits w 6 2 = 20 := (b_6_2 A).trans (rfl)
  have f1 : bits w 14 12 = 7 := (b_14_12 A).trans (rfl)
  have f2 : bits w 31 28 = la.val := (b_31_28 A).trans (by omega)
  have f3 : bits w 27 25 = 5 := (b_27_25 A).trans (by omega)
  have f4 : bits w 19 15 = vs1.val := (b_19_15 A).trans (by omega)
  have f5 : bits w 24 20 = 0 := (b_24_20 A).trans (rfl)
  have f6 : bits w 23 20 = 0 := (b_23_20 A).trans (rfl)
  have f7 : bits w 24 24 = 0 := (b_24_24 A).trans (rfl)
  have f8 : bit w 24 = false := t_24 A _ (rfl)
  have f9 : rg w 15 = vs1 := r_15_32 A vs1 (by omega)
  have f10 : rg w 20 = (0 : Fin 32) := r_20_32 A (0 : Fin 32) (rfl)
  have f11 : rg w 7 = vd := r_7_32 A vd (by omega)
  have f12 : laOf w = la := r_28_16 A la (by omega)
  have f13 : Fin.ofNat 8 (w / 2 ^ 25) = (5 : Fin 8) := r_25_8 A (5 : Fin 8) (by simp <;> omega)
  obtain ⟨w0, w4, wx⟩ := word_ok A (by decide)
  refine paired _ w pfx rfl hw.symm w0 w4 wx (by simp [tileMajor, f0]) ?_ (Option.isNone_iff_eq_none.mp (Bool.and_eq_true_iff.mp hwf).1)
  try simp [plain] at h2
  simp only [decMajor, decTileMisc, f0, f1, f2, f3, f4, f5, f6, f7, f8, f9, f10, f11, f12, f13] <;> (try simp [failIf, withScope, port, scope_of, tint_of, tflt_of, fmt_of, cond_of, cmpFmt_of, partOk_eq, tflt_ne, tint_ne, h2]) <;> (repeat' split) <;> first | rfl | (exfalso; omega)

theorem vsin (vd : Reg) (vs1 : Reg) (la : La) (pfx : Option Pfx) : Statement (.vsin vd vs1 la pfx) := by
  intro _ hwf
  have h2 : (plain vd) = true := (Bool.and_eq_true_iff.mp hwf).2
  have := vd.isLt
  have := vs1.isLt
  have := la.isLt
  obtain ⟨w, hw⟩ : ∃ w, w = encV la.val 6 0 vs1 7 vd 20 := ⟨_, rfl⟩
  have A : Asm (la.val * 8 + 6) 0 vs1.val 7 vd.val 20 w := ⟨by rw [hw]; first | decide | (simp only [encV] <;> omega), by omega, by decide, by omega, by decide, by omega, by decide⟩
  have f0 : bits w 6 2 = 20 := (b_6_2 A).trans (rfl)
  have f1 : bits w 14 12 = 7 := (b_14_12 A).trans (rfl)
  have f2 : bits w 31 28 = la.val := (b_31_28 A).trans (by omega)
  have f3 : bits w 27 25 = 6 := (b_27_25 A).trans (by omega)
  have f4 : bits w 19 15 = vs1.val := (b_19_15 A).trans (by omega)
  have f5 : bits w 24 20 = 0 := (b_24_20 A).trans (rfl)
  have f6 : bits w 23 20 = 0 := (b_23_20 A).trans (rfl)
  have f7 : bits w 24 24 = 0 := (b_24_24 A).trans (rfl)
  have f8 : bit w 24 = false := t_24 A _ (rfl)
  have f9 : rg w 15 = vs1 := r_15_32 A vs1 (by omega)
  have f10 : rg w 20 = (0 : Fin 32) := r_20_32 A (0 : Fin 32) (rfl)
  have f11 : rg w 7 = vd := r_7_32 A vd (by omega)
  have f12 : laOf w = la := r_28_16 A la (by omega)
  have f13 : Fin.ofNat 8 (w / 2 ^ 25) = (6 : Fin 8) := r_25_8 A (6 : Fin 8) (by simp <;> omega)
  obtain ⟨w0, w4, wx⟩ := word_ok A (by decide)
  refine paired _ w pfx rfl hw.symm w0 w4 wx (by simp [tileMajor, f0]) ?_ (Option.isNone_iff_eq_none.mp (Bool.and_eq_true_iff.mp hwf).1)
  try simp [plain] at h2
  simp only [decMajor, decTileMisc, f0, f1, f2, f3, f4, f5, f6, f7, f8, f9, f10, f11, f12, f13] <;> (try simp [failIf, withScope, port, scope_of, tint_of, tflt_of, fmt_of, cond_of, cmpFmt_of, partOk_eq, tflt_ne, tint_ne, h2]) <;> (repeat' split) <;> first | rfl | (exfalso; omega)

theorem vcos (vd : Reg) (vs1 : Reg) (la : La) (pfx : Option Pfx) : Statement (.vcos vd vs1 la pfx) := by
  intro _ hwf
  have h2 : (plain vd) = true := (Bool.and_eq_true_iff.mp hwf).2
  have := vd.isLt
  have := vs1.isLt
  have := la.isLt
  obtain ⟨w, hw⟩ : ∃ w, w = encV la.val 7 0 vs1 7 vd 20 := ⟨_, rfl⟩
  have A : Asm (la.val * 8 + 7) 0 vs1.val 7 vd.val 20 w := ⟨by rw [hw]; first | decide | (simp only [encV] <;> omega), by omega, by decide, by omega, by decide, by omega, by decide⟩
  have f0 : bits w 6 2 = 20 := (b_6_2 A).trans (rfl)
  have f1 : bits w 14 12 = 7 := (b_14_12 A).trans (rfl)
  have f2 : bits w 31 28 = la.val := (b_31_28 A).trans (by omega)
  have f3 : bits w 27 25 = 7 := (b_27_25 A).trans (by omega)
  have f4 : bits w 19 15 = vs1.val := (b_19_15 A).trans (by omega)
  have f5 : bits w 24 20 = 0 := (b_24_20 A).trans (rfl)
  have f6 : bits w 23 20 = 0 := (b_23_20 A).trans (rfl)
  have f7 : bits w 24 24 = 0 := (b_24_24 A).trans (rfl)
  have f8 : bit w 24 = false := t_24 A _ (rfl)
  have f9 : rg w 15 = vs1 := r_15_32 A vs1 (by omega)
  have f10 : rg w 20 = (0 : Fin 32) := r_20_32 A (0 : Fin 32) (rfl)
  have f11 : rg w 7 = vd := r_7_32 A vd (by omega)
  have f12 : laOf w = la := r_28_16 A la (by omega)
  have f13 : Fin.ofNat 8 (w / 2 ^ 25) = (7 : Fin 8) := r_25_8 A (7 : Fin 8) (by simp <;> omega)
  obtain ⟨w0, w4, wx⟩ := word_ok A (by decide)
  refine paired _ w pfx rfl hw.symm w0 w4 wx (by simp [tileMajor, f0]) ?_ (Option.isNone_iff_eq_none.mp (Bool.and_eq_true_iff.mp hwf).1)
  try simp [plain] at h2
  simp only [decMajor, decTileMisc, f0, f1, f2, f3, f4, f5, f6, f7, f8, f9, f10, f11, f12, f13] <;> (try simp [failIf, withScope, port, scope_of, tint_of, tflt_of, fmt_of, cond_of, cmpFmt_of, partOk_eq, tflt_ne, tint_ne, h2]) <;> (repeat' split) <;> first | rfl | (exfalso; omega)

theorem vcvt (vd : Reg) (vs1 : Reg) (dst : Fmt) (src : Fmt) (part : Fin 8) (pfx : Option Pfx) : Statement (.vcvt vd vs1 dst src part pfx) := by
  intro _ hwf
  have h2 : (wfPart dst src part.val) = true := (Bool.and_eq_true_iff.mp hwf).2
  have := vd.isLt
  have := vs1.isLt
  have := fmt_lt dst
  have := fmt_lt src
  have := part.isLt
  obtain ⟨w, hw⟩ : ∃ w, w = dst.code * 2 ^ 28 + part.val * 2 ^ 25 + src.code * 2 ^ 20 + vs1.val * 2 ^ 15 + vd.val * 2 ^ 7 + 20 * 4 + 3 := ⟨_, rfl⟩
  have A : Asm (dst.code * 8 + part.val) src.code vs1.val 0 vd.val 20 w := ⟨by rw [hw]; try omega, by omega, by omega, by omega, by decide, by omega, by decide⟩
  have f0 : bits w 6 2 = 20 := (b_6_2 A).trans (rfl)
  have f1 : bits w 14 12 = 0 := (b_14_12 A).trans (rfl)
  have f2 : bits w 31 28 = dst.code := (b_31_28 A).trans (by omega)
  have f3 : bits w 27 25 = part.val := (b_27_25 A).trans (by omega)
  have f4 : bits w 19 15 = vs1.val := (b_19_15 A).trans (by omega)
  have f5 : bits w 24 20 = src.code := (b_24_20 A).trans (by omega)
  have f6 : bits w 23 20 = src.code := (b_23_20 A).trans (by omega)
  have f7 : bits w 24 24 = 0 := (b_24_24 A).trans (by omega)
  have f8 : bit w 24 = false := t_24 A _ (by simp only [b2n_true, b2n_false]; omega)
  have f9 : rg w 15 = vs1 := r_15_32 A vs1 (by omega)
  have f10 : rg w 7 = vd := r_7_32 A vd (by omega)
  have f11 : Fin.ofNat 8 (w / 2 ^ 25) = part := r_25_8 A part (by omega)
  obtain ⟨w0, w4, wx⟩ := word_ok A (by decide)
  refine paired _ w pfx rfl hw.symm w0 w4 wx (by simp [tileMajor, f0]) ?_ (Option.isNone_iff_eq_none.mp (Bool.and_eq_true_iff.mp hwf).1)
  try simp [plain] at h2
  simp only [decMajor, decTileMisc, f0, f1, f2, f3, f4, f5, f6, f7, f8, f9, f10, f11] <;> (try simp [failIf, withScope, port, scope_of, tint_of, tflt_of, fmt_of, cond_of, cmpFmt_of, partOk_eq, tflt_ne, tint_ne, h2]) <;> (repeat' split) <;> first | rfl | (exfalso; omega)

theorem vtrans (vd : Reg) (vs1 : Reg) (pfx : Option Pfx) : Statement (.vtrans vd vs1 pfx) := by
  intro _ hwf
  have := vd.isLt
  have := vs1.isLt
  obtain ⟨w, hw⟩ : ∃ w, w = encV 0 0 0 vs1 1 vd 20 := ⟨_, rfl⟩
  have A : Asm 0 0 vs1.val 1 vd.val 20 w := ⟨by rw [hw]; first | decide | (simp only [encV] <;> omega), by decide, by decide, by omega, by decide, by omega, by decide⟩
  have f0 : bits w 6 2 = 20 := (b_6_2 A).trans (rfl)
  have f1 : bits w 14 12 = 1 := (b_14_12 A).trans (rfl)
  have f2 : bits w 31 28 = 0 := (b_31_28 A).trans (rfl)
  have f3 : bits w 27 25 = 0 := (b_27_25 A).trans (rfl)
  have f4 : bits w 19 15 = vs1.val := (b_19_15 A).trans (by omega)
  have f5 : bits w 24 20 = 0 := (b_24_20 A).trans (rfl)
  have f6 : bits w 23 20 = 0 := (b_23_20 A).trans (rfl)
  have f7 : bits w 24 24 = 0 := (b_24_24 A).trans (rfl)
  have f8 : bit w 24 = false := t_24 A _ (rfl)
  have f9 : rg w 15 = vs1 := r_15_32 A vs1 (by omega)
  have f10 : rg w 20 = (0 : Fin 32) := r_20_32 A (0 : Fin 32) (rfl)
  have f11 : rg w 7 = vd := r_7_32 A vd (by omega)
  have f12 : laOf w = (0 : Fin 16) := r_28_16 A (0 : Fin 16) (rfl)
  have f13 : Fin.ofNat 8 (w / 2 ^ 25) = (0 : Fin 8) := r_25_8 A (0 : Fin 8) (rfl)
  obtain ⟨w0, w4, wx⟩ := word_ok A (by decide)
  refine paired _ w pfx rfl hw.symm w0 w4 wx (by simp [tileMajor, f0]) ?_ (Option.isNone_iff_eq_none.mp (Bool.and_eq_true_iff.mp hwf).1)
  simp only [decMajor, decTileMisc, f0, f1, f2, f3, f4, f5, f6, f7, f8, f9, f10, f11, f12, f13] <;> (try simp [failIf, withScope, port, scope_of, tint_of, tflt_of, fmt_of, cond_of, cmpFmt_of, partOk_eq, tflt_ne, tint_ne]) <;> (repeat' split) <;> first | rfl | (exfalso; omega)

theorem vperm (vd : Reg) (vs1 : Reg) (vs2 : Reg) (pfx : Option Pfx) : Statement (.vperm vd vs1 vs2 pfx) := by
  intro _ hwf
  have := vd.isLt
  have := vs1.isLt
  have := vs2.isLt
  obtain ⟨w, hw⟩ : ∃ w, w = encV 1 0 vs2 vs1 1 vd 20 := ⟨_, rfl⟩
  have A : Asm 8 vs2.val vs1.val 1 vd.val 20 w := ⟨by rw [hw]; first | decide | (simp only [encV] <;> omega), by decide, by omega, by omega, by decide, by omega, by decide⟩
  have f0 : bits w 6 2 = 20 := (b_6_2 A).trans (rfl)
  have f1 : bits w 14 12 = 1 := (b_14_12 A).trans (rfl)
  have f2 : bits w 31 28 = 1 := (b_31_28 A).trans (rfl)
  have f3 : bits w 27 25 = 0 := (b_27_25 A).trans (rfl)
  have f4 : bits w 19 15 = vs1.val := (b_19_15 A).trans (by omega)
  have f5 : bits w 24 20 = vs2.val := (b_24_20 A).trans (by omega)
  have f6 : rg w 15 = vs1 := r_15_32 A vs1 (by omega)
  have f7 : rg w 20 = vs2 := r_20_32 A vs2 (by omega)
  have f8 : rg w 7 = vd := r_7_32 A vd (by omega)
  have f9 : laOf w = (1 : Fin 16) := r_28_16 A (1 : Fin 16) (rfl)
  have f10 : Fin.ofNat 8 (w / 2 ^ 25) = (0 : Fin 8) := r_25_8 A (0 : Fin 8) (rfl)
  obtain ⟨w0, w4, wx⟩ := word_ok A (by decide)
  refine paired _ w pfx rfl hw.symm w0 w4 wx (by simp [tileMajor, f0]) ?_ (Option.isNone_iff_eq_none.mp (Bool.and_eq_true_iff.mp hwf).1)
  simp only [decMajor, decTileMisc, f0, f1, f2, f3, f4, f5, f6, f7, f8, f9, f10] <;> (try simp [failIf, withScope, port, scope_of, tint_of, tflt_of, fmt_of, cond_of, cmpFmt_of, partOk_eq, tflt_ne, tint_ne]) <;> (repeat' split) <;> first | rfl | (exfalso; omega)

theorem vslideC (vd : Reg) (vs1 : Reg) (xs : Reg) (pfx : Option Pfx) : Statement (.vslideC vd vs1 xs pfx) := by
  intro _ hwf
  have := vd.isLt
  have := vs1.isLt
  have := xs.isLt
  obtain ⟨w, hw⟩ : ∃ w, w = encV 2 0 xs vs1 1 vd 20 := ⟨_, rfl⟩
  have A : Asm 16 xs.val vs1.val 1 vd.val 20 w := ⟨by rw [hw]; first | decide | (simp only [encV] <;> omega), by decide, by omega, by omega, by decide, by omega, by decide⟩
  have f0 : bits w 6 2 = 20 := (b_6_2 A).trans (rfl)
  have f1 : bits w 14 12 = 1 := (b_14_12 A).trans (rfl)
  have f2 : bits w 31 28 = 2 := (b_31_28 A).trans (rfl)
  have f3 : bits w 27 25 = 0 := (b_27_25 A).trans (rfl)
  have f4 : bits w 19 15 = vs1.val := (b_19_15 A).trans (by omega)
  have f5 : bits w 24 20 = xs.val := (b_24_20 A).trans (by omega)
  have f6 : rg w 15 = vs1 := r_15_32 A vs1 (by omega)
  have f7 : rg w 20 = xs := r_20_32 A xs (by omega)
  have f8 : rg w 7 = vd := r_7_32 A vd (by omega)
  have f9 : laOf w = (2 : Fin 16) := r_28_16 A (2 : Fin 16) (rfl)
  have f10 : Fin.ofNat 8 (w / 2 ^ 25) = (0 : Fin 8) := r_25_8 A (0 : Fin 8) (rfl)
  obtain ⟨w0, w4, wx⟩ := word_ok A (by decide)
  refine paired _ w pfx rfl hw.symm w0 w4 wx (by simp [tileMajor, f0]) ?_ (Option.isNone_iff_eq_none.mp (Bool.and_eq_true_iff.mp hwf).1)
  simp only [decMajor, decTileMisc, f0, f1, f2, f3, f4, f5, f6, f7, f8, f9, f10] <;> (try simp [failIf, withScope, port, scope_of, tint_of, tflt_of, fmt_of, cond_of, cmpFmt_of, partOk_eq, tflt_ne, tint_ne]) <;> (repeat' split) <;> first | rfl | (exfalso; omega)

theorem vslideR (vd : Reg) (vs1 : Reg) (xs : Reg) (pfx : Option Pfx) : Statement (.vslideR vd vs1 xs pfx) := by
  intro _ hwf
  have := vd.isLt
  have := vs1.isLt
  have := xs.isLt
  obtain ⟨w, hw⟩ : ∃ w, w = encV 3 0 xs vs1 1 vd 20 := ⟨_, rfl⟩
  have A : Asm 24 xs.val vs1.val 1 vd.val 20 w := ⟨by rw [hw]; first | decide | (simp only [encV] <;> omega), by decide, by omega, by omega, by decide, by omega, by decide⟩
  have f0 : bits w 6 2 = 20 := (b_6_2 A).trans (rfl)
  have f1 : bits w 14 12 = 1 := (b_14_12 A).trans (rfl)
  have f2 : bits w 31 28 = 3 := (b_31_28 A).trans (rfl)
  have f3 : bits w 27 25 = 0 := (b_27_25 A).trans (rfl)
  have f4 : bits w 19 15 = vs1.val := (b_19_15 A).trans (by omega)
  have f5 : bits w 24 20 = xs.val := (b_24_20 A).trans (by omega)
  have f6 : rg w 15 = vs1 := r_15_32 A vs1 (by omega)
  have f7 : rg w 20 = xs := r_20_32 A xs (by omega)
  have f8 : rg w 7 = vd := r_7_32 A vd (by omega)
  have f9 : laOf w = (3 : Fin 16) := r_28_16 A (3 : Fin 16) (rfl)
  have f10 : Fin.ofNat 8 (w / 2 ^ 25) = (0 : Fin 8) := r_25_8 A (0 : Fin 8) (rfl)
  obtain ⟨w0, w4, wx⟩ := word_ok A (by decide)
  refine paired _ w pfx rfl hw.symm w0 w4 wx (by simp [tileMajor, f0]) ?_ (Option.isNone_iff_eq_none.mp (Bool.and_eq_true_iff.mp hwf).1)
  simp only [decMajor, decTileMisc, f0, f1, f2, f3, f4, f5, f6, f7, f8, f9, f10] <;> (try simp [failIf, withScope, port, scope_of, tint_of, tflt_of, fmt_of, cond_of, cmpFmt_of, partOk_eq, tflt_ne, tint_ne]) <;> (repeat' split) <;> first | rfl | (exfalso; omega)

theorem vbcastR (vd : Reg) (vs1 : Reg) (xs : Reg) (pfx : Option Pfx) : Statement (.vbcastR vd vs1 xs pfx) := by
  intro _ hwf
  have := vd.isLt
  have := vs1.isLt
  have := xs.isLt
  obtain ⟨w, hw⟩ : ∃ w, w = encV 4 0 xs vs1 1 vd 20 := ⟨_, rfl⟩
  have A : Asm 32 xs.val vs1.val 1 vd.val 20 w := ⟨by rw [hw]; first | decide | (simp only [encV] <;> omega), by decide, by omega, by omega, by decide, by omega, by decide⟩
  have f0 : bits w 6 2 = 20 := (b_6_2 A).trans (rfl)
  have f1 : bits w 14 12 = 1 := (b_14_12 A).trans (rfl)
  have f2 : bits w 31 28 = 4 := (b_31_28 A).trans (rfl)
  have f3 : bits w 27 25 = 0 := (b_27_25 A).trans (rfl)
  have f4 : bits w 19 15 = vs1.val := (b_19_15 A).trans (by omega)
  have f5 : bits w 24 20 = xs.val := (b_24_20 A).trans (by omega)
  have f6 : rg w 15 = vs1 := r_15_32 A vs1 (by omega)
  have f7 : rg w 20 = xs := r_20_32 A xs (by omega)
  have f8 : rg w 7 = vd := r_7_32 A vd (by omega)
  have f9 : laOf w = (4 : Fin 16) := r_28_16 A (4 : Fin 16) (rfl)
  have f10 : Fin.ofNat 8 (w / 2 ^ 25) = (0 : Fin 8) := r_25_8 A (0 : Fin 8) (rfl)
  obtain ⟨w0, w4, wx⟩ := word_ok A (by decide)
  refine paired _ w pfx rfl hw.symm w0 w4 wx (by simp [tileMajor, f0]) ?_ (Option.isNone_iff_eq_none.mp (Bool.and_eq_true_iff.mp hwf).1)
  simp only [decMajor, decTileMisc, f0, f1, f2, f3, f4, f5, f6, f7, f8, f9, f10] <;> (try simp [failIf, withScope, port, scope_of, tint_of, tflt_of, fmt_of, cond_of, cmpFmt_of, partOk_eq, tflt_ne, tint_ne]) <;> (repeat' split) <;> first | rfl | (exfalso; omega)

theorem vbcastC (vd : Reg) (vs1 : Reg) (xs : Reg) (pfx : Option Pfx) : Statement (.vbcastC vd vs1 xs pfx) := by
  intro _ hwf
  have := vd.isLt
  have := vs1.isLt
  have := xs.isLt
  obtain ⟨w, hw⟩ : ∃ w, w = encV 5 0 xs vs1 1 vd 20 := ⟨_, rfl⟩
  have A : Asm 40 xs.val vs1.val 1 vd.val 20 w := ⟨by rw [hw]; first | decide | (simp only [encV] <;> omega), by decide, by omega, by omega, by decide, by omega, by decide⟩
  have f0 : bits w 6 2 = 20 := (b_6_2 A).trans (rfl)
  have f1 : bits w 14 12 = 1 := (b_14_12 A).trans (rfl)
  have f2 : bits w 31 28 = 5 := (b_31_28 A).trans (rfl)
  have f3 : bits w 27 25 = 0 := (b_27_25 A).trans (rfl)
  have f4 : bits w 19 15 = vs1.val := (b_19_15 A).trans (by omega)
  have f5 : bits w 24 20 = xs.val := (b_24_20 A).trans (by omega)
  have f6 : rg w 15 = vs1 := r_15_32 A vs1 (by omega)
  have f7 : rg w 20 = xs := r_20_32 A xs (by omega)
  have f8 : rg w 7 = vd := r_7_32 A vd (by omega)
  have f9 : laOf w = (5 : Fin 16) := r_28_16 A (5 : Fin 16) (rfl)
  have f10 : Fin.ofNat 8 (w / 2 ^ 25) = (0 : Fin 8) := r_25_8 A (0 : Fin 8) (rfl)
  obtain ⟨w0, w4, wx⟩ := word_ok A (by decide)
  refine paired _ w pfx rfl hw.symm w0 w4 wx (by simp [tileMajor, f0]) ?_ (Option.isNone_iff_eq_none.mp (Bool.and_eq_true_iff.mp hwf).1)
  simp only [decMajor, decTileMisc, f0, f1, f2, f3, f4, f5, f6, f7, f8, f9, f10] <;> (try simp [failIf, withScope, port, scope_of, tint_of, tflt_of, fmt_of, cond_of, cmpFmt_of, partOk_eq, tflt_ne, tint_ne]) <;> (repeat' split) <;> first | rfl | (exfalso; omega)

theorem vredsum (vd : Reg) (vs1 : Reg) (col : Bool) (fmt : Fmt) (pfx : Option Pfx) : Statement (.vredsum vd vs1 col fmt pfx) := by
  intro _ hwf
  have h2 : (fmt.reducible) = true := (Bool.and_eq_true_iff.mp hwf).2
  have := vd.isLt
  have := vs1.isLt
  have := b2n_lt col
  have := fmt_lt fmt
  obtain ⟨w, hw⟩ : ∃ w, w = 0 * 2 ^ 28 + b2n col * 2 ^ 24 + fmt.code * 2 ^ 20 + vs1.val * 2 ^ 15 + 2 * 2 ^ 12 + vd.val * 2 ^ 7 + 20 * 4 + 3 := ⟨_, rfl⟩
  have A : Asm 0 (b2n col * 16 + fmt.code) vs1.val 2 vd.val 20 w := ⟨by rw [hw]; try omega, by decide, by omega, by omega, by decide, by omega, by decide⟩
  have f0 : bits w 6 2 = 20 := (b_6_2 A).trans (rfl)
  have f1 : bits w 14 12 = 2 := (b_14_12 A).trans (rfl)
  have f2 : bits w 31 28 = 0 := (b_31_28 A).trans (rfl)
  have f3 : bits w 27 25 = 0 := (b_27_25 A).trans (rfl)
  have f4 : bits w 19 15 = vs1.val := (b_19_15 A).trans (by omega)
  have f5 : bits w 23 20 = fmt.code := (b_23_20 A).trans (by omega)
  have f6 : bits w 24 24 = b2n col := (b_24_24 A).trans (by omega)
  have f7 : bit w 24 = col := t_24 A _ (by omega)
  have f8 : rg w 15 = vs1 := r_15_32 A vs1 (by omega)
  have f9 : rg w 7 = vd := r_7_32 A vd (by omega)
  have f10 : laOf w = (0 : Fin 16) := r_28_16 A (0 : Fin 16) (rfl)
  have f11 : Fin.ofNat 8 (w / 2 ^ 25) = (0 : Fin 8) := r_25_8 A (0 : Fin 8) (rfl)
  obtain ⟨w0, w4, wx⟩ := word_ok A (by decide)
  refine paired _ w pfx rfl hw.symm w0 w4 wx (by simp [tileMajor, f0]) ?_ (Option.isNone_iff_eq_none.mp (Bool.and_eq_true_iff.mp hwf).1)
  try simp [plain] at h2
  simp only [decMajor, decTileMisc, f0, f1, f2, f3, f4, f5, f6, f7, f8, f9, f10, f11] <;> (try simp [failIf, withScope, port, scope_of, tint_of, tflt_of, fmt_of, cond_of, cmpFmt_of, partOk_eq, tflt_ne, tint_ne, h2]) <;> (repeat' split) <;> first | rfl | (exfalso; omega)

theorem vredmin (vd : Reg) (vs1 : Reg) (col : Bool) (fmt : Fmt) (pfx : Option Pfx) : Statement (.vredmin vd vs1 col fmt pfx) := by
  intro _ hwf
  have h2 : (fmt.reducible) = true := (Bool.and_eq_true_iff.mp hwf).2
  have := vd.isLt
  have := vs1.isLt
  have := b2n_lt col
  have := fmt_lt fmt
  obtain ⟨w, hw⟩ : ∃ w, w = 1 * 2 ^ 28 + b2n col * 2 ^ 24 + fmt.code * 2 ^ 20 + vs1.val * 2 ^ 15 + 2 * 2 ^ 12 + vd.val * 2 ^ 7 + 20 * 4 + 3 := ⟨_, rfl⟩
  have A : Asm 8 (b2n col * 16 + fmt.code) vs1.val 2 vd.val 20 w := ⟨by rw [hw]; try omega, by decide, by omega, by omega, by decide, by omega, by decide⟩
  have f0 : bits w 6 2 = 20 := (b_6_2 A).trans (rfl)
  have f1 : bits w 14 12 = 2 := (b_14_12 A).trans (rfl)
  have f2 : bits w 31 28 = 1 := (b_31_28 A).trans (rfl)
  have f3 : bits w 27 25 = 0 := (b_27_25 A).trans (rfl)
  have f4 : bits w 19 15 = vs1.val := (b_19_15 A).trans (by omega)
  have f5 : bits w 23 20 = fmt.code := (b_23_20 A).trans (by omega)
  have f6 : bits w 24 24 = b2n col := (b_24_24 A).trans (by omega)
  have f7 : bit w 24 = col := t_24 A _ (by omega)
  have f8 : rg w 15 = vs1 := r_15_32 A vs1 (by omega)
  have f9 : rg w 7 = vd := r_7_32 A vd (by omega)
  have f10 : laOf w = (1 : Fin 16) := r_28_16 A (1 : Fin 16) (rfl)
  have f11 : Fin.ofNat 8 (w / 2 ^ 25) = (0 : Fin 8) := r_25_8 A (0 : Fin 8) (rfl)
  obtain ⟨w0, w4, wx⟩ := word_ok A (by decide)
  refine paired _ w pfx rfl hw.symm w0 w4 wx (by simp [tileMajor, f0]) ?_ (Option.isNone_iff_eq_none.mp (Bool.and_eq_true_iff.mp hwf).1)
  try simp [plain] at h2
  simp only [decMajor, decTileMisc, f0, f1, f2, f3, f4, f5, f6, f7, f8, f9, f10, f11] <;> (try simp [failIf, withScope, port, scope_of, tint_of, tflt_of, fmt_of, cond_of, cmpFmt_of, partOk_eq, tflt_ne, tint_ne, h2]) <;> (repeat' split) <;> first | rfl | (exfalso; omega)

theorem vredmax (vd : Reg) (vs1 : Reg) (col : Bool) (fmt : Fmt) (pfx : Option Pfx) : Statement (.vredmax vd vs1 col fmt pfx) := by
  intro _ hwf
  have h2 : (fmt.reducible) = true := (Bool.and_eq_true_iff.mp hwf).2
  have := vd.isLt
  have := vs1.isLt
  have := b2n_lt col
  have := fmt_lt fmt
  obtain ⟨w, hw⟩ : ∃ w, w = 2 * 2 ^ 28 + b2n col * 2 ^ 24 + fmt.code * 2 ^ 20 + vs1.val * 2 ^ 15 + 2 * 2 ^ 12 + vd.val * 2 ^ 7 + 20 * 4 + 3 := ⟨_, rfl⟩
  have A : Asm 16 (b2n col * 16 + fmt.code) vs1.val 2 vd.val 20 w := ⟨by rw [hw]; try omega, by decide, by omega, by omega, by decide, by omega, by decide⟩
  have f0 : bits w 6 2 = 20 := (b_6_2 A).trans (rfl)
  have f1 : bits w 14 12 = 2 := (b_14_12 A).trans (rfl)
  have f2 : bits w 31 28 = 2 := (b_31_28 A).trans (rfl)
  have f3 : bits w 27 25 = 0 := (b_27_25 A).trans (rfl)
  have f4 : bits w 19 15 = vs1.val := (b_19_15 A).trans (by omega)
  have f5 : bits w 23 20 = fmt.code := (b_23_20 A).trans (by omega)
  have f6 : bits w 24 24 = b2n col := (b_24_24 A).trans (by omega)
  have f7 : bit w 24 = col := t_24 A _ (by omega)
  have f8 : rg w 15 = vs1 := r_15_32 A vs1 (by omega)
  have f9 : rg w 7 = vd := r_7_32 A vd (by omega)
  have f10 : laOf w = (2 : Fin 16) := r_28_16 A (2 : Fin 16) (rfl)
  have f11 : Fin.ofNat 8 (w / 2 ^ 25) = (0 : Fin 8) := r_25_8 A (0 : Fin 8) (rfl)
  obtain ⟨w0, w4, wx⟩ := word_ok A (by decide)
  refine paired _ w pfx rfl hw.symm w0 w4 wx (by simp [tileMajor, f0]) ?_ (Option.isNone_iff_eq_none.mp (Bool.and_eq_true_iff.mp hwf).1)
  try simp [plain] at h2
  simp only [decMajor, decTileMisc, f0, f1, f2, f3, f4, f5, f6, f7, f8, f9, f10, f11] <;> (try simp [failIf, withScope, port, scope_of, tint_of, tflt_of, fmt_of, cond_of, cmpFmt_of, partOk_eq, tflt_ne, tint_ne, h2]) <;> (repeat' split) <;> first | rfl | (exfalso; omega)

theorem vrand (vd : Reg) (pfx : Option Pfx) : Statement (.vrand vd pfx) := by
  intro _ hwf
  have := vd.isLt
  obtain ⟨w, hw⟩ : ∃ w, w = encV 0 0 0 0 3 vd 20 := ⟨_, rfl⟩
  have A : Asm 0 0 0 3 vd.val 20 w := ⟨by rw [hw]; first | decide | (simp only [encV] <;> omega), by decide, by decide, by decide, by decide, by omega, by decide⟩
  have f0 : bits w 6 2 = 20 := (b_6_2 A).trans (rfl)
  have f1 : bits w 14 12 = 3 := (b_14_12 A).trans (rfl)
  have f2 : bits w 31 28 = 0 := (b_31_28 A).trans (rfl)
  have f3 : bits w 27 25 = 0 := (b_27_25 A).trans (rfl)
  have f4 : bits w 19 15 = 0 := (b_19_15 A).trans (rfl)
  have f5 : bits w 24 20 = 0 := (b_24_20 A).trans (rfl)
  have f6 : bits w 23 20 = 0 := (b_23_20 A).trans (rfl)
  have f7 : bits w 24 24 = 0 := (b_24_24 A).trans (rfl)
  have f8 : bit w 24 = false := t_24 A _ (rfl)
  have f9 : rg w 15 = (0 : Fin 32) := r_15_32 A (0 : Fin 32) (rfl)
  have f10 : rg w 20 = (0 : Fin 32) := r_20_32 A (0 : Fin 32) (rfl)
  have f11 : rg w 7 = vd := r_7_32 A vd (by omega)
  have f12 : laOf w = (0 : Fin 16) := r_28_16 A (0 : Fin 16) (rfl)
  have f13 : Fin.ofNat 8 (w / 2 ^ 25) = (0 : Fin 8) := r_25_8 A (0 : Fin 8) (rfl)
  obtain ⟨w0, w4, wx⟩ := word_ok A (by decide)
  refine paired _ w pfx rfl hw.symm w0 w4 wx (by simp [tileMajor, f0]) ?_ (Option.isNone_iff_eq_none.mp (Bool.and_eq_true_iff.mp hwf).1)
  simp only [decMajor, decTileMisc, f0, f1, f2, f3, f4, f5, f6, f7, f8, f9, f10, f11, f12, f13] <;> (try simp [failIf, withScope, port, scope_of, tint_of, tflt_of, fmt_of, cond_of, cmpFmt_of, partOk_eq, tflt_ne, tint_ne]) <;> (repeat' split) <;> first | rfl | (exfalso; omega)

theorem vrandf (vd : Reg) (pfx : Option Pfx) : Statement (.vrandf vd pfx) := by
  intro _ hwf
  have := vd.isLt
  obtain ⟨w, hw⟩ : ∃ w, w = encV 1 0 0 0 3 vd 20 := ⟨_, rfl⟩
  have A : Asm 8 0 0 3 vd.val 20 w := ⟨by rw [hw]; first | decide | (simp only [encV] <;> omega), by decide, by decide, by decide, by decide, by omega, by decide⟩
  have f0 : bits w 6 2 = 20 := (b_6_2 A).trans (rfl)
  have f1 : bits w 14 12 = 3 := (b_14_12 A).trans (rfl)
  have f2 : bits w 31 28 = 1 := (b_31_28 A).trans (rfl)
  have f3 : bits w 27 25 = 0 := (b_27_25 A).trans (rfl)
  have f4 : bits w 19 15 = 0 := (b_19_15 A).trans (rfl)
  have f5 : bits w 24 20 = 0 := (b_24_20 A).trans (rfl)
  have f6 : bits w 23 20 = 0 := (b_23_20 A).trans (rfl)
  have f7 : bits w 24 24 = 0 := (b_24_24 A).trans (rfl)
  have f8 : bit w 24 = false := t_24 A _ (rfl)
  have f9 : rg w 15 = (0 : Fin 32) := r_15_32 A (0 : Fin 32) (rfl)
  have f10 : rg w 20 = (0 : Fin 32) := r_20_32 A (0 : Fin 32) (rfl)
  have f11 : rg w 7 = vd := r_7_32 A vd (by omega)
  have f12 : laOf w = (1 : Fin 16) := r_28_16 A (1 : Fin 16) (rfl)
  have f13 : Fin.ofNat 8 (w / 2 ^ 25) = (0 : Fin 8) := r_25_8 A (0 : Fin 8) (rfl)
  obtain ⟨w0, w4, wx⟩ := word_ok A (by decide)
  refine paired _ w pfx rfl hw.symm w0 w4 wx (by simp [tileMajor, f0]) ?_ (Option.isNone_iff_eq_none.mp (Bool.and_eq_true_iff.mp hwf).1)
  simp only [decMajor, decTileMisc, f0, f1, f2, f3, f4, f5, f6, f7, f8, f9, f10, f11, f12, f13] <;> (try simp [failIf, withScope, port, scope_of, tint_of, tflt_of, fmt_of, cond_of, cmpFmt_of, partOk_eq, tflt_ne, tint_ne]) <;> (repeat' split) <;> first | rfl | (exfalso; omega)

theorem vcmp (xd : Reg) (vs1 : Reg) (vs2 : Reg) (cond : Cond) (fmt : CmpFmt) (pfx : Option Pfx) : Statement (.vcmp xd vs1 vs2 cond fmt pfx) := by
  intro _ hwf
  have := xd.isLt
  have := vs1.isLt
  have := vs2.isLt
  have := cond_lt cond
  have := cmpFmt_lt fmt
  have := b2n_lt fmt.isU
  obtain ⟨w, hw⟩ : ∃ w, w = encV (b2n fmt.isU * 8 + cond.code) fmt.code vs2 vs1 0 xd 21 := ⟨_, rfl⟩
  have A : Asm ((b2n fmt.isU * 8 + cond.code) * 8 + fmt.code) vs2.val vs1.val 0 xd.val 21 w := ⟨by rw [hw]; first | decide | (simp only [encV] <;> omega), by omega, by omega, by omega, by decide, by omega, by decide⟩
  have f0 : bits w 6 2 = 21 := (b_6_2 A).trans (rfl)
  have f1 : bits w 14 12 = 0 := (b_14_12 A).trans (rfl)
  have f2 : bits w 27 25 = fmt.code := (b_27_25 A).trans (by omega)
  have f3 : bits w 24 20 = vs2.val := (b_24_20 A).trans (by omega)
  have f4 : bits w 30 28 = cond.code := (b_30_28 A).trans (by omega)
  have f5 : bits w 11 7 = xd.val := (b_11_7 A).trans (by omega)
  have f6 : bit w 31 = fmt.isU := t_31 A _ (by omega)
  have f7 : rg w 15 = vs1 := r_15_32 A vs1 (by omega)
  have f8 : rg w 20 = vs2 := r_20_32 A vs2 (by omega)
  have f9 : rg w 7 = xd := r_7_32 A xd (by omega)
  obtain ⟨w0, w4, wx⟩ := word_ok A (by decide)
  refine paired _ w pfx rfl hw.symm w0 w4 wx (by simp [tileMajor, f0]) ?_ (Option.isNone_iff_eq_none.mp (Bool.and_eq_true_iff.mp hwf).1)
  simp only [decMajor, decTileCmp, f0, f1, f2, f3, f4, f5, f6, f7, f8, f9] <;> (try simp [failIf, withScope, port, scope_of, tint_of, tflt_of, fmt_of, cond_of, cmpFmt_of, partOk_eq, tflt_ne, tint_ne]) <;> (repeat' split) <;> first | rfl | (exfalso; omega)

theorem vsel (vd : Reg) (vs1 : Reg) (vs2 : Reg) (pfx : Option Pfx) : Statement (.vsel vd vs1 vs2 pfx) := by
  intro _ hwf
  have := vd.isLt
  have := vs1.isLt
  have := vs2.isLt
  obtain ⟨w, hw⟩ : ∃ w, w = encV 0 0 vs2 vs1 1 vd 21 := ⟨_, rfl⟩
  have A : Asm 0 vs2.val vs1.val 1 vd.val 21 w := ⟨by rw [hw]; first | decide | (simp only [encV] <;> omega), by decide, by omega, by omega, by decide, by omega, by decide⟩
  have f0 : bits w 6 2 = 21 := (b_6_2 A).trans (rfl)
  have f1 : bits w 14 12 = 1 := (b_14_12 A).trans (rfl)
  have f2 : bits w 31 28 = 0 := (b_31_28 A).trans (rfl)
  have f3 : bits w 27 25 = 0 := (b_27_25 A).trans (rfl)
  have f4 : bits w 24 20 = vs2.val := (b_24_20 A).trans (by omega)
  have f5 : bits w 30 28 = 0 := (b_30_28 A).trans (rfl)
  have f6 : bits w 11 7 = vd.val := (b_11_7 A).trans (by omega)
  have f7 : bit w 31 = false := t_31 A _ (rfl)
  have f8 : rg w 15 = vs1 := r_15_32 A vs1 (by omega)
  have f9 : rg w 20 = vs2 := r_20_32 A vs2 (by omega)
  have f10 : rg w 7 = vd := r_7_32 A vd (by omega)
  obtain ⟨w0, w4, wx⟩ := word_ok A (by decide)
  refine paired _ w pfx rfl hw.symm w0 w4 wx (by simp [tileMajor, f0]) ?_ (Option.isNone_iff_eq_none.mp (Bool.and_eq_true_iff.mp hwf).1)
  simp only [decMajor, decTileCmp, f0, f1, f2, f3, f4, f5, f6, f7, f8, f9, f10] <;> (try simp [failIf, withScope, port, scope_of, tint_of, tflt_of, fmt_of, cond_of, cmpFmt_of, partOk_eq, tflt_ne, tint_ne]) <;> (repeat' split) <;> first | rfl | (exfalso; omega)

theorem vmv (vd : Reg) (vs1 : Reg) (pfx : Option Pfx) : Statement (.vmv vd vs1 pfx) := by
  intro _ hwf
  have := vd.isLt
  have := vs1.isLt
  obtain ⟨w, hw⟩ : ∃ w, w = encV 1 0 0 vs1 1 vd 21 := ⟨_, rfl⟩
  have A : Asm 8 0 vs1.val 1 vd.val 21 w := ⟨by rw [hw]; first | decide | (simp only [encV] <;> omega), by decide, by decide, by omega, by decide, by omega, by decide⟩
  have f0 : bits w 6 2 = 21 := (b_6_2 A).trans (rfl)
  have f1 : bits w 14 12 = 1 := (b_14_12 A).trans (rfl)
  have f2 : bits w 31 28 = 1 := (b_31_28 A).trans (rfl)
  have f3 : bits w 27 25 = 0 := (b_27_25 A).trans (rfl)
  have f4 : bits w 24 20 = 0 := (b_24_20 A).trans (rfl)
  have f5 : bits w 30 28 = 1 := (b_30_28 A).trans (rfl)
  have f6 : bits w 11 7 = vd.val := (b_11_7 A).trans (by omega)
  have f7 : bits w 24 23 = 0 := (b_24_23 A).trans (rfl)
  have f8 : bit w 31 = false := t_31 A _ (rfl)
  have f9 : rg w 15 = vs1 := r_15_32 A vs1 (by omega)
  have f10 : rg w 20 = (0 : Fin 32) := r_20_32 A (0 : Fin 32) (rfl)
  have f11 : rg w 7 = vd := r_7_32 A vd (by omega)
  have f12 : Fin.ofNat 8 (w / 2 ^ 20) = (0 : Fin 8) := r_20_8 A (0 : Fin 8) (rfl)
  obtain ⟨w0, w4, wx⟩ := word_ok A (by decide)
  refine paired _ w pfx rfl hw.symm w0 w4 wx (by simp [tileMajor, f0]) ?_ (Option.isNone_iff_eq_none.mp (Bool.and_eq_true_iff.mp hwf).1)
  simp only [decMajor, decTileCmp, f0, f1, f2, f3, f4, f5, f6, f7, f8, f9, f10, f11, f12] <;> (try simp [failIf, withScope, port, scope_of, tint_of, tflt_of, fmt_of, cond_of, cmpFmt_of, partOk_eq, tflt_ne, tint_ne]) <;> (repeat' split) <;> first | rfl | (exfalso; omega)

theorem vgetx (xd : Reg) (vs1 : Reg) (xs : Reg) (pfx : Option Pfx) : Statement (.vgetx xd vs1 xs pfx) := by
  intro _ hwf
  have := xd.isLt
  have := vs1.isLt
  have := xs.isLt
  obtain ⟨w, hw⟩ : ∃ w, w = encV 0 0 xs vs1 2 xd 21 := ⟨_, rfl⟩
  have A : Asm 0 xs.val vs1.val 2 xd.val 21 w := ⟨by rw [hw]; first | decide | (simp only [encV] <;> omega), by decide, by omega, by omega, by decide, by omega, by decide⟩
  have f0 : bits w 6 2 = 21 := (b_6_2 A).trans (rfl)
  have f1 : bits w 14 12 = 2 := (b_14_12 A).trans (rfl)
  have f2 : bits w 31 28 = 0 := (b_31_28 A).trans (rfl)
  have f3 : bits w 27 25 = 0 := (b_27_25 A).trans (rfl)
  have f4 : bits w 24 20 = xs.val := (b_24_20 A).trans (by omega)
  have f5 : bits w 30 28 = 0 := (b_30_28 A).trans (rfl)
  have f6 : bits w 11 7 = xd.val := (b_11_7 A).trans (by omega)
  have f7 : bit w 31 = false := t_31 A _ (rfl)
  have f8 : rg w 15 = vs1 := r_15_32 A vs1 (by omega)
  have f9 : rg w 20 = xs := r_20_32 A xs (by omega)
  have f10 : rg w 7 = xd := r_7_32 A xd (by omega)
  obtain ⟨w0, w4, wx⟩ := word_ok A (by decide)
  refine paired _ w pfx rfl hw.symm w0 w4 wx (by simp [tileMajor, f0]) ?_ (Option.isNone_iff_eq_none.mp (Bool.and_eq_true_iff.mp hwf).1)
  simp only [decMajor, decTileCmp, f0, f1, f2, f3, f4, f5, f6, f7, f8, f9, f10] <;> (try simp [failIf, withScope, port, scope_of, tint_of, tflt_of, fmt_of, cond_of, cmpFmt_of, partOk_eq, tflt_ne, tint_ne]) <;> (repeat' split) <;> first | rfl | (exfalso; omega)

theorem vsetx (vd : Reg) (xa : Reg) (xs : Reg) (pfx : Option Pfx) : Statement (.vsetx vd xa xs pfx) := by
  intro _ hwf
  have := vd.isLt
  have := xa.isLt
  have := xs.isLt
  obtain ⟨w, hw⟩ : ∃ w, w = encV 1 0 xs xa 2 vd 21 := ⟨_, rfl⟩
  have A : Asm 8 xs.val xa.val 2 vd.val 21 w := ⟨by rw [hw]; first | decide | (simp only [encV] <;> omega), by decide, by omega, by omega, by decide, by omega, by decide⟩
  have f0 : bits w 6 2 = 21 := (b_6_2 A).trans (rfl)
  have f1 : bits w 14 12 = 2 := (b_14_12 A).trans (rfl)
  have f2 : bits w 31 28 = 1 := (b_31_28 A).trans (rfl)
  have f3 : bits w 27 25 = 0 := (b_27_25 A).trans (rfl)
  have f4 : bits w 24 20 = xs.val := (b_24_20 A).trans (by omega)
  have f5 : bits w 30 28 = 1 := (b_30_28 A).trans (rfl)
  have f6 : bits w 11 7 = vd.val := (b_11_7 A).trans (by omega)
  have f7 : bit w 31 = false := t_31 A _ (rfl)
  have f8 : rg w 15 = xa := r_15_32 A xa (by omega)
  have f9 : rg w 20 = xs := r_20_32 A xs (by omega)
  have f10 : rg w 7 = vd := r_7_32 A vd (by omega)
  obtain ⟨w0, w4, wx⟩ := word_ok A (by decide)
  refine paired _ w pfx rfl hw.symm w0 w4 wx (by simp [tileMajor, f0]) ?_ (Option.isNone_iff_eq_none.mp (Bool.and_eq_true_iff.mp hwf).1)
  simp only [decMajor, decTileCmp, f0, f1, f2, f3, f4, f5, f6, f7, f8, f9, f10] <;> (try simp [failIf, withScope, port, scope_of, tint_of, tflt_of, fmt_of, cond_of, cmpFmt_of, partOk_eq, tflt_ne, tint_ne]) <;> (repeat' split) <;> first | rfl | (exfalso; omega)

theorem vbcx (vd : Reg) (xa : Reg) (pfx : Option Pfx) : Statement (.vbcx vd xa pfx) := by
  intro _ hwf
  have := vd.isLt
  have := xa.isLt
  obtain ⟨w, hw⟩ : ∃ w, w = encV 2 0 0 xa 2 vd 21 := ⟨_, rfl⟩
  have A : Asm 16 0 xa.val 2 vd.val 21 w := ⟨by rw [hw]; first | decide | (simp only [encV] <;> omega), by decide, by decide, by omega, by decide, by omega, by decide⟩
  have f0 : bits w 6 2 = 21 := (b_6_2 A).trans (rfl)
  have f1 : bits w 14 12 = 2 := (b_14_12 A).trans (rfl)
  have f2 : bits w 31 28 = 2 := (b_31_28 A).trans (rfl)
  have f3 : bits w 27 25 = 0 := (b_27_25 A).trans (rfl)
  have f4 : bits w 24 20 = 0 := (b_24_20 A).trans (rfl)
  have f5 : bits w 30 28 = 2 := (b_30_28 A).trans (rfl)
  have f6 : bits w 11 7 = vd.val := (b_11_7 A).trans (by omega)
  have f7 : bits w 24 23 = 0 := (b_24_23 A).trans (rfl)
  have f8 : bit w 31 = false := t_31 A _ (rfl)
  have f9 : rg w 15 = xa := r_15_32 A xa (by omega)
  have f10 : rg w 20 = (0 : Fin 32) := r_20_32 A (0 : Fin 32) (rfl)
  have f11 : rg w 7 = vd := r_7_32 A vd (by omega)
  have f12 : Fin.ofNat 8 (w / 2 ^ 20) = (0 : Fin 8) := r_20_8 A (0 : Fin 8) (rfl)
  obtain ⟨w0, w4, wx⟩ := word_ok A (by decide)
  refine paired _ w pfx rfl hw.symm w0 w4 wx (by simp [tileMajor, f0]) ?_ (Option.isNone_iff_eq_none.mp (Bool.and_eq_true_iff.mp hwf).1)
  simp only [decMajor, decTileCmp, f0, f1, f2, f3, f4, f5, f6, f7, f8, f9, f10, f11, f12] <;> (try simp [failIf, withScope, port, scope_of, tint_of, tflt_of, fmt_of, cond_of, cmpFmt_of, partOk_eq, tflt_ne, tint_ne]) <;> (repeat' split) <;> first | rfl | (exfalso; omega)

theorem tshape (rows : Fin 8) (cols : Fin 8) (pfx : Option Pfx) : Statement (.tshape rows cols pfx) := by
  intro _ hwf
  have := rows.isLt
  have := cols.isLt
  obtain ⟨w, hw⟩ : ∃ w, w = cols.val * 2 ^ 20 + rows.val * 2 ^ 15 + 3 * 2 ^ 12 + 21 * 4 + 3 := ⟨_, rfl⟩
  have A : Asm 0 cols.val rows.val 3 0 21 w := ⟨by rw [hw]; try omega, by decide, by omega, by omega, by decide, by decide, by decide⟩
  have f0 : bits w 6 2 = 21 := (b_6_2 A).trans (rfl)
  have f1 : bits w 14 12 = 3 := (b_14_12 A).trans (rfl)
  have f2 : bits w 31 28 = 0 := (b_31_28 A).trans (rfl)
  have f3 : bits w 27 25 = 0 := (b_27_25 A).trans (rfl)
  have f4 : bits w 24 20 = cols.val := (b_24_20 A).trans (by omega)
  have f5 : bits w 30 28 = 0 := (b_30_28 A).trans (rfl)
  have f6 : bits w 11 7 = 0 := (b_11_7 A).trans (rfl)
  have f7 : bits w 19 18 = 0 := (b_19_18 A).trans (by omega)
  have f8 : bits w 24 23 = 0 := (b_24_23 A).trans (by omega)
  have f9 : bit w 31 = false := t_31 A _ (rfl)
  have f10 : rg w 7 = (0 : Fin 32) := r_7_32 A (0 : Fin 32) (rfl)
  have f11 : Fin.ofNat 8 (w / 2 ^ 15) = rows := r_15_8 A rows (by omega)
  have f12 : Fin.ofNat 8 (w / 2 ^ 20) = cols := r_20_8 A cols (by omega)
  obtain ⟨w0, w4, wx⟩ := word_ok A (by decide)
  refine paired _ w pfx rfl hw.symm w0 w4 wx (by simp [tileMajor, f0]) ?_ (Option.isNone_iff_eq_none.mp (Bool.and_eq_true_iff.mp hwf).1)
  simp only [decMajor, decTileCmp, f0, f1, f2, f3, f4, f5, f6, f7, f8, f9, f10, f11, f12] <;> (try simp [failIf, withScope, port, scope_of, tint_of, tflt_of, fmt_of, cond_of, cmpFmt_of, partOk_eq, tflt_ne, tint_ne]) <;> (repeat' split) <;> first | rfl | (exfalso; omega)

theorem yield : Statement .yield := by
  intro _ hwf
  obtain ⟨w, hw⟩ : ∃ w, w = encR 0 0 0 0 0 10 := ⟨_, rfl⟩
  have A : Asm 0 0 0 0 0 10 w := ⟨by rw [hw]; first | decide | (simp only [encR] <;> omega), by decide, by decide, by decide, by decide, by decide, by decide⟩
  have f0 : bits w 6 2 = 10 := (b_6_2 A).trans (rfl)
  have f1 : bits w 14 12 = 0 := (b_14_12 A).trans (rfl)
  have f2 : bits w 31 25 = 0 := (b_31_25 A).trans (rfl)
  have f3 : bits w 11 7 = 0 := (b_11_7 A).trans (rfl)
  have f4 : bits w 19 15 = 0 := (b_19_15 A).trans (rfl)
  have f5 : bits w 24 20 = 0 := (b_24_20 A).trans (rfl)
  have f6 : bits w 31 23 = 0 := (b_31_23 A).trans (rfl)
  have f7 : bits w 22 22 = 0 := (b_22_22 A).trans (rfl)
  have f8 : rg w 15 = (0 : Fin 32) := r_15_32 A (0 : Fin 32) (rfl)
  have f9 : rg w 20 = (0 : Fin 32) := r_20_32 A (0 : Fin 32) (rfl)
  have f10 : rg w 7 = (0 : Fin 32) := r_7_32 A (0 : Fin 32) (rfl)
  have f11 : Fin.ofNat 4 (w / 2 ^ 20) = (0 : Fin 4) := r_20_4 A (0 : Fin 4) (rfl)
  obtain ⟨w0, w4, wx⟩ := word_ok A (by decide)
  refine single _ w rfl hw.symm w0 w4 wx ?_ rfl
  simp only [decMajor, decTask, f0, f1, f2, f3, f4, f5, f6, f7, f8, f9, f10, f11] <;> (try simp [failIf, withScope, port, scope_of, tint_of, tflt_of, fmt_of, cond_of, cmpFmt_of, partOk_eq, tflt_ne, tint_ne]) <;> (repeat' split) <;> first | rfl | (exfalso; omega)

theorem suspend (rs1 : Reg) : Statement (.suspend rs1) := by
  intro _ hwf
  have h2 : (plain rs1) = true := (Bool.and_eq_true_iff.mp hwf).2
  have := rs1.isLt
  obtain ⟨w, hw⟩ : ∃ w, w = encR 1 0 rs1 0 0 10 := ⟨_, rfl⟩
  have A : Asm 1 0 rs1.val 0 0 10 w := ⟨by rw [hw]; first | decide | (simp only [encR] <;> omega), by decide, by decide, by omega, by decide, by decide, by decide⟩
  have f0 : bits w 6 2 = 10 := (b_6_2 A).trans (rfl)
  have f1 : bits w 14 12 = 0 := (b_14_12 A).trans (rfl)
  have f2 : bits w 31 25 = 1 := (b_31_25 A).trans (rfl)
  have f3 : bits w 11 7 = 0 := (b_11_7 A).trans (rfl)
  have f4 : bits w 19 15 = rs1.val := (b_19_15 A).trans (by omega)
  have f5 : bits w 24 20 = 0 := (b_24_20 A).trans (rfl)
  have f6 : bits w 31 23 = 4 := (b_31_23 A).trans (rfl)
  have f7 : bits w 22 22 = 0 := (b_22_22 A).trans (rfl)
  have f8 : rg w 15 = rs1 := r_15_32 A rs1 (by omega)
  have f9 : rg w 20 = (0 : Fin 32) := r_20_32 A (0 : Fin 32) (rfl)
  have f10 : rg w 7 = (0 : Fin 32) := r_7_32 A (0 : Fin 32) (rfl)
  have f11 : Fin.ofNat 4 (w / 2 ^ 20) = (0 : Fin 4) := r_20_4 A (0 : Fin 4) (rfl)
  obtain ⟨w0, w4, wx⟩ := word_ok A (by decide)
  refine single _ w rfl hw.symm w0 w4 wx ?_ rfl
  try simp [plain] at h2
  simp only [decMajor, decTask, f0, f1, f2, f3, f4, f5, f6, f7, f8, f9, f10, f11] <;> (try simp [failIf, withScope, port, scope_of, tint_of, tflt_of, fmt_of, cond_of, cmpFmt_of, partOk_eq, tflt_ne, tint_ne, h2]) <;> (repeat' split) <;> first | rfl | (exfalso; omega)

theorem exit : Statement .exit := by
  intro _ hwf
  obtain ⟨w, hw⟩ : ∃ w, w = encR 2 0 0 0 0 10 := ⟨_, rfl⟩
  have A : Asm 2 0 0 0 0 10 w := ⟨by rw [hw]; first | decide | (simp only [encR] <;> omega), by decide, by decide, by decide, by decide, by decide, by decide⟩
  have f0 : bits w 6 2 = 10 := (b_6_2 A).trans (rfl)
  have f1 : bits w 14 12 = 0 := (b_14_12 A).trans (rfl)
  have f2 : bits w 31 25 = 2 := (b_31_25 A).trans (rfl)
  have f3 : bits w 11 7 = 0 := (b_11_7 A).trans (rfl)
  have f4 : bits w 19 15 = 0 := (b_19_15 A).trans (rfl)
  have f5 : bits w 24 20 = 0 := (b_24_20 A).trans (rfl)
  have f6 : bits w 31 23 = 8 := (b_31_23 A).trans (rfl)
  have f7 : bits w 22 22 = 0 := (b_22_22 A).trans (rfl)
  have f8 : rg w 15 = (0 : Fin 32) := r_15_32 A (0 : Fin 32) (rfl)
  have f9 : rg w 20 = (0 : Fin 32) := r_20_32 A (0 : Fin 32) (rfl)
  have f10 : rg w 7 = (0 : Fin 32) := r_7_32 A (0 : Fin 32) (rfl)
  have f11 : Fin.ofNat 4 (w / 2 ^ 20) = (0 : Fin 4) := r_20_4 A (0 : Fin 4) (rfl)
  obtain ⟨w0, w4, wx⟩ := word_ok A (by decide)
  refine single _ w rfl hw.symm w0 w4 wx ?_ rfl
  simp only [decMajor, decTask, f0, f1, f2, f3, f4, f5, f6, f7, f8, f9, f10, f11] <;> (try simp [failIf, withScope, port, scope_of, tint_of, tflt_of, fmt_of, cond_of, cmpFmt_of, partOk_eq, tflt_ne, tint_ne]) <;> (repeat' split) <;> first | rfl | (exfalso; omega)

theorem join (rs1 : Reg) : Statement (.join rs1) := by
  intro _ hwf
  have h2 : (plain rs1) = true := (Bool.and_eq_true_iff.mp hwf).2
  have := rs1.isLt
  obtain ⟨w, hw⟩ : ∃ w, w = encR 3 0 rs1 0 0 10 := ⟨_, rfl⟩
  have A : Asm 3 0 rs1.val 0 0 10 w := ⟨by rw [hw]; first | decide | (simp only [encR] <;> omega), by decide, by decide, by omega, by decide, by decide, by decide⟩
  have f0 : bits w 6 2 = 10 := (b_6_2 A).trans (rfl)
  have f1 : bits w 14 12 = 0 := (b_14_12 A).trans (rfl)
  have f2 : bits w 31 25 = 3 := (b_31_25 A).trans (rfl)
  have f3 : bits w 11 7 = 0 := (b_11_7 A).trans (rfl)
  have f4 : bits w 19 15 = rs1.val := (b_19_15 A).trans (by omega)
  have f5 : bits w 24 20 = 0 := (b_24_20 A).trans (rfl)
  have f6 : bits w 31 23 = 12 := (b_31_23 A).trans (rfl)
  have f7 : bits w 22 22 = 0 := (b_22_22 A).trans (rfl)
  have f8 : rg w 15 = rs1 := r_15_32 A rs1 (by omega)
  have f9 : rg w 20 = (0 : Fin 32) := r_20_32 A (0 : Fin 32) (rfl)
  have f10 : rg w 7 = (0 : Fin 32) := r_7_32 A (0 : Fin 32) (rfl)
  have f11 : Fin.ofNat 4 (w / 2 ^ 20) = (0 : Fin 4) := r_20_4 A (0 : Fin 4) (rfl)
  obtain ⟨w0, w4, wx⟩ := word_ok A (by decide)
  refine single _ w rfl hw.symm w0 w4 wx ?_ rfl
  try simp [plain] at h2
  simp only [decMajor, decTask, f0, f1, f2, f3, f4, f5, f6, f7, f8, f9, f10, f11] <;> (try simp [failIf, withScope, port, scope_of, tint_of, tflt_of, fmt_of, cond_of, cmpFmt_of, partOk_eq, tflt_ne, tint_ne, h2]) <;> (repeat' split) <;> first | rfl | (exfalso; omega)

theorem spawnl (rd : Reg) (rs1 : Reg) (rs2 : Reg) : Statement (.spawnl rd rs1 rs2) := by
  intro _ hwf
  have h2 : (plain rd && plain rs1 && plain rs2) = true := (Bool.and_eq_true_iff.mp hwf).2
  have := rd.isLt
  have := rs1.isLt
  have := rs2.isLt
  obtain ⟨w, hw⟩ : ∃ w, w = encR 4 rs2 rs1 0 rd 10 := ⟨_, rfl⟩
  have A : Asm 4 rs2.val rs1.val 0 rd.val 10 w := ⟨by rw [hw]; first | decide | (simp only [encR] <;> omega), by decide, by omega, by omega, by decide, by omega, by decide⟩
  have f0 : bits w 6 2 = 10 := (b_6_2 A).trans (rfl)
  have f1 : bits w 14 12 = 0 := (b_14_12 A).trans (rfl)
  have f2 : bits w 31 25 = 4 := (b_31_25 A).trans (rfl)
  have f3 : bits w 11 7 = rd.val := (b_11_7 A).trans (by omega)
  have f4 : bits w 19 15 = rs1.val := (b_19_15 A).trans (by omega)
  have f5 : bits w 24 20 = rs2.val := (b_24_20 A).trans (by omega)
  have f6 : rg w 15 = rs1 := r_15_32 A rs1 (by omega)
  have f7 : rg w 20 = rs2 := r_20_32 A rs2 (by omega)
  have f8 : rg w 7 = rd := r_7_32 A rd (by omega)
  obtain ⟨w0, w4, wx⟩ := word_ok A (by decide)
  refine single _ w rfl hw.symm w0 w4 wx ?_ rfl
  try simp [plain] at h2
  simp only [decMajor, decTask, f0, f1, f2, f3, f4, f5, f6, f7, f8] <;> (try simp [failIf, withScope, port, scope_of, tint_of, tflt_of, fmt_of, cond_of, cmpFmt_of, partOk_eq, tflt_ne, tint_ne, h2]) <;> (repeat' split) <;> first | rfl | (exfalso; omega)

theorem gang : Statement .gang := by
  intro _ hwf
  obtain ⟨w, hw⟩ : ∃ w, w = encR 5 0 0 0 0 10 := ⟨_, rfl⟩
  have A : Asm 5 0 0 0 0 10 w := ⟨by rw [hw]; first | decide | (simp only [encR] <;> omega), by decide, by decide, by decide, by decide, by decide, by decide⟩
  have f0 : bits w 6 2 = 10 := (b_6_2 A).trans (rfl)
  have f1 : bits w 14 12 = 0 := (b_14_12 A).trans (rfl)
  have f2 : bits w 31 25 = 5 := (b_31_25 A).trans (rfl)
  have f3 : bits w 11 7 = 0 := (b_11_7 A).trans (rfl)
  have f4 : bits w 19 15 = 0 := (b_19_15 A).trans (rfl)
  have f5 : bits w 24 20 = 0 := (b_24_20 A).trans (rfl)
  have f6 : bits w 31 23 = 20 := (b_31_23 A).trans (rfl)
  have f7 : bits w 22 22 = 0 := (b_22_22 A).trans (rfl)
  have f8 : rg w 15 = (0 : Fin 32) := r_15_32 A (0 : Fin 32) (rfl)
  have f9 : rg w 20 = (0 : Fin 32) := r_20_32 A (0 : Fin 32) (rfl)
  have f10 : rg w 7 = (0 : Fin 32) := r_7_32 A (0 : Fin 32) (rfl)
  have f11 : Fin.ofNat 4 (w / 2 ^ 20) = (0 : Fin 4) := r_20_4 A (0 : Fin 4) (rfl)
  obtain ⟨w0, w4, wx⟩ := word_ok A (by decide)
  refine single _ w rfl hw.symm w0 w4 wx ?_ rfl
  simp only [decMajor, decTask, f0, f1, f2, f3, f4, f5, f6, f7, f8, f9, f10, f11] <;> (try simp [failIf, withScope, port, scope_of, tint_of, tflt_of, fmt_of, cond_of, cmpFmt_of, partOk_eq, tflt_ne, tint_ne]) <;> (repeat' split) <;> first | rfl | (exfalso; omega)

theorem ungang : Statement .ungang := by
  intro _ hwf
  obtain ⟨w, hw⟩ : ∃ w, w = encR 6 0 0 0 0 10 := ⟨_, rfl⟩
  have A : Asm 6 0 0 0 0 10 w := ⟨by rw [hw]; first | decide | (simp only [encR] <;> omega), by decide, by decide, by decide, by decide, by decide, by decide⟩
  have f0 : bits w 6 2 = 10 := (b_6_2 A).trans (rfl)
  have f1 : bits w 14 12 = 0 := (b_14_12 A).trans (rfl)
  have f2 : bits w 31 25 = 6 := (b_31_25 A).trans (rfl)
  have f3 : bits w 11 7 = 0 := (b_11_7 A).trans (rfl)
  have f4 : bits w 19 15 = 0 := (b_19_15 A).trans (rfl)
  have f5 : bits w 24 20 = 0 := (b_24_20 A).trans (rfl)
  have f6 : bits w 31 23 = 24 := (b_31_23 A).trans (rfl)
  have f7 : bits w 22 22 = 0 := (b_22_22 A).trans (rfl)
  have f8 : rg w 15 = (0 : Fin 32) := r_15_32 A (0 : Fin 32) (rfl)
  have f9 : rg w 20 = (0 : Fin 32) := r_20_32 A (0 : Fin 32) (rfl)
  have f10 : rg w 7 = (0 : Fin 32) := r_7_32 A (0 : Fin 32) (rfl)
  have f11 : Fin.ofNat 4 (w / 2 ^ 20) = (0 : Fin 4) := r_20_4 A (0 : Fin 4) (rfl)
  obtain ⟨w0, w4, wx⟩ := word_ok A (by decide)
  refine single _ w rfl hw.symm w0 w4 wx ?_ rfl
  simp only [decMajor, decTask, f0, f1, f2, f3, f4, f5, f6, f7, f8, f9, f10, f11] <;> (try simp [failIf, withScope, port, scope_of, tint_of, tflt_of, fmt_of, cond_of, cmpFmt_of, partOk_eq, tflt_ne, tint_ne]) <;> (repeat' split) <;> first | rfl | (exfalso; omega)

theorem fork (xs : Reg) (xj : Reg) (off : Int) : Statement (.fork xs xj off) := by
  intro _ hwf
  have h2 : (inRange 12 off && plain xs && plain xj) = true := (Bool.and_eq_true_iff.mp hwf).2
  have := xs.isLt
  have := xj.isLt
  have := ux_lt 12 off
  obtain ⟨w, hw⟩ : ∃ w, w = encI (ux 12 off) xj 1 xs 10 := ⟨_, rfl⟩
  have A : Asm ((ux 12 off) / 32) ((ux 12 off) % 32) xj.val 1 xs.val 10 w := ⟨by rw [hw]; first | decide | (simp only [encI] <;> omega), by omega, by omega, by omega, by decide, by omega, by decide⟩
  have f0 : bits w 6 2 = 10 := (b_6_2 A).trans (rfl)
  have f1 : bits w 14 12 = 1 := (b_14_12 A).trans (rfl)
  have f2 : bits w 11 7 = xs.val := (b_11_7 A).trans (by omega)
  have f3 : bits w 19 15 = xj.val := (b_19_15 A).trans (by omega)
  have f4 : rg w 15 = xj := r_15_32 A xj (by omega)
  have f5 : rg w 7 = xs := r_7_32 A xs (by omega)
  have f6 : immI w = off := i_immI A off (by revert h2; simp; intros; assumption) (by omega)
  obtain ⟨w0, w4, wx⟩ := word_ok A (by decide)
  refine single _ w rfl hw.symm w0 w4 wx ?_ rfl
  try simp [plain] at h2
  simp only [decMajor, decTask, f0, f1, f2, f3, f4, f5, f6] <;> (try simp [failIf, withScope, port, scope_of, tint_of, tflt_of, fmt_of, cond_of, cmpFmt_of, partOk_eq, tflt_ne, tint_ne, h2]) <;> (repeat' split) <;> first | rfl | (exfalso; omega)

theorem spawn (rs1 : Reg) (prio : Fin 4) : Statement (.spawn rs1 prio) := by
  intro _ hwf
  have h2 : (plain rs1) = true := (Bool.and_eq_true_iff.mp hwf).2
  have := rs1.isLt
  have := prio.isLt
  obtain ⟨w, hw⟩ : ∃ w, w = encI prio.val rs1 2 0 10 := ⟨_, rfl⟩
  have A : Asm (prio.val / 32) (prio.val % 32) rs1.val 2 0 10 w := ⟨by rw [hw]; first | decide | (simp only [encI] <;> omega), by omega, by omega, by omega, by decide, by decide, by decide⟩
  have f0 : bits w 6 2 = 10 := (b_6_2 A).trans (rfl)
  have f1 : bits w 14 12 = 2 := (b_14_12 A).trans (rfl)
  have f2 : bits w 31 25 = 0 := (b_31_25 A).trans (by omega)
  have f3 : bits w 11 7 = 0 := (b_11_7 A).trans (rfl)
  have f4 : bits w 19 15 = rs1.val := (b_19_15 A).trans (by omega)
  have f5 : bits w 24 20 = prio.val := (b_24_20 A).trans (by omega)
  have f6 : bits w 31 23 = 0 := (b_31_23 A).trans (by omega)
  have f7 : bits w 22 22 = 0 := (b_22_22 A).trans (by omega)
  have f8 : rg w 15 = rs1 := r_15_32 A rs1 (by omega)
  have f9 : rg w 7 = (0 : Fin 32) := r_7_32 A (0 : Fin 32) (rfl)
  have f10 : Fin.ofNat 4 (w / 2 ^ 20) = prio := r_20_4 A prio (by omega)
  obtain ⟨w0, w4, wx⟩ := word_ok A (by decide)
  refine single _ w rfl hw.symm w0 w4 wx ?_ rfl
  try simp [plain] at h2
  simp only [decMajor, decTask, f0, f1, f2, f3, f4, f5, f6, f7, f8, f9, f10] <;> (try simp [failIf, withScope, port, scope_of, tint_of, tflt_of, fmt_of, cond_of, cmpFmt_of, partOk_eq, tflt_ne, tint_ne, h2]) <;> (repeat' split) <;> first | rfl | (exfalso; omega)

theorem spawnN (rs1 : Reg) (prio : Fin 4) : Statement (.spawnN rs1 prio) := by
  intro _ hwf
  have h2 : (plain rs1) = true := (Bool.and_eq_true_iff.mp hwf).2
  have := rs1.isLt
  have := prio.isLt
  obtain ⟨w, hw⟩ : ∃ w, w = encI (4 + prio.val) rs1 2 0 10 := ⟨_, rfl⟩
  have A : Asm ((4 + prio.val) / 32) ((4 + prio.val) % 32) rs1.val 2 0 10 w := ⟨by rw [hw]; first | decide | (simp only [encI] <;> omega), by omega, by omega, by omega, by decide, by decide, by decide⟩
  have f0 : bits w 6 2 = 10 := (b_6_2 A).trans (rfl)
  have f1 : bits w 14 12 = 2 := (b_14_12 A).trans (rfl)
  have f2 : bits w 31 25 = 0 := (b_31_25 A).trans (by omega)
  have f3 : bits w 11 7 = 0 := (b_11_7 A).trans (rfl)
  have f4 : bits w 19 15 = rs1.val := (b_19_15 A).trans (by omega)
  have f5 : bits w 31 23 = 0 := (b_31_23 A).trans (by omega)
  have f6 : bits w 22 22 = 1 := (b_22_22 A).trans (by omega)
  have f7 : rg w 15 = rs1 := r_15_32 A rs1 (by omega)
  have f8 : rg w 7 = (0 : Fin 32) := r_7_32 A (0 : Fin 32) (rfl)
  have f9 : Fin.ofNat 4 (w / 2 ^ 20) = prio := r_20_4 A prio (by omega)
  obtain ⟨w0, w4, wx⟩ := word_ok A (by decide)
  refine single _ w rfl hw.symm w0 w4 wx ?_ rfl
  try simp [plain] at h2
  simp only [decMajor, decTask, f0, f1, f2, f3, f4, f5, f6, f7, f8, f9] <;> (try simp [failIf, withScope, port, scope_of, tint_of, tflt_of, fmt_of, cond_of, cmpFmt_of, partOk_eq, tflt_ne, tint_ne, h2]) <;> (repeat' split) <;> first | rfl | (exfalso; omega)

theorem send (rd : Reg) (rs1 : Reg) (rs2 : Reg) (n : Fin 4) (sc : Scope) : Statement (.send rd rs1 rs2 n sc) := by
  intro _ hwf
  have h2 : (plain rd && plain rs1 && plain rs2) = true := (Bool.and_eq_true_iff.mp hwf).2
  have := rd.isLt
  have := rs1.isLt
  have := rs2.isLt
  have := n.isLt
  have := scope_lt sc
  obtain ⟨w, hw⟩ : ∃ w, w = encR (sc.code * 16 + n.val) rs2 rs1 0 rd 15 := ⟨_, rfl⟩
  have A : Asm ((sc.code * 16 + n.val)) rs2.val rs1.val 0 rd.val 15 w := ⟨by rw [hw]; first | decide | (simp only [encR] <;> omega), by omega, by omega, by omega, by decide, by omega, by decide⟩
  have f0 : bits w 6 2 = 15 := (b_6_2 A).trans (rfl)
  have f1 : bits w 14 12 = 0 := (b_14_12 A).trans (rfl)
  have f2 : bits w 24 20 = rs2.val := (b_24_20 A).trans (by omega)
  have f3 : bits w 11 7 = rd.val := (b_11_7 A).trans (by omega)
  have f4 : bits w 19 15 = rs1.val := (b_19_15 A).trans (by omega)
  have f5 : bits w 27 27 = 0 := (b_27_27 A).trans (by omega)
  have f6 : bits w 31 29 = sc.code := (b_31_29 A).trans (by omega)
  have f7 : bits w 28 28 = 0 := (b_28_28 A).trans (by omega)
  have f8 : rg w 15 = rs1 := r_15_32 A rs1 (by omega)
  have f9 : rg w 20 = rs2 := r_20_32 A rs2 (by omega)
  have f10 : rg w 7 = rd := r_7_32 A rd (by omega)
  have f11 : Fin.ofNat 4 (w / 2 ^ 25) = n := r_25_4 A n (by omega)
  obtain ⟨w0, w4, wx⟩ := word_ok A (by decide)
  refine single _ w rfl hw.symm w0 w4 wx ?_ rfl
  try simp [plain] at h2
  simp only [decMajor, decMsg, f0, f1, f2, f3, f4, f5, f6, f7, f8, f9, f10, f11] <;> (try simp [failIf, withScope, port, scope_of, tint_of, tflt_of, fmt_of, cond_of, cmpFmt_of, partOk_eq, tflt_ne, tint_ne, h2]) <;> (repeat' split) <;> first | rfl | (exfalso; omega)

theorem sendp (rd : Reg) (rs1 : Reg) (rs2 : Reg) (n : Fin 4) (sc : Scope) : Statement (.sendp rd rs1 rs2 n sc) := by
  intro _ hwf
  have h2 : (plain rd && plain rs1 && plain rs2) = true := (Bool.and_eq_true_iff.mp hwf).2
  have := rd.isLt
  have := rs1.isLt
  have := rs2.isLt
  have := n.isLt
  have := scope_lt sc
  obtain ⟨w, hw⟩ : ∃ w, w = encR (sc.code * 16 + 8 + n.val) rs2 rs1 0 rd 15 := ⟨_, rfl⟩
  have A : Asm ((sc.code * 16 + 8 + n.val)) rs2.val rs1.val 0 rd.val 15 w := ⟨by rw [hw]; first | decide | (simp only [encR] <;> omega), by omega, by omega, by omega, by decide, by omega, by decide⟩
  have f0 : bits w 6 2 = 15 := (b_6_2 A).trans (rfl)
  have f1 : bits w 14 12 = 0 := (b_14_12 A).trans (rfl)
  have f2 : bits w 24 20 = rs2.val := (b_24_20 A).trans (by omega)
  have f3 : bits w 11 7 = rd.val := (b_11_7 A).trans (by omega)
  have f4 : bits w 19 15 = rs1.val := (b_19_15 A).trans (by omega)
  have f5 : bits w 27 27 = 0 := (b_27_27 A).trans (by omega)
  have f6 : bits w 31 29 = sc.code := (b_31_29 A).trans (by omega)
  have f7 : bits w 28 28 = 1 := (b_28_28 A).trans (by omega)
  have f8 : rg w 15 = rs1 := r_15_32 A rs1 (by omega)
  have f9 : rg w 20 = rs2 := r_20_32 A rs2 (by omega)
  have f10 : rg w 7 = rd := r_7_32 A rd (by omega)
  have f11 : Fin.ofNat 4 (w / 2 ^ 25) = n := r_25_4 A n (by omega)
  obtain ⟨w0, w4, wx⟩ := word_ok A (by decide)
  refine single _ w rfl hw.symm w0 w4 wx ?_ rfl
  try simp [plain] at h2
  simp only [decMajor, decMsg, f0, f1, f2, f3, f4, f5, f6, f7, f8, f9, f10, f11] <;> (try simp [failIf, withScope, port, scope_of, tint_of, tflt_of, fmt_of, cond_of, cmpFmt_of, partOk_eq, tflt_ne, tint_ne, h2]) <;> (repeat' split) <;> first | rfl | (exfalso; omega)

theorem tagen (rd : Reg) (rs1 : Reg) : Statement (.tagen rd rs1) := by
  intro _ hwf
  have h2 : (plain rd && plain rs1) = true := (Bool.and_eq_true_iff.mp hwf).2
  have := rd.isLt
  have := rs1.isLt
  obtain ⟨w, hw⟩ : ∃ w, w = encR 0 0 rs1 1 rd 15 := ⟨_, rfl⟩
  have A : Asm 0 0 rs1.val 1 rd.val 15 w := ⟨by rw [hw]; first | decide | (simp only [encR] <;> omega), by decide, by decide, by omega, by decide, by omega, by decide⟩
  have f0 : bits w 6 2 = 15 := (b_6_2 A).trans (rfl)
  have f1 : bits w 14 12 = 1 := (b_14_12 A).trans (rfl)
  have f2 : bits w 31 25 = 0 := (b_31_25 A).trans (rfl)
  have f3 : bits w 24 20 = 0 := (b_24_20 A).trans (rfl)
  have f4 : bits w 11 7 = rd.val := (b_11_7 A).trans (by omega)
  have f5 : bits w 19 15 = rs1.val := (b_19_15 A).trans (by omega)
  have f6 : bits w 31 28 = 0 := (b_31_28 A).trans (rfl)
  have f7 : bits w 27 27 = 0 := (b_27_27 A).trans (rfl)
  have f8 : bits w 31 29 = 0 := (b_31_29 A).trans (rfl)
  have f9 : bits w 28 28 = 0 := (b_28_28 A).trans (rfl)
  have f10 : bits w 31 22 = 0 := (b_31_22 A).trans (rfl)
  have f11 : bits w 27 26 = 0 := (b_27_26 A).trans (rfl)
  have f12 : rg w 15 = rs1 := r_15_32 A rs1 (by omega)
  have f13 : rg w 20 = (0 : Fin 32) := r_20_32 A (0 : Fin 32) (rfl)
  have f14 : rg w 7 = rd := r_7_32 A rd (by omega)
  have f15 : Fin.ofNat 4 (w / 2 ^ 20) = (0 : Fin 4) := r_20_4 A (0 : Fin 4) (rfl)
  have f16 : Fin.ofNat 4 (w / 2 ^ 25) = (0 : Fin 4) := r_25_4 A (0 : Fin 4) (rfl)
  have f17 : Fin.ofNat 64 (w / 2 ^ 20) = (0 : Fin 64) := r_20_64 A (0 : Fin 64) (rfl)
  obtain ⟨w0, w4, wx⟩ := word_ok A (by decide)
  refine single _ w rfl hw.symm w0 w4 wx ?_ rfl
  try simp [plain] at h2
  simp only [decMajor, decMsg, f0, f1, f2, f3, f4, f5, f6, f7, f8, f9, f10, f11, f12, f13, f14, f15, f16, f17] <;> (try simp [failIf, withScope, port, scope_of, tint_of, tflt_of, fmt_of, cond_of, cmpFmt_of, partOk_eq, tflt_ne, tint_ne, h2]) <;> (repeat' split) <;> first | rfl | (exfalso; omega)

theorem tagdis (rd : Reg) (rs1 : Reg) : Statement (.tagdis rd rs1) := by
  intro _ hwf
  have h2 : (plain rd && plain rs1) = true := (Bool.and_eq_true_iff.mp hwf).2
  have := rd.isLt
  have := rs1.isLt
  obtain ⟨w, hw⟩ : ∃ w, w = encR 1 0 rs1 1 rd 15 := ⟨_, rfl⟩
  have A : Asm 1 0 rs1.val 1 rd.val 15 w := ⟨by rw [hw]; first | decide | (simp only [encR] <;> omega), by decide, by decide, by omega, by decide, by omega, by decide⟩
  have f0 : bits w 6 2 = 15 := (b_6_2 A).trans (rfl)
  have f1 : bits w 14 12 = 1 := (b_14_12 A).trans (rfl)
  have f2 : bits w 31 25 = 1 := (b_31_25 A).trans (rfl)
  have f3 : bits w 24 20 = 0 := (b_24_20 A).trans (rfl)
  have f4 : bits w 11 7 = rd.val := (b_11_7 A).trans (by omega)
  have f5 : bits w 19 15 = rs1.val := (b_19_15 A).trans (by omega)
  have f6 : bits w 31 28 = 0 := (b_31_28 A).trans (rfl)
  have f7 : bits w 27 27 = 0 := (b_27_27 A).trans (rfl)
  have f8 : bits w 31 29 = 0 := (b_31_29 A).trans (rfl)
  have f9 : bits w 28 28 = 0 := (b_28_28 A).trans (rfl)
  have f10 : bits w 31 22 = 8 := (b_31_22 A).trans (rfl)
  have f11 : bits w 27 26 = 0 := (b_27_26 A).trans (rfl)
  have f12 : rg w 15 = rs1 := r_15_32 A rs1 (by omega)
  have f13 : rg w 20 = (0 : Fin 32) := r_20_32 A (0 : Fin 32) (rfl)
  have f14 : rg w 7 = rd := r_7_32 A rd (by omega)
  have f15 : Fin.ofNat 4 (w / 2 ^ 20) = (0 : Fin 4) := r_20_4 A (0 : Fin 4) (rfl)
  have f16 : Fin.ofNat 4 (w / 2 ^ 25) = (1 : Fin 4) := r_25_4 A (1 : Fin 4) (rfl)
  have f17 : Fin.ofNat 64 (w / 2 ^ 20) = (32 : Fin 64) := r_20_64 A (32 : Fin 64) (rfl)
  obtain ⟨w0, w4, wx⟩ := word_ok A (by decide)
  refine single _ w rfl hw.symm w0 w4 wx ?_ rfl
  try simp [plain] at h2
  simp only [decMajor, decMsg, f0, f1, f2, f3, f4, f5, f6, f7, f8, f9, f10, f11, f12, f13, f14, f15, f16, f17] <;> (try simp [failIf, withScope, port, scope_of, tint_of, tflt_of, fmt_of, cond_of, cmpFmt_of, partOk_eq, tflt_ne, tint_ne, h2]) <;> (repeat' split) <;> first | rfl | (exfalso; omega)

theorem tagset (rd : Reg) (rs1 : Reg) : Statement (.tagset rd rs1) := by
  intro _ hwf
  have h2 : (plain rd && plain rs1) = true := (Bool.and_eq_true_iff.mp hwf).2
  have := rd.isLt
  have := rs1.isLt
  obtain ⟨w, hw⟩ : ∃ w, w = encR 2 0 rs1 1 rd 15 := ⟨_, rfl⟩
  have A : Asm 2 0 rs1.val 1 rd.val 15 w := ⟨by rw [hw]; first | decide | (simp only [encR] <;> omega), by decide, by decide, by omega, by decide, by omega, by decide⟩
  have f0 : bits w 6 2 = 15 := (b_6_2 A).trans (rfl)
  have f1 : bits w 14 12 = 1 := (b_14_12 A).trans (rfl)
  have f2 : bits w 31 25 = 2 := (b_31_25 A).trans (rfl)
  have f3 : bits w 24 20 = 0 := (b_24_20 A).trans (rfl)
  have f4 : bits w 11 7 = rd.val := (b_11_7 A).trans (by omega)
  have f5 : bits w 19 15 = rs1.val := (b_19_15 A).trans (by omega)
  have f6 : bits w 31 28 = 0 := (b_31_28 A).trans (rfl)
  have f7 : bits w 27 27 = 0 := (b_27_27 A).trans (rfl)
  have f8 : bits w 31 29 = 0 := (b_31_29 A).trans (rfl)
  have f9 : bits w 28 28 = 0 := (b_28_28 A).trans (rfl)
  have f10 : bits w 31 22 = 16 := (b_31_22 A).trans (rfl)
  have f11 : bits w 27 26 = 1 := (b_27_26 A).trans (rfl)
  have f12 : rg w 15 = rs1 := r_15_32 A rs1 (by omega)
  have f13 : rg w 20 = (0 : Fin 32) := r_20_32 A (0 : Fin 32) (rfl)
  have f14 : rg w 7 = rd := r_7_32 A rd (by omega)
  have f15 : Fin.ofNat 4 (w / 2 ^ 20) = (0 : Fin 4) := r_20_4 A (0 : Fin 4) (rfl)
  have f16 : Fin.ofNat 4 (w / 2 ^ 25) = (2 : Fin 4) := r_25_4 A (2 : Fin 4) (rfl)
  have f17 : Fin.ofNat 64 (w / 2 ^ 20) = (0 : Fin 64) := r_20_64 A (0 : Fin 64) (rfl)
  obtain ⟨w0, w4, wx⟩ := word_ok A (by decide)
  refine single _ w rfl hw.symm w0 w4 wx ?_ rfl
  try simp [plain] at h2
  simp only [decMajor, decMsg, f0, f1, f2, f3, f4, f5, f6, f7, f8, f9, f10, f11, f12, f13, f14, f15, f16, f17] <;> (try simp [failIf, withScope, port, scope_of, tint_of, tflt_of, fmt_of, cond_of, cmpFmt_of, partOk_eq, tflt_ne, tint_ne, h2]) <;> (repeat' split) <;> first | rfl | (exfalso; omega)

theorem tagclr (rd : Reg) (rs1 : Reg) : Statement (.tagclr rd rs1) := by
  intro _ hwf
  have h2 : (plain rd && plain rs1) = true := (Bool.and_eq_true_iff.mp hwf).2
  have := rd.isLt
  have := rs1.isLt
  obtain ⟨w, hw⟩ : ∃ w, w = encR 3 0 rs1 1 rd 15 := ⟨_, rfl⟩
  have A : Asm 3 0 rs1.val 1 rd.val 15 w := ⟨by rw [hw]; first | decide | (simp only [encR] <;> omega), by decide, by decide, by omega, by decide, by omega, by decide⟩
  have f0 : bits w 6 2 = 15 := (b_6_2 A).trans (rfl)
  have f1 : bits w 14 12 = 1 := (b_14_12 A).trans (rfl)
  have f2 : bits w 31 25 = 3 := (b_31_25 A).trans (rfl)
  have f3 : bits w 24 20 = 0 := (b_24_20 A).trans (rfl)
  have f4 : bits w 11 7 = rd.val := (b_11_7 A).trans (by omega)
  have f5 : bits w 19 15 = rs1.val := (b_19_15 A).trans (by omega)
  have f6 : bits w 31 28 = 0 := (b_31_28 A).trans (rfl)
  have f7 : bits w 27 27 = 0 := (b_27_27 A).trans (rfl)
  have f8 : bits w 31 29 = 0 := (b_31_29 A).trans (rfl)
  have f9 : bits w 28 28 = 0 := (b_28_28 A).trans (rfl)
  have f10 : bits w 31 22 = 24 := (b_31_22 A).trans (rfl)
  have f11 : bits w 27 26 = 1 := (b_27_26 A).trans (rfl)
  have f12 : rg w 15 = rs1 := r_15_32 A rs1 (by omega)
  have f13 : rg w 20 = (0 : Fin 32) := r_20_32 A (0 : Fin 32) (rfl)
  have f14 : rg w 7 = rd := r_7_32 A rd (by omega)
  have f15 : Fin.ofNat 4 (w / 2 ^ 20) = (0 : Fin 4) := r_20_4 A (0 : Fin 4) (rfl)
  have f16 : Fin.ofNat 4 (w / 2 ^ 25) = (3 : Fin 4) := r_25_4 A (3 : Fin 4) (rfl)
  have f17 : Fin.ofNat 64 (w / 2 ^ 20) = (32 : Fin 64) := r_20_64 A (32 : Fin 64) (rfl)
  obtain ⟨w0, w4, wx⟩ := word_ok A (by decide)
  refine single _ w rfl hw.symm w0 w4 wx ?_ rfl
  try simp [plain] at h2
  simp only [decMajor, decMsg, f0, f1, f2, f3, f4, f5, f6, f7, f8, f9, f10, f11, f12, f13, f14, f15, f16, f17] <;> (try simp [failIf, withScope, port, scope_of, tint_of, tflt_of, fmt_of, cond_of, cmpFmt_of, partOk_eq, tflt_ne, tint_ne, h2]) <;> (repeat' split) <;> first | rfl | (exfalso; omega)

theorem tagq (rd : Reg) (rs1 : Reg) : Statement (.tagq rd rs1) := by
  intro _ hwf
  have h2 : (plain rd && plain rs1) = true := (Bool.and_eq_true_iff.mp hwf).2
  have := rd.isLt
  have := rs1.isLt
  obtain ⟨w, hw⟩ : ∃ w, w = encR 4 0 rs1 1 rd 15 := ⟨_, rfl⟩
  have A : Asm 4 0 rs1.val 1 rd.val 15 w := ⟨by rw [hw]; first | decide | (simp only [encR] <;> omega), by decide, by decide, by omega, by decide, by omega, by decide⟩
  have f0 : bits w 6 2 = 15 := (b_6_2 A).trans (rfl)
  have f1 : bits w 14 12 = 1 := (b_14_12 A).trans (rfl)
  have f2 : bits w 31 25 = 4 := (b_31_25 A).trans (rfl)
  have f3 : bits w 24 20 = 0 := (b_24_20 A).trans (rfl)
  have f4 : bits w 11 7 = rd.val := (b_11_7 A).trans (by omega)
  have f5 : bits w 19 15 = rs1.val := (b_19_15 A).trans (by omega)
  have f6 : bits w 31 28 = 0 := (b_31_28 A).trans (rfl)
  have f7 : bits w 27 27 = 1 := (b_27_27 A).trans (rfl)
  have f8 : bits w 31 29 = 0 := (b_31_29 A).trans (rfl)
  have f9 : bits w 28 28 = 0 := (b_28_28 A).trans (rfl)
  have f10 : bits w 31 22 = 32 := (b_31_22 A).trans (rfl)
  have f11 : bits w 27 26 = 2 := (b_27_26 A).trans (rfl)
  have f12 : rg w 15 = rs1 := r_15_32 A rs1 (by omega)
  have f13 : rg w 20 = (0 : Fin 32) := r_20_32 A (0 : Fin 32) (rfl)
  have f14 : rg w 7 = rd := r_7_32 A rd (by omega)
  have f15 : Fin.ofNat 4 (w / 2 ^ 20) = (0 : Fin 4) := r_20_4 A (0 : Fin 4) (rfl)
  have f16 : Fin.ofNat 4 (w / 2 ^ 25) = (0 : Fin 4) := r_25_4 A (0 : Fin 4) (rfl)
  have f17 : Fin.ofNat 64 (w / 2 ^ 20) = (0 : Fin 64) := r_20_64 A (0 : Fin 64) (rfl)
  obtain ⟨w0, w4, wx⟩ := word_ok A (by decide)
  refine single _ w rfl hw.symm w0 w4 wx ?_ rfl
  try simp [plain] at h2
  simp only [decMajor, decMsg, f0, f1, f2, f3, f4, f5, f6, f7, f8, f9, f10, f11, f12, f13, f14, f15, f16, f17] <;> (try simp [failIf, withScope, port, scope_of, tint_of, tflt_of, fmt_of, cond_of, cmpFmt_of, partOk_eq, tflt_ne, tint_ne, h2]) <;> (repeat' split) <;> first | rfl | (exfalso; omega)

theorem tagw (rs1 : Reg) (rs2 : Reg) (xc : Reg) : Statement (.tagw rs1 rs2 xc) := by
  intro _ hwf
  have h2 : (plain rs1 && plain rs2 && plain xc) = true := (Bool.and_eq_true_iff.mp hwf).2
  have := rs1.isLt
  have := rs2.isLt
  have := xc.isLt
  obtain ⟨w, hw⟩ : ∃ w, w = encR 5 rs2 rs1 1 xc 15 := ⟨_, rfl⟩
  have A : Asm 5 rs2.val rs1.val 1 xc.val 15 w := ⟨by rw [hw]; first | decide | (simp only [encR] <;> omega), by decide, by omega, by omega, by decide, by omega, by decide⟩
  have f0 : bits w 6 2 = 15 := (b_6_2 A).trans (rfl)
  have f1 : bits w 14 12 = 1 := (b_14_12 A).trans (rfl)
  have f2 : bits w 31 25 = 5 := (b_31_25 A).trans (rfl)
  have f3 : bits w 24 20 = rs2.val := (b_24_20 A).trans (by omega)
  have f4 : bits w 11 7 = xc.val := (b_11_7 A).trans (by omega)
  have f5 : bits w 19 15 = rs1.val := (b_19_15 A).trans (by omega)
  have f6 : bits w 31 28 = 0 := (b_31_28 A).trans (rfl)
  have f7 : bits w 27 27 = 1 := (b_27_27 A).trans (rfl)
  have f8 : bits w 31 29 = 0 := (b_31_29 A).trans (rfl)
  have f9 : bits w 28 28 = 0 := (b_28_28 A).trans (rfl)
  have f10 : bits w 27 26 = 2 := (b_27_26 A).trans (rfl)
  have f11 : rg w 15 = rs1 := r_15_32 A rs1 (by omega)
  have f12 : rg w 20 = rs2 := r_20_32 A rs2 (by omega)
  have f13 : rg w 7 = xc := r_7_32 A xc (by omega)
  have f14 : Fin.ofNat 4 (w / 2 ^ 25) = (1 : Fin 4) := r_25_4 A (1 : Fin 4) (rfl)
  obtain ⟨w0, w4, wx⟩ := word_ok A (by decide)
  refine single _ w rfl hw.symm w0 w4 wx ?_ rfl
  try simp [plain] at h2
  simp only [decMajor, decMsg, f0, f1, f2, f3, f4, f5, f6, f7, f8, f9, f10, f11, f12, f13, f14] <;> (try simp [failIf, withScope, port, scope_of, tint_of, tflt_of, fmt_of, cond_of, cmpFmt_of, partOk_eq, tflt_ne, tint_ne, h2]) <;> (repeat' split) <;> first | rfl | (exfalso; omega)

theorem wait (rs1 : Reg) (grp : Fin 4) : Statement (.wait rs1 grp) := by
  intro _ hwf
  have h2 : (plain rs1) = true := (Bool.and_eq_true_iff.mp hwf).2
  have := rs1.isLt
  have := grp.isLt
  obtain ⟨w, hw⟩ : ∃ w, w = encI grp.val rs1 2 0 15 := ⟨_, rfl⟩
  have A : Asm (grp.val / 32) (grp.val % 32) rs1.val 2 0 15 w := ⟨by rw [hw]; first | decide | (simp only [encI] <;> omega), by omega, by omega, by omega, by decide, by decide, by decide⟩
  have f0 : bits w 6 2 = 15 := (b_6_2 A).trans (rfl)
  have f1 : bits w 14 12 = 2 := (b_14_12 A).trans (rfl)
  have f2 : bits w 31 25 = 0 := (b_31_25 A).trans (by omega)
  have f3 : bits w 24 20 = grp.val := (b_24_20 A).trans (by omega)
  have f4 : bits w 11 7 = 0 := (b_11_7 A).trans (rfl)
  have f5 : bits w 19 15 = rs1.val := (b_19_15 A).trans (by omega)
  have f6 : bits w 31 28 = 0 := (b_31_28 A).trans (by omega)
  have f7 : bits w 27 27 = 0 := (b_27_27 A).trans (by omega)
  have f8 : bits w 31 29 = 0 := (b_31_29 A).trans (by omega)
  have f9 : bits w 28 28 = 0 := (b_28_28 A).trans (by omega)
  have f10 : bits w 31 22 = 0 := (b_31_22 A).trans (by omega)
  have f11 : bits w 27 26 = 0 := (b_27_26 A).trans (by omega)
  have f12 : rg w 15 = rs1 := r_15_32 A rs1 (by omega)
  have f13 : rg w 7 = (0 : Fin 32) := r_7_32 A (0 : Fin 32) (rfl)
  have f14 : Fin.ofNat 4 (w / 2 ^ 20) = grp := r_20_4 A grp (by omega)
  have f15 : Fin.ofNat 4 (w / 2 ^ 25) = (0 : Fin 4) := r_25_4 A (0 : Fin 4) (by simp <;> omega)
  obtain ⟨w0, w4, wx⟩ := word_ok A (by decide)
  refine single _ w rfl hw.symm w0 w4 wx ?_ rfl
  try simp [plain] at h2
  simp only [decMajor, decMsg, f0, f1, f2, f3, f4, f5, f6, f7, f8, f9, f10, f11, f12, f13, f14, f15] <;> (try simp [failIf, withScope, port, scope_of, tint_of, tflt_of, fmt_of, cond_of, cmpFmt_of, partOk_eq, tflt_ne, tint_ne, h2]) <;> (repeat' split) <;> first | rfl | (exfalso; omega)

theorem bara (d : Fin 64) : Statement (.bara d) := by
  intro _ hwf
  have := d.isLt
  obtain ⟨w, hw⟩ : ∃ w, w = encI (0 * 64 + d.val) 0 3 0 15 := ⟨_, rfl⟩
  have A : Asm ((0 * 64 + d.val) / 32) ((0 * 64 + d.val) % 32) 0 3 0 15 w := ⟨by rw [hw]; first | decide | (simp only [encI] <;> omega), by omega, by omega, by decide, by decide, by decide, by decide⟩
  have f0 : bits w 6 2 = 15 := (b_6_2 A).trans (rfl)
  have f1 : bits w 14 12 = 3 := (b_14_12 A).trans (rfl)
  have f2 : bits w 11 7 = 0 := (b_11_7 A).trans (rfl)
  have f3 : bits w 19 15 = 0 := (b_19_15 A).trans (rfl)
  have f4 : bits w 31 28 = 0 := (b_31_28 A).trans (by omega)
  have f5 : bits w 27 27 = 0 := (b_27_27 A).trans (by omega)
  have f6 : bits w 31 29 = 0 := (b_31_29 A).trans (by omega)
  have f7 : bits w 28 28 = 0 := (b_28_28 A).trans (by omega)
  have f8 : bits w 27 26 = 0 := (b_27_26 A).trans (by omega)
  have f9 : rg w 15 = (0 : Fin 32) := r_15_32 A (0 : Fin 32) (rfl)
  have f10 : rg w 7 = (0 : Fin 32) := r_7_32 A (0 : Fin 32) (rfl)
  have f11 : Fin.ofNat 64 (w / 2 ^ 20) = d := r_20_64 A d (by omega)
  obtain ⟨w0, w4, wx⟩ := word_ok A (by decide)
  refine single _ w rfl hw.symm w0 w4 wx ?_ rfl
  simp only [decMajor, decMsg, f0, f1, f2, f3, f4, f5, f6, f7, f8, f9, f10, f11] <;> (try simp [failIf, withScope, port, scope_of, tint_of, tflt_of, fmt_of, cond_of, cmpFmt_of, partOk_eq, tflt_ne, tint_ne]) <;> (repeat' split) <;> first | rfl | (exfalso; omega)

theorem barw (d : Fin 64) : Statement (.barw d) := by
  intro _ hwf
  have := d.isLt
  obtain ⟨w, hw⟩ : ∃ w, w = encI (1 * 64 + d.val) 0 3 0 15 := ⟨_, rfl⟩
  have A : Asm ((1 * 64 + d.val) / 32) ((1 * 64 + d.val) % 32) 0 3 0 15 w := ⟨by rw [hw]; first | decide | (simp only [encI] <;> omega), by omega, by omega, by decide, by decide, by decide, by decide⟩
  have f0 : bits w 6 2 = 15 := (b_6_2 A).trans (rfl)
  have f1 : bits w 14 12 = 3 := (b_14_12 A).trans (rfl)
  have f2 : bits w 11 7 = 0 := (b_11_7 A).trans (rfl)
  have f3 : bits w 19 15 = 0 := (b_19_15 A).trans (rfl)
  have f4 : bits w 31 28 = 0 := (b_31_28 A).trans (by omega)
  have f5 : bits w 27 27 = 0 := (b_27_27 A).trans (by omega)
  have f6 : bits w 31 29 = 0 := (b_31_29 A).trans (by omega)
  have f7 : bits w 28 28 = 0 := (b_28_28 A).trans (by omega)
  have f8 : bits w 27 26 = 1 := (b_27_26 A).trans (by omega)
  have f9 : rg w 15 = (0 : Fin 32) := r_15_32 A (0 : Fin 32) (rfl)
  have f10 : rg w 7 = (0 : Fin 32) := r_7_32 A (0 : Fin 32) (rfl)
  have f11 : Fin.ofNat 64 (w / 2 ^ 20) = d := r_20_64 A d (by omega)
  obtain ⟨w0, w4, wx⟩ := word_ok A (by decide)
  refine single _ w rfl hw.symm w0 w4 wx ?_ rfl
  simp only [decMajor, decMsg, f0, f1, f2, f3, f4, f5, f6, f7, f8, f9, f10, f11] <;> (try simp [failIf, withScope, port, scope_of, tint_of, tflt_of, fmt_of, cond_of, cmpFmt_of, partOk_eq, tflt_ne, tint_ne]) <;> (repeat' split) <;> first | rfl | (exfalso; omega)

theorem bar (d : Fin 64) : Statement (.bar d) := by
  intro _ hwf
  have := d.isLt
  obtain ⟨w, hw⟩ : ∃ w, w = encI (2 * 64 + d.val) 0 3 0 15 := ⟨_, rfl⟩
  have A : Asm ((2 * 64 + d.val) / 32) ((2 * 64 + d.val) % 32) 0 3 0 15 w := ⟨by rw [hw]; first | decide | (simp only [encI] <;> omega), by omega, by omega, by decide, by decide, by decide, by decide⟩
  have f0 : bits w 6 2 = 15 := (b_6_2 A).trans (rfl)
  have f1 : bits w 14 12 = 3 := (b_14_12 A).trans (rfl)
  have f2 : bits w 11 7 = 0 := (b_11_7 A).trans (rfl)
  have f3 : bits w 19 15 = 0 := (b_19_15 A).trans (rfl)
  have f4 : bits w 31 28 = 0 := (b_31_28 A).trans (by omega)
  have f5 : bits w 27 27 = 1 := (b_27_27 A).trans (by omega)
  have f6 : bits w 31 29 = 0 := (b_31_29 A).trans (by omega)
  have f7 : bits w 28 28 = 0 := (b_28_28 A).trans (by omega)
  have f8 : bits w 27 26 = 2 := (b_27_26 A).trans (by omega)
  have f9 : rg w 15 = (0 : Fin 32) := r_15_32 A (0 : Fin 32) (rfl)
  have f10 : rg w 7 = (0 : Fin 32) := r_7_32 A (0 : Fin 32) (rfl)
  have f11 : Fin.ofNat 64 (w / 2 ^ 20) = d := r_20_64 A d (by omega)
  obtain ⟨w0, w4, wx⟩ := word_ok A (by decide)
  refine single _ w rfl hw.symm w0 w4 wx ?_ rfl
  simp only [decMajor, decMsg, f0, f1, f2, f3, f4, f5, f6, f7, f8, f9, f10, f11] <;> (try simp [failIf, withScope, port, scope_of, tint_of, tflt_of, fmt_of, cond_of, cmpFmt_of, partOk_eq, tflt_ne, tint_ne]) <;> (repeat' split) <;> first | rfl | (exfalso; omega)

theorem give (rs1 : Reg) (cnt : Fin 256) : Statement (.give rs1 cnt) := by
  intro _ hwf
  have h2 : (plain rs1) = true := (Bool.and_eq_true_iff.mp hwf).2
  have := rs1.isLt
  have := cnt.isLt
  obtain ⟨w, hw⟩ : ∃ w, w = encI cnt.val rs1 0 0 22 := ⟨_, rfl⟩
  have A : Asm (cnt.val / 32) (cnt.val % 32) rs1.val 0 0 22 w := ⟨by rw [hw]; first | decide | (simp only [encI] <;> omega), by omega, by omega, by omega, by decide, by decide, by decide⟩
  have f0 : bits w 6 2 = 22 := (b_6_2 A).trans (rfl)
  have f1 : bits w 14 12 = 0 := (b_14_12 A).trans (rfl)
  have f2 : bits w 11 7 = 0 := (b_11_7 A).trans (rfl)
  have f3 : bits w 19 15 = rs1.val := (b_19_15 A).trans (by omega)
  have f4 : bits w 31 28 = 0 := (b_31_28 A).trans (by omega)
  have f5 : rg w 15 = rs1 := r_15_32 A rs1 (by omega)
  have f6 : rg w 7 = (0 : Fin 32) := r_7_32 A (0 : Fin 32) (rfl)
  have f7 : Fin.ofNat 256 (w / 2 ^ 20) = cnt := r_20_256 A cnt (by omega)
  obtain ⟨w0, w4, wx⟩ := word_ok A (by decide)
  refine single _ w rfl hw.symm w0 w4 wx ?_ rfl
  try simp [plain] at h2
  simp only [decMajor, decEngine, f0, f1, f2, f3, f4, f5, f6, f7] <;> (try simp [failIf, withScope, port, scope_of, tint_of, tflt_of, fmt_of, cond_of, cmpFmt_of, partOk_eq, tflt_ne, tint_ne, h2]) <;> (repeat' split) <;> first | rfl | (exfalso; omega)

theorem take (rs1 : Reg) (cnt : Fin 256) : Statement (.take rs1 cnt) := by
  intro _ hwf
  have h2 : (plain rs1) = true := (Bool.and_eq_true_iff.mp hwf).2
  have := rs1.isLt
  have := cnt.isLt
  obtain ⟨w, hw⟩ : ∃ w, w = encI cnt.val rs1 1 0 22 := ⟨_, rfl⟩
  have A : Asm (cnt.val / 32) (cnt.val % 32) rs1.val 1 0 22 w := ⟨by rw [hw]; first | decide | (simp only [encI] <;> omega), by omega, by omega, by omega, by decide, by decide, by decide⟩
  have f0 : bits w 6 2 = 22 := (b_6_2 A).trans (rfl)
  have f1 : bits w 14 12 = 1 := (b_14_12 A).trans (rfl)
  have f2 : bits w 11 7 = 0 := (b_11_7 A).trans (rfl)
  have f3 : bits w 19 15 = rs1.val := (b_19_15 A).trans (by omega)
  have f4 : bits w 31 28 = 0 := (b_31_28 A).trans (by omega)
  have f5 : rg w 15 = rs1 := r_15_32 A rs1 (by omega)
  have f6 : rg w 7 = (0 : Fin 32) := r_7_32 A (0 : Fin 32) (rfl)
  have f7 : Fin.ofNat 256 (w / 2 ^ 20) = cnt := r_20_256 A cnt (by omega)
  obtain ⟨w0, w4, wx⟩ := word_ok A (by decide)
  refine single _ w rfl hw.symm w0 w4 wx ?_ rfl
  try simp [plain] at h2
  simp only [decMajor, decEngine, f0, f1, f2, f3, f4, f5, f6, f7] <;> (try simp [failIf, withScope, port, scope_of, tint_of, tflt_of, fmt_of, cond_of, cmpFmt_of, partOk_eq, tflt_ne, tint_ne, h2]) <;> (repeat' split) <;> first | rfl | (exfalso; omega)

theorem mlease (rs1 : Reg) : Statement (.mlease rs1) := by
  intro _ hwf
  have h2 : (plain rs1) = true := (Bool.and_eq_true_iff.mp hwf).2
  have := rs1.isLt
  obtain ⟨w, hw⟩ : ∃ w, w = encR 0 0 rs1 2 0 22 := ⟨_, rfl⟩
  have A : Asm 0 0 rs1.val 2 0 22 w := ⟨by rw [hw]; first | decide | (simp only [encR] <;> omega), by decide, by decide, by omega, by decide, by decide, by decide⟩
  have f0 : bits w 6 2 = 22 := (b_6_2 A).trans (rfl)
  have f1 : bits w 14 12 = 2 := (b_14_12 A).trans (rfl)
  have f2 : bits w 31 25 = 0 := (b_31_25 A).trans (rfl)
  have f3 : bits w 11 7 = 0 := (b_11_7 A).trans (rfl)
  have f4 : bits w 19 15 = rs1.val := (b_19_15 A).trans (by omega)
  have f5 : bits w 24 20 = 0 := (b_24_20 A).trans (rfl)
  have f6 : bits w 31 28 = 0 := (b_31_28 A).trans (rfl)
  have f7 : bits w 31 22 = 0 := (b_31_22 A).trans (rfl)
  have f8 : rg w 15 = rs1 := r_15_32 A rs1 (by omega)
  have f9 : rg w 7 = (0 : Fin 32) := r_7_32 A (0 : Fin 32) (rfl)
  have f10 : Fin.ofNat 256 (w / 2 ^ 20) = (0 : Fin 256) := r_20_256 A (0 : Fin 256) (rfl)
  have f11 : Fin.ofNat 4 (w / 2 ^ 20) = (0 : Fin 4) := r_20_4 A (0 : Fin 4) (rfl)
  obtain ⟨w0, w4, wx⟩ := word_ok A (by decide)
  refine single _ w rfl hw.symm w0 w4 wx ?_ rfl
  try simp [plain] at h2
  simp only [decMajor, decEngine, f0, f1, f2, f3, f4, f5, f6, f7, f8, f9, f10, f11] <;> (try simp [failIf, withScope, port, scope_of, tint_of, tflt_of, fmt_of, cond_of, cmpFmt_of, partOk_eq, tflt_ne, tint_ne, h2]) <;> (repeat' split) <;> first | rfl | (exfalso; omega)

theorem mfree : Statement .mfree := by
  intro _ hwf
  obtain ⟨w, hw⟩ : ∃ w, w = encR 1 0 0 2 0 22 := ⟨_, rfl⟩
  have A : Asm 1 0 0 2 0 22 w := ⟨by rw [hw]; first | decide | (simp only [encR] <;> omega), by decide, by decide, by decide, by decide, by decide, by decide⟩
  have f0 : bits w 6 2 = 22 := (b_6_2 A).trans (rfl)
  have f1 : bits w 14 12 = 2 := (b_14_12 A).trans (rfl)
  have f2 : bits w 31 25 = 1 := (b_31_25 A).trans (rfl)
  have f3 : bits w 11 7 = 0 := (b_11_7 A).trans (rfl)
  have f4 : bits w 19 15 = 0 := (b_19_15 A).trans (rfl)
  have f5 : bits w 24 20 = 0 := (b_24_20 A).trans (rfl)
  have f6 : bits w 31 28 = 0 := (b_31_28 A).trans (rfl)
  have f7 : bits w 31 22 = 8 := (b_31_22 A).trans (rfl)
  have f8 : rg w 15 = (0 : Fin 32) := r_15_32 A (0 : Fin 32) (rfl)
  have f9 : rg w 7 = (0 : Fin 32) := r_7_32 A (0 : Fin 32) (rfl)
  have f10 : Fin.ofNat 256 (w / 2 ^ 20) = (32 : Fin 256) := r_20_256 A (32 : Fin 256) (rfl)
  have f11 : Fin.ofNat 4 (w / 2 ^ 20) = (0 : Fin 4) := r_20_4 A (0 : Fin 4) (rfl)
  obtain ⟨w0, w4, wx⟩ := word_ok A (by decide)
  refine single _ w rfl hw.symm w0 w4 wx ?_ rfl
  simp only [decMajor, decEngine, f0, f1, f2, f3, f4, f5, f6, f7, f8, f9, f10, f11] <;> (try simp [failIf, withScope, port, scope_of, tint_of, tflt_of, fmt_of, cond_of, cmpFmt_of, partOk_eq, tflt_ne, tint_ne]) <;> (repeat' split) <;> first | rfl | (exfalso; omega)

theorem cdopen (rd : Reg) (rs1 : Reg) : Statement (.cdopen rd rs1) := by
  intro _ hwf
  have h2 : (plain rd && plain rs1) = true := (Bool.and_eq_true_iff.mp hwf).2
  have := rd.isLt
  have := rs1.isLt
  obtain ⟨w, hw⟩ : ∃ w, w = encR 2 0 rs1 2 rd 22 := ⟨_, rfl⟩
  have A : Asm 2 0 rs1.val 2 rd.val 22 w := ⟨by rw [hw]; first | decide | (simp only [encR] <;> omega), by decide, by decide, by omega, by decide, by omega, by decide⟩
  have f0 : bits w 6 2 = 22 := (b_6_2 A).trans (rfl)
  have f1 : bits w 14 12 = 2 := (b_14_12 A).trans (rfl)
  have f2 : bits w 31 25 = 2 := (b_31_25 A).trans (rfl)
  have f3 : bits w 11 7 = rd.val := (b_11_7 A).trans (by omega)
  have f4 : bits w 19 15 = rs1.val := (b_19_15 A).trans (by omega)
  have f5 : bits w 24 20 = 0 := (b_24_20 A).trans (rfl)
  have f6 : bits w 31 28 = 0 := (b_31_28 A).trans (rfl)
  have f7 : bits w 31 22 = 16 := (b_31_22 A).trans (rfl)
  have f8 : rg w 15 = rs1 := r_15_32 A rs1 (by omega)
  have f9 : rg w 7 = rd := r_7_32 A rd (by omega)
  have f10 : Fin.ofNat 256 (w / 2 ^ 20) = (64 : Fin 256) := r_20_256 A (64 : Fin 256) (rfl)
  have f11 : Fin.ofNat 4 (w / 2 ^ 20) = (0 : Fin 4) := r_20_4 A (0 : Fin 4) (rfl)
  obtain ⟨w0, w4, wx⟩ := word_ok A (by decide)
  refine single _ w rfl hw.symm w0 w4 wx ?_ rfl
  try simp [plain] at h2
  simp only [decMajor, decEngine, f0, f1, f2, f3, f4, f5, f6, f7, f8, f9, f10, f11] <;> (try simp [failIf, withScope, port, scope_of, tint_of, tflt_of, fmt_of, cond_of, cmpFmt_of, partOk_eq, tflt_ne, tint_ne, h2]) <;> (repeat' split) <;> first | rfl | (exfalso; omega)

theorem cdclose : Statement .cdclose := by
  intro _ hwf
  obtain ⟨w, hw⟩ : ∃ w, w = encR 3 0 0 2 0 22 := ⟨_, rfl⟩
  have A : Asm 3 0 0 2 0 22 w := ⟨by rw [hw]; first | decide | (simp only [encR] <;> omega), by decide, by decide, by decide, by decide, by decide, by decide⟩
  have f0 : bits w 6 2 = 22 := (b_6_2 A).trans (rfl)
  have f1 : bits w 14 12 = 2 := (b_14_12 A).trans (rfl)
  have f2 : bits w 31 25 = 3 := (b_31_25 A).trans (rfl)
  have f3 : bits w 11 7 = 0 := (b_11_7 A).trans (rfl)
  have f4 : bits w 19 15 = 0 := (b_19_15 A).trans (rfl)
  have f5 : bits w 24 20 = 0 := (b_24_20 A).trans (rfl)
  have f6 : bits w 31 28 = 0 := (b_31_28 A).trans (rfl)
  have f7 : bits w 31 22 = 24 := (b_31_22 A).trans (rfl)
  have f8 : rg w 15 = (0 : Fin 32) := r_15_32 A (0 : Fin 32) (rfl)
  have f9 : rg w 7 = (0 : Fin 32) := r_7_32 A (0 : Fin 32) (rfl)
  have f10 : Fin.ofNat 256 (w / 2 ^ 20) = (96 : Fin 256) := r_20_256 A (96 : Fin 256) (rfl)
  have f11 : Fin.ofNat 4 (w / 2 ^ 20) = (0 : Fin 4) := r_20_4 A (0 : Fin 4) (rfl)
  obtain ⟨w0, w4, wx⟩ := word_ok A (by decide)
  refine single _ w rfl hw.symm w0 w4 wx ?_ rfl
  simp only [decMajor, decEngine, f0, f1, f2, f3, f4, f5, f6, f7, f8, f9, f10, f11] <;> (try simp [failIf, withScope, port, scope_of, tint_of, tflt_of, fmt_of, cond_of, cmpFmt_of, partOk_eq, tflt_ne, tint_ne]) <;> (repeat' split) <;> first | rfl | (exfalso; omega)

theorem cdabort : Statement .cdabort := by
  intro _ hwf
  obtain ⟨w, hw⟩ : ∃ w, w = encR 4 0 0 2 0 22 := ⟨_, rfl⟩
  have A : Asm 4 0 0 2 0 22 w := ⟨by rw [hw]; first | decide | (simp only [encR] <;> omega), by decide, by decide, by decide, by decide, by decide, by decide⟩
  have f0 : bits w 6 2 = 22 := (b_6_2 A).trans (rfl)
  have f1 : bits w 14 12 = 2 := (b_14_12 A).trans (rfl)
  have f2 : bits w 31 25 = 4 := (b_31_25 A).trans (rfl)
  have f3 : bits w 11 7 = 0 := (b_11_7 A).trans (rfl)
  have f4 : bits w 19 15 = 0 := (b_19_15 A).trans (rfl)
  have f5 : bits w 24 20 = 0 := (b_24_20 A).trans (rfl)
  have f6 : bits w 31 28 = 0 := (b_31_28 A).trans (rfl)
  have f7 : bits w 31 22 = 32 := (b_31_22 A).trans (rfl)
  have f8 : rg w 15 = (0 : Fin 32) := r_15_32 A (0 : Fin 32) (rfl)
  have f9 : rg w 7 = (0 : Fin 32) := r_7_32 A (0 : Fin 32) (rfl)
  have f10 : Fin.ofNat 256 (w / 2 ^ 20) = (128 : Fin 256) := r_20_256 A (128 : Fin 256) (rfl)
  have f11 : Fin.ofNat 4 (w / 2 ^ 20) = (0 : Fin 4) := r_20_4 A (0 : Fin 4) (rfl)
  obtain ⟨w0, w4, wx⟩ := word_ok A (by decide)
  refine single _ w rfl hw.symm w0 w4 wx ?_ rfl
  simp only [decMajor, decEngine, f0, f1, f2, f3, f4, f5, f6, f7, f8, f9, f10, f11] <;> (try simp [failIf, withScope, port, scope_of, tint_of, tflt_of, fmt_of, cond_of, cmpFmt_of, partOk_eq, tflt_ne, tint_ne]) <;> (repeat' split) <;> first | rfl | (exfalso; omega)

theorem qstat (rd : Reg) (p : Fin 4) : Statement (.qstat rd p) := by
  intro _ hwf
  have h2 : (plain rd) = true := (Bool.and_eq_true_iff.mp hwf).2
  have := rd.isLt
  have := p.isLt
  obtain ⟨w, hw⟩ : ∃ w, w = encI p.val 0 3 rd 22 := ⟨_, rfl⟩
  have A : Asm (p.val / 32) (p.val % 32) 0 3 rd.val 22 w := ⟨by rw [hw]; first | decide | (simp only [encI] <;> omega), by omega, by omega, by decide, by decide, by omega, by decide⟩
  have f0 : bits w 6 2 = 22 := (b_6_2 A).trans (rfl)
  have f1 : bits w 14 12 = 3 := (b_14_12 A).trans (rfl)
  have f2 : bits w 31 25 = 0 := (b_31_25 A).trans (by omega)
  have f3 : bits w 11 7 = rd.val := (b_11_7 A).trans (by omega)
  have f4 : bits w 19 15 = 0 := (b_19_15 A).trans (rfl)
  have f5 : bits w 24 20 = p.val := (b_24_20 A).trans (by omega)
  have f6 : bits w 31 28 = 0 := (b_31_28 A).trans (by omega)
  have f7 : bits w 31 22 = 0 := (b_31_22 A).trans (by omega)
  have f8 : rg w 15 = (0 : Fin 32) := r_15_32 A (0 : Fin 32) (rfl)
  have f9 : rg w 7 = rd := r_7_32 A rd (by omega)
  have f10 : Fin.ofNat 4 (w / 2 ^ 20) = p := r_20_4 A p (by omega)
  obtain ⟨w0, w4, wx⟩ := word_ok A (by decide)
  refine single _ w rfl hw.symm w0 w4 wx ?_ rfl
  try simp [plain] at h2
  simp only [decMajor, decEngine, f0, f1, f2, f3, f4, f5, f6, f7, f8, f9, f10] <;> (try simp [failIf, withScope, port, scope_of, tint_of, tflt_of, fmt_of, cond_of, cmpFmt_of, partOk_eq, tflt_ne, tint_ne, h2]) <;> (repeat' split) <;> first | rfl | (exfalso; omega)

theorem mxZero (h : Hdr) (negz : Bool) (acls : Bool) : Statement (.mxZero h negz acls) := fun h => nomatch h

theorem mxLdb (h : Hdr) (ld : MxLoad) : Statement (.mxLdb h ld) := fun h => nomatch h

theorem mxGatha (h : Hdr) (ld : MxLoad) (icore : Nat) (ioff : Nat) : Statement (.mxGatha h ld icore ioff) := fun h => nomatch h

theorem mxDensa (h : Hdr) (ld : MxLoad) : Statement (.mxDensa h ld) := fun h => nomatch h

theorem mxCsrb (h : Hdr) (rowptr : Nat) (colidx : Nat) (vals : Nat) (kcnt : Nat) (koff : Nat) (bank : Bool) (fmt : Fmt) : Statement (.mxCsrb h rowptr colidx vals kcnt koff bank fmt) := fun h => nomatch h

theorem mxRun (h : Hdr) (kcnt : Nat) (koff : Nat) (abank : Bool) (bbank : Bool) (m : Nat) (n : Nat) : Statement (.mxRun h kcnt koff abank bbank m n) := fun h => nomatch h

theorem mxDrain (h : Hdr) (dr : MxDrain) : Statement (.mxDrain h dr) := fun h => nomatch h

theorem mxStat (h : Hdr) (clr : Bool) (core : Nat) (off : Nat) : Statement (.mxStat h clr core off) := fun h => nomatch h

theorem cpG2s (h : Hdr) (va : Nat) (sp : Spx) : Statement (.cpG2s h va sp) := fun h => nomatch h

theorem cpS2g (h : Hdr) (va : Nat) (sp : Spx) : Statement (.cpS2g h va sp) := fun h => nomatch h

theorem cpS2s (h : Hdr) (sp : Spx) (ddie : Nat) (dclus : Nat) (dcore : Nat) (doff : Nat) : Statement (.cpS2s h sp ddie dclus dcore doff) := fun h => nomatch h

theorem cp2d (h : Hdr) (va : Nat) (dir : Bool) (sp : Spx) (gstride : Int) (sstride : Nat) (rows : Nat) : Statement (.cp2d h va dir sp gstride sstride rows) := fun h => nomatch h

theorem cpGath (h : Hdr) (va : Nat) (sp : Spx) (icore : Nat) (ioff : Nat) (cnt : Nat) : Statement (.cpGath h va sp icore ioff cnt) := fun h => nomatch h

theorem cpRget (h : Hdr) (va : Nat) (sp : Spx) (planes : Nat) (path : Fin 3) : Statement (.cpRget h va sp planes path) := fun h => nomatch h

theorem cpRput (h : Hdr) (va : Nat) (sp : Spx) (planes : Nat) (path : Fin 3) : Statement (.cpRput h va sp planes path) := fun h => nomatch h

theorem cpRred (h : Hdr) (va : Nat) (sp : Spx) (planes : Nat) (path : Fin 3) (op : RedOp) (dbl : Bool) : Statement (.cpRred h va sp planes path op dbl) := fun h => nomatch h

theorem cpCk (h : Hdr) (src : Nat) (dst : Nat) (len : Nat) : Statement (.cpCk h src dst len) := fun h => nomatch h

theorem cpNop (h : Hdr) : Statement (.cpNop h) := fun h => nomatch h

theorem hgCount (h : Hdr) (core : Nat) (off : Nat) (cnt : Nat) : Statement (.hgCount h core off cnt) := fun h => nomatch h

theorem hgLatch (h : Hdr) (first : Nat) (n : Nat) (clr : Bool) (wr : Bool) (base : Nat) (core : Nat) (off : Nat) : Statement (.hgLatch h first n clr wr base core off) := fun h => nomatch h

theorem hgClear (h : Hdr) : Statement (.hgClear h) := fun h => nomatch h

theorem bdGath (h : Hdr) (src : Loc) (dst : Loc) (icore : Nat) (ioff : Nat) (cnt : Nat) (rowu : Nat) (stack : Bool) : Statement (.bdGath h src dst icore ioff cnt rowu stack) := fun h => nomatch h

theorem bdRed (h : Hdr) (src : Loc) (dst : Loc) (n : Nat) (vstr : Nat) (ecnt : Nat) (fmt : Fmt) (rm : Rm) (sat : Bool) (stack : Bool) : Statement (.bdRed h src dst n vstr ecnt fmt rm sat stack) := fun h => nomatch h

theorem bdCvt (h : Hdr) (src : Loc) (dst : Loc) (sfmt : Fmt) (dfmt : Fmt) (rm : Rm) (sat : Bool) (ecnt : Nat) (stack : Bool) : Statement (.bdCvt h src dst sfmt dfmt rm sat ecnt stack) := fun h => nomatch h

theorem bdCopy (h : Hdr) (src : Loc) (dst : Loc) (len : Nat) (stack : Bool) : Statement (.bdCopy h src dst len stack) := fun h => nomatch h

theorem nodeComplete (cl : Nat) (node : Nat) : Statement (.nodeComplete cl node) := fun h => nomatch h

theorem mxTurnStart (cl : Nat) : Statement (.mxTurnStart cl) := fun h => nomatch h

theorem mxTurnTimeout (cl : Nat) : Statement (.mxTurnTimeout cl) := fun h => nomatch h

theorem taskPick (c : Nat) : Statement (.taskPick c) := fun h => nomatch h

theorem steal (c : Nat) : Statement (.steal c) := fun h => nomatch h

theorem coreSleepTimeout (c : Nat) : Statement (.coreSleepTimeout c) := fun h => nomatch h

theorem fifoAging (c : Nat) : Statement (.fifoAging c) := fun h => nomatch h

theorem messageArrival (cl : Nat) (k : Nat) : Statement (.messageArrival cl k) := fun h => nomatch h

theorem inboxHeldAction (c : Nat) : Statement (.inboxHeldAction c) := fun h => nomatch h

theorem niResend (cl : Nat) (k : Nat) : Statement (.niResend cl k) := fun h => nomatch h

theorem remoteWordAccess (c : Nat) : Statement (.remoteWordAccess c) := fun h => nomatch h

theorem trapAsync (c : Nat) : Statement (.trapAsync c) := fun h => nomatch h

theorem laResultArrive (c : Nat) (k : Nat) : Statement (.laResultArrive c k) := fun h => nomatch h

theorem pageWalk (c : Nat) (va : Word) (acc : Acc) : Statement (.pageWalk c va acc) := fun h => nomatch h

theorem ilApply (d : Nat) : Statement (.ilApply d) := fun h => nomatch h

theorem scbDrainTimeout (c : Nat) : Statement (.scbDrainTimeout c) := fun h => nomatch h

theorem rpAgedWriteback (d : Nat) : Statement (.rpAgedWriteback d) := fun h => nomatch h

theorem remoteTxnFail (k : Nat) (cause : Nat) : Statement (.remoteTxnFail k cause) := fun h => nomatch h

theorem rfmComplete (d : Nat) (bank : Nat) : Statement (.rfmComplete d bank) := fun h => nomatch h

theorem refreshWindowEnd : Statement (.refreshWindowEnd) := fun h => nomatch h

theorem hbmScrub (d : Nat) (line : Nat) : Statement (.hbmScrub d line) := fun h => nomatch h

theorem ceFilterClear : Statement (.ceFilterClear) := fun h => nomatch h

theorem fabricTxnArrive (k : Nat) : Statement (.fabricTxnArrive k) := fun h => nomatch h

theorem fabricAckReceive (k : Nat) : Statement (.fabricAckReceive k) := fun h => nomatch h

theorem mapNackReceive (cl : Nat) (k : Nat) : Statement (.mapNackReceive cl k) := fun h => nomatch h

theorem rotorSlotBoundary (plane : Nat) (seen : Nat) : Statement (.rotorSlotBoundary plane seen) := fun h => nomatch h

theorem wlRetrainDone (plane : Nat) (fibre : Nat) (wl : Nat) : Statement (.wlRetrainDone plane fibre wl) := fun h => nomatch h

theorem fabricResendTimeout (k : Nat) : Statement (.fabricResendTimeout k) := fun h => nomatch h

theorem mapPrepare (cl : Nat) (e : Nat) (v : Word) : Statement (.mapPrepare cl e v) := fun h => nomatch h

theorem mapCommit (cl : Nat) : Statement (.mapCommit cl) := fun h => nomatch h

theorem dieLossVerdict (d : Nat) : Statement (.dieLossVerdict d) := fun h => nomatch h

theorem voteTimeout (d : Nat) : Statement (.voteTimeout d) := fun h => nomatch h

theorem cdRollback (dom : Nat) (cause : Nat) : Statement (.cdRollback dom cause) := fun h => nomatch h

theorem barNotifyArrive (cl : Nat) (k : Nat) : Statement (.barNotifyArrive cl k) := fun h => nomatch h

theorem hqDoorbell (q : Nat) (v : Word) : Statement (.hqDoorbell q v) := fun h => nomatch h

theorem hqctlWrite (q : Nat) (v : Word) : Statement (.hqctlWrite q v) := fun h => nomatch h

theorem packetRead (q : Nat) : Statement (.packetRead q) := fun h => nomatch h

theorem pktNop (q : Nat) : Statement (.pktNop q) := fun h => nomatch h

theorem pktLaunch (q : Nat) : Statement (.pktLaunch q) := fun h => nomatch h

theorem pktCopy (q : Nat) : Statement (.pktCopy q) := fun h => nomatch h

theorem pktSignal (q : Nat) : Statement (.pktSignal q) := fun h => nomatch h

theorem pktWait (q : Nat) : Statement (.pktWait q) := fun h => nomatch h

theorem pktWaitPoll (q : Nat) : Statement (.pktWaitPoll q) := fun h => nomatch h

theorem moduleLoad (q : Nat) : Statement (.moduleLoad q) := fun h => nomatch h

theorem moduleUnload (q : Nat) : Statement (.moduleUnload q) := fun h => nomatch h

theorem barnStart (q : Nat) : Statement (.barnStart q) := fun h => nomatch h

theorem barnComplete (q : Nat) (seq : Nat) : Statement (.barnComplete q seq) := fun h => nomatch h

theorem preemptBatch (t : Nat) : Statement (.preemptBatch t) := fun h => nomatch h

theorem preemptForce (t : Nat) : Statement (.preemptForce t) := fun h => nomatch h

theorem preemptResume (t : Nat) : Statement (.preemptResume t) := fun h => nomatch h

theorem hangDetect (q : Nat) : Statement (.hangDetect q) := fun h => nomatch h

theorem paddockWrite (t : Nat) (v : Word) : Statement (.paddockWrite t v) := fun h => nomatch h

theorem barrierDescriptorWrite (cl : Nat) (d : Nat) (v : Word) : Statement (.barrierDescriptorWrite cl d v) := fun h => nomatch h

theorem vmrootWrite (c : Nat) (v : Word) : Statement (.vmrootWrite c v) := fun h => nomatch h

theorem spcfgWrite (c : Nat) (v : Word) : Statement (.spcfgWrite c v) := fun h => nomatch h

theorem splitChangeComplete (c : Nat) : Statement (.splitChangeComplete c) := fun h => nomatch h

theorem migcfgFlush (c : Nat) : Statement (.migcfgFlush c) := fun h => nomatch h

theorem l2cfgWrite (d : Nat) (v : Word) : Statement (.l2cfgWrite d v) := fun h => nomatch h

theorem keycmdNone (v : Word) : Statement (.keycmdNone v) := fun h => nomatch h

theorem keycmdLoad (v : Word) : Statement (.keycmdLoad v) := fun h => nomatch h

theorem keycmdErase (v : Word) : Statement (.keycmdErase v) := fun h => nomatch h

theorem ivsetWrite (v : Word) : Statement (.ivsetWrite v) := fun h => nomatch h

theorem pvsetWrite (v : Word) : Statement (.pvsetWrite v) := fun h => nomatch h

theorem ygsetWrite (v : Word) : Statement (.ygsetWrite v) := fun h => nomatch h

theorem hdmcfgWrite (v : Word) : Statement (.hdmcfgWrite v) := fun h => nomatch h

theorem dbgresumeGo (v : Word) : Statement (.dbgresumeGo v) := fun h => nomatch h

theorem registerWrite (host : Bool) (off : Nat) (size : Nat) (v : Word) : Statement (.registerWrite host off size v) := fun h => nomatch h

theorem traceSample (c : Nat) : Statement (.traceSample c) := fun h => nomatch h

theorem lifetimeUpdate : Statement (.lifetimeUpdate) := fun h => nomatch h

theorem ckptIntervalUpdate : Statement (.ckptIntervalUpdate) := fun h => nomatch h

theorem powerCapStep (d : Nat) : Statement (.powerCapStep d) := fun h => nomatch h

theorem thermalShutdown : Statement (.thermalShutdown) := fun h => nomatch h

theorem coldReset (ok : Bool) : Statement (.coldReset ok) := fun h => nomatch h

theorem coreReset (c : Nat) : Statement (.coreReset c) := fun h => nomatch h

theorem fwMailboxLoad (ok : Bool) : Statement (.fwMailboxLoad ok) := fun h => nomatch h

theorem enterFullService : Statement (.enterFullService) := fun h => nomatch h

theorem illegalInstruction (cause : Nat) (tval : Word) : Statement (.illegalInstruction cause tval) := fun h => nomatch h

theorem fetchFault (cause : Nat) (tval : Word) : Statement (.fetchFault cause tval) := fun h => nomatch h

theorem l2ResizeComplete (d : Nat) : Statement (.l2ResizeComplete d) := fun h => nomatch h

theorem keyCommandComplete : Statement (.keyCommandComplete) := fun h => nomatch h

theorem electricalPortDown (k : Nat) : Statement (.electricalPortDown k) := fun h => nomatch h

theorem electricalPortUp (k : Nat) : Statement (.electricalPortUp k) := fun h => nomatch h

theorem flitCheckFailure (plane : Nat) (fibre : Nat) (wl : Nat) : Statement (.flitCheckFailure plane fibre wl) := fun h => nomatch h

theorem fibreLoss (plane : Nat) (fibre : Nat) : Statement (.fibreLoss plane fibre) := fun h => nomatch h

theorem planeLoss (k : Nat) : Statement (.planeLoss k) := fun h => nomatch h

theorem moduleLossVerdict (k : Nat) : Statement (.moduleLossVerdict k) := fun h => nomatch h

theorem serviceProcessorFailure (k : Nat) : Statement (.serviceProcessorFailure k) := fun h => nomatch h

theorem dieFailure (k : Nat) : Statement (.dieFailure k) := fun h => nomatch h

theorem linkTrainingDone : Statement (.linkTrainingDone) := fun h => nomatch h

theorem hbmTrainingDone : Statement (.hbmTrainingDone) := fun h => nomatch h

theorem dieSelfTestDone : Statement (.dieSelfTestDone) := fun h => nomatch h

theorem hostMemoryAccess (wr : Bool) (addr : Nat) (len : Nat) (v : Word) : Statement (.hostMemoryAccess wr addr len v) := fun h => nomatch h

theorem hostSnoop (line : Nat) (inval : Bool) (off : Nat) (len : Nat) (v : Word) : Statement (.hostSnoop line inval off len v) := fun h => nomatch h

theorem clockStepUp (d : Nat) : Statement (.clockStepUp d) := fun h => nomatch h

end Sys2Proof.Laws.RoundTrip
end

