-- ==== Sys2Proof/Safety.lean ====
section
/-!
DEFINITION. What the statements of this model say of a run: results as the rules write them, the frames an instruction keeps, and
the invariant of the memories.
-/

noncomputable section

namespace Sys2Proof.Safety

open Sys2Proof Sys2Proof.Machine

/-! Results of the integer instructions, as the tables of 10 R212 to R222 write them. -/

/-- The low 32 bits of a dword. -/
def lo32 (a : Word) : Half := a.setWidth 32

/-- The bit positions that hold 1, in ascending order. -/
def onesOf (a : Word) : List Nat := (List.range 64).filter a.getLsbD

/-- The 128-bit carry-less product of 10 R220. -/
def clmulP (a b : Word) : BitVec 128 :=
  (List.range 64).foldl (fun p i => if b.getLsbD i then p ^^^ (a.setWidth 128 <<< i) else p) 0

/-- The dword that holds given bits from bit 0 up. -/
def ofBits (l : List Bool) : Word := (BitVec.ofBoolListLE l).setWidth 64

/-- bext (10 R221): the bits of a at the positions of the mask, packed in ascending order. -/
def gatherBits (a m : Word) : Word := ofBits ((onesOf m).map a.getLsbD)

/-- bdep (10 R221): the low bits of a in ascending order at the positions of the mask. -/
def scatterBits (a m : Word) : Word :=
  ofBits ((List.range 64).map (fun i => m.getLsbD i && a.getLsbD ((onesOf m).idxOf i)))

/-- Byte i of a dword. -/
def byteAtIdx (a : Word) (i : Nat) : Byte := (a >>> (8 * i)).setWidth 8

/-- The dword whose byte i is byte 7 - i of a (10 R219). -/
def swapBytes (a : Word) : Word :=
  (List.range 8).foldl (fun v i => v ||| ((byteAtIdx a (7 - i)).setWidth 64 <<< (8 * i))) 0

/-- Bits 127 to 64 of a product. -/
def highHalf (p : BitVec 128) : Word := (p >>> 64).setWidth 64

/-- The instructions with two source registers of 10 R212, R213 and R218, and what each writes. -/
def twoSource : List ((Reg → Reg → Reg → Instr) × (Word → Word → Word)) :=
  [(.add, fun a b => a + b), (.sub, fun a b => a - b), (.sll, fun a b => a <<< (b.toNat % 64)),
   (.srl, fun a b => a >>> (b.toNat % 64)), (.sra, fun a b => a.sshiftRight (b.toNat % 64)),
   (.slt, fun a b => if a.toInt < b.toInt then 1 else 0), (.sltu, fun a b => if a.toNat < b.toNat then 1 else 0),
   (.xor, fun a b => a ^^^ b), (.or, fun a b => a ||| b), (.and, fun a b => a &&& b), (.mul, fun a b => a * b),
   (.mulh, fun a b => highHalf (a.signExtend 128 * b.signExtend 128)),
   (.mulhsu, fun a b => highHalf (a.signExtend 128 * b.setWidth 128)),
   (.mulhu, fun a b => highHalf (a.setWidth 128 * b.setWidth 128)),
   (.addw, fun a b => (lo32 a + lo32 b).signExtend 64), (.subw, fun a b => (lo32 a - lo32 b).signExtend 64),
   (.sllw, fun a b => (lo32 a <<< (b.toNat % 32)).signExtend 64), (.srlw, fun a b => (lo32 a >>> (b.toNat % 32)).signExtend 64),
   (.sraw, fun a b => ((lo32 a).sshiftRight (b.toNat % 32)).signExtend 64),
   (.mulw, fun a b => (lo32 a * lo32 b).signExtend 64),
   (.andn, fun a b => a &&& ~~~b), (.orn, fun a b => a ||| ~~~b), (.min, fun a b => if a.toInt ≤ b.toInt then a else b),
   (.max, fun a b => if a.toInt ≤ b.toInt then b else a), (.minu, fun a b => if a.toNat ≤ b.toNat then a else b),
   (.maxu, fun a b => if a.toNat ≤ b.toNat then b else a), (.rol, fun a b => a.rotateLeft (b.toNat % 64)),
   (.ror, fun a b => a.rotateRight (b.toNat % 64)), (.clmul, fun a b => (clmulP a b).setWidth 64),
   (.clmulh, fun a b => (clmulP a b >>> 64).setWidth 64), (.clmulr, fun a b => (clmulP a b >>> 63).setWidth 64),
   (.bext, gatherBits), (.bdep, scatterBits)]

/-- The instructions with one source register of 10 R214, R215, R218, R219 and R222, with their immediates, and what each
writes. -/
def oneSource : List ((Reg → Reg → Instr) × (Word → Word)) :=
  [(.clz, fun a => BitVec.ofNat 64 ((List.range 64).reverse.takeWhile (fun i => !(a.getLsbD i))).length),
   (.ctz, fun a => BitVec.ofNat 64 ((List.range 64).takeWhile (fun i => !(a.getLsbD i))).length),
   (.popc, fun a => BitVec.ofNat 64 (onesOf a).length), (.brev, fun a => a.reverse), (.bswap, swapBytes),
   (.sextB, fun a => (a.setWidth 8).signExtend 64), (.sextH, fun a => (a.setWidth 16).signExtend 64),
   (.sextW, fun a => (lo32 a).signExtend 64), (.zextB, fun a => (a.setWidth 8).setWidth 64),
   (.zextH, fun a => (a.setWidth 16).setWidth 64), (.zextW, fun a => (lo32 a).setWidth 64)]

/-- The forms with a 12-bit immediate of 10 R214 and R215. -/
def immSource : List ((Reg → Reg → Int → Instr) × (Word → Word → Word)) :=
  [(.addi, fun a i => a + i), (.slti, fun a i => if a.toInt < i.toInt then 1 else 0),
   (.sltiu, fun a i => if a.toNat < i.toNat then 1 else 0), (.xori, fun a i => a ^^^ i), (.ori, fun a i => a ||| i),
   (.andi, fun a i => a &&& i), (.addiw, fun a i => (lo32 (a + i)).signExtend 64)]

/-- The forms with a 6-bit amount of 10 R214, R218 and R222. -/
def amountSource : List ((Reg → Reg → Fin 64 → Instr) × (Word → Nat → Word)) :=
  [(.slli, fun a n => a <<< n), (.srli, fun a n => a >>> n), (.srai, fun a n => a.sshiftRight n),
   (.rori, fun a n => a.rotateRight n), (.modp, fun a n => BitVec.ofNat 64 (a.toNat % (n + 1)))]

/-- The forms with a 5-bit amount of 10 R215. -/
def amount32Source : List ((Reg → Reg → Fin 32 → Instr) × (Half → Nat → Half)) :=
  [(.slliw, fun a n => a <<< n), (.srliw, fun a n => a >>> n), (.sraiw, fun a n => a.sshiftRight n)]

/-- Quotient and remainder of 10 R217 on operands of a width, as two's complement when sgn holds. -/
def divResult (sgn : Bool) {w : Nat} (n m : BitVec w) : BitVec w × BitVec w :=
  if m = 0 then (BitVec.allOnes w, n)
  else if sgn then
    (if n = BitVec.intMin w ∧ m = BitVec.allOnes w then (n, 0)
     else (BitVec.ofInt w (n.toInt.tdiv m.toInt), BitVec.ofInt w (n.toInt - n.toInt.tdiv m.toInt * m.toInt)))
  else (n / m, n - n / m * m)

/-- The divide instructions of 10 R217, and what each writes. -/
def divides : List ((Reg → Reg → Reg → La → Instr) × (Word → Word → Word)) :=
  [(.div, fun a b => (divResult true a b).1), (.divu, fun a b => (divResult false a b).1),
   (.rem, fun a b => (divResult true a b).2), (.remu, fun a b => (divResult false a b).2),
   (.divw, fun a b => (divResult true (lo32 a) (lo32 b)).1.signExtend 64),
   (.divuw, fun a b => (divResult false (lo32 a) (lo32 b)).1.signExtend 64),
   (.remw, fun a b => (divResult true (lo32 a) (lo32 b)).2.signExtend 64),
   (.remuw, fun a b => (divResult false (lo32 a) (lo32 b)).2.signExtend 64)]

/-- The conditional branches of 10 R223, and when each is taken. -/
def branches : List ((Reg → Reg → Int → Instr) × (Word → Word → Prop)) :=
  [(.beq, fun a b => a = b), (.bne, fun a b => a ≠ b), (.bbs, fun a b => a.getLsbD (b.toNat % 64) = true),
   (.bbc, fun a b => a.getLsbD (b.toNat % 64) = false), (.blt, fun a b => a.toInt < b.toInt),
   (.bge, fun a b => b.toInt ≤ a.toInt), (.bltu, fun a b => a.toNat < b.toNat), (.bgeu, fun a b => b.toNat ≤ a.toNat)]

/-! Scalar FP32 (10 R227 to R234). -/

/-- fadd.s, fsub.s and fmul.s (10 R230), and the exact result each rounds. -/
def fpTwo : List ((Reg → Reg → Reg → Rm → Instr) × (Exact → Exact → Nat → Exact)) :=
  [(.faddS, fun a b mode => addNum a b mode), (.fsubS, fun a b mode => addNum a (negNum b) mode), (.fmulS, fun a b _ => mulNum a b)]

/-- The fused multiply-adds (10 R234), and the signs of the product and of the addend. -/
def fpFour : List ((Reg → Reg → Reg → Reg → Rm → Instr) × (Exact → Exact) × (Exact → Exact)) :=
  [(.fmaddS, id, id), (.fmsubS, id, negNum), (.fnmsubS, negNum, id), (.fnmaddS, negNum, negNum)]

/-- Whether an FP32 encoding is a NaN. -/
def isNanF (v : Nat) : Bool := decide (0x7F800000 < v % 2 ^ 31)
/-- Whether an FP32 encoding is a signalling NaN: its top fraction bit is 0. -/
def isSnanF (v : Nat) : Bool := isNanF v && !(v.testBit 22)
/-- The place of an FP32 number in ascending order, -0 below +0. -/
def orderOf (v : Nat) : Int := if v.testBit 31 then -((v % 2 ^ 31 : Nat) : Int) - 1 else ((v % 2 ^ 31 : Nat) : Int)
/-- Order of FP32 numbers with -0 below +0. -/
def totalLe (a b : Nat) : Bool := decide (orderOf a ≤ orderOf b)
/-- Order of FP32 numbers with -0 equal to +0. -/
def numLe (a b : Nat) : Bool := totalLe a b || decide (a % 2 ^ 31 = 0 ∧ b % 2 ^ 31 = 0)

/-! CSRs and traps. -/

/-- The CSR numbers that a row of 10 R237, or the chapter a range is assigned to, implements. -/
def csrNumbers : List Nat :=
  [0x001, 0x010, 0x020, 0x021, 0x030, 0x031, 0x032, 0x040, 0x041, 0x042, 0x043, 0x080, 0x081, 0x082, 0x083] ++
  (List.range 8).map (fun k => 0x100 + k) ++ [0x800, 0x801, 0x802, 0x803, 0x804, 0x810, 0x811, 0x812, 0x813, 0x814] ++
  [0x820, 0x821, 0x822, 0x823, 0x830, 0x831, 0x840, 0x850, 0x851, 0x852, 0x853, 0x860] ++
  (List.range 8).map (fun k => 0x900 + k) ++ (List.range 8).map (fun k => 0x910 + k) ++ [0x920, 0x921, 0x922, 0x923]

/-- Registers of one core with their RW, W1C and other implemented bits (10 R228; 08 R165; 13 R289, R306; 18 R413, R421; 22
R480). FRM of FCSR stands among the others, since it refuses a value. -/
def csrFields : List (Nat × Word × Word × Word) :=
  [(0x001, 0x1F, 0, 0xE0), (0x010, 0xFFFFFFFFFFFFFFC0, 0, 0), (0x040, 0x3F, 0, 0), (0x042, 0xFFFFFFFFFFFFFFFF, 0, 0),
   (0x043, 0xFFFFFFFFFFFFFFFF, 0, 0), (0x800, 0xDE, 0x120, 1), (0x801, 0xC000000000000FFF, 0, 0),
   (0x802, 0xFFFFFFFFFFFFFFFC, 0, 0), (0x803, 0xFFFFFFFFFFFFFFFF, 0, 0), (0x804, 0xFFFFFFFFFFFFFF00, 0, 0),
   (0x840, 0xFFFFFFFFFFFFFFFF, 0, 0), (0x850, 0xFC7FFFFFFFFFFFFF, 0, 0), (0x851, 0xFC7FFFFFFFFFFFFF, 0, 0),
   (0x852, 0xFC7FFFFFFFFFFFFF, 0, 0), (0x853, 0xFC7FFFFFFFFFFFFF, 0, 0), (0x860, 1, 0, 0), (0x923, 0xFFFFFFFFFFFFFFFF, 0, 0)]

/-- The asynchronous trap that comes first on a core, as CAUSE and TVAL (18 R417, R424). -/
def firstAsync (x : CoreSt) : Option (Word × Word) :=
  if x.stepPend then some (0x8000000000000A03, 0)
  else if x.bkpPend then some (0x8000000000000A02, x.gtid)
  else if x.hangPend.isSome then some (0x8000000000000901, x.hangPend.getD 0)
  else if x.trapQ ≠ [] then
    some (0xC000000000000000 ||| BitVec.ofNat 64 ((x.trapQ.map EngTrap.cause).headD 0 % 2 ^ 12),
      BitVec.ofNat 64 ((x.trapQ.map EngTrap.node).headD 0))
  else if x.ovfPend ≠ [] then some (0x8000000000000A04, BitVec.ofNat 64 (x.ovfPend.headD 0))
  else none

/-! The instruction boundary of a step (09 R190, R198; 18 R417, R422). -/

/-- Core c runs and stands at a boundary at which it goes on to its next instruction: its stalled instruction has its answer, or
no fault, held domain, changing split, window that eret reopens or trap comes first. -/
def Boundary (s : State) (c : Nat) : Prop :=
  let x := coreOf s c
  x.run = .running ∧
    (answered x = true ∨
      (domHeld s x = false ∧ spBusy s c = false ∧ (windowFault x).isSome = false ∧ x.redo = [] ∧ x.ereting = false ∧ x.steFault = none ∧
        ((pendingTrap x).isSome && (asyncReady x || (windowAway x && (!(isSup x) || bit x.status.toNat 2) && canAbandon x))) = false))

/-! Frames. -/

/-- A byte of the module: of local HBM, of host memory, of another module, or of a core's scratchpad. -/
inductive Place where
  | hbm (a : Nat)
  | host (a : Nat)
  | remote (a : Nat)
  | pad (c off : Nat)

/-- The byte at a place. -/
def byteOf (s : State) : Place → Byte
  | .hbm a => s.mem.read a
  | .host a => s.hostMem.read a
  | .remote a => s.remMem.read a
  | .pad c off => (coreOf s c).sp.read off

/-- Nothing outside core c changes, the schedule and the running core included. -/
def OnlyCore (c : Nat) (s t : State) : Prop := t = setCore c (coreOf t c) s

/-- What an instruction that only writes the scalar registers dst of the running core leaves: nothing outside the core changes, nor
any byte of memory; in the core only those registers, the pc, the counting of open windows, a stall that ends and a debug step that
becomes pending. A register written anew loses its uncorrectable error. -/
structure RegsOnly (dst : List Nat) (s t : State) : Prop where
  outside : OnlyCore s.cur s t
  core : coreOf t s.cur = { me s with
    regs := (coreOf t s.cur).regs, badX := (coreOf t s.cur).badX, pc := (coreOf t s.cur).pc, windows := (coreOf t s.cur).windows
    stall := none, since := (coreOf t s.cur).since, stepPend := (coreOf t s.cur).stepPend, rpWait := false }
  regs : ∀ r, r ∉ dst → getX r (coreOf t s.cur) = getX r (me s)
  errors : ∀ r, r ∉ dst → (r ∈ (coreOf t s.cur).badX ↔ r ∈ (me s).badX)
  bytes : ∀ p, byteOf t p = byteOf s p

/-- A register field that names no port, of a register without an uncorrectable error. -/
def Plain (s : State) (r : Reg) : Prop := r.val < 28 ∧ r.val ∉ (me s).badX

/-! Memory instructions. -/

/-- The plain scalar loads (11 R247): bytes, and what a value of that many bytes gives in rd. -/
def loads : List ((Reg → Reg → Int → La → Instr) × Nat × (Nat → Word)) :=
  [(.lb, 1, fun v => (BitVec.ofNat 8 v).signExtend 64), (.lh, 2, fun v => (BitVec.ofNat 16 v).signExtend 64),
   (.lw, 4, fun v => (BitVec.ofNat 32 v).signExtend 64), (.ld, 8, fun v => BitVec.ofNat 64 v), (.lbu, 1, fun v => BitVec.ofNat 64 v),
   (.lhu, 2, fun v => BitVec.ofNat 64 v), (.lwu, 4, fun v => BitVec.ofNat 64 v)]

/-- The size codes of the acquiring loads (11 R249). -/
def acquireSizes : List (Nat × Nat × (Nat → Word)) :=
  [(0, 1, fun v => (BitVec.ofNat 8 v).signExtend 64), (1, 2, fun v => (BitVec.ofNat 16 v).signExtend 64),
   (2, 4, fun v => (BitVec.ofNat 32 v).signExtend 64), (3, 8, fun v => BitVec.ofNat 64 v), (4, 1, fun v => BitVec.ofNat 64 v),
   (5, 2, fun v => BitVec.ofNat 64 v), (6, 4, fun v => BitVec.ofNat 64 v)]

/-- The plain scalar stores (11 R248) and their bytes. -/
def stores : List ((Reg → Reg → Int → Instr) × Nat) := [(.sb, 1), (.sh, 2), (.sw, 4), (.sd, 8)]

/-- n bytes at an address that the running core reaches in its own scratchpad through the local alias, at an offset (02 R25,
R26): within its size, in thread-owned tiles, on a live die, and in supervisor mode or in the paddock of its tenant. -/
structure OwnPad (s : State) (va off n : Nat) : Prop where
  addr : va = 0x00E8000000000000 + off
  room : off + n ≤ spSize (me s)
  fits : off + n ≤ 2 ^ 22
  tiles : ∀ i, i < n → tileOf (off + i) ∉ (me s).owner
  live : isLive s (dOf s.cur) = true
  member : isSup (me s) = true ∨ inPaddock s (tenantOf (me s)) (clOf s.cur) = true

/-- No memory operation of the running core has to wait at issue: no ldf of it waits, no acquire of it at another module, and no log is
still to be applied after a context switch (06 R126; 02 R38). -/
def GateOpen (s : State) : Prop :=
  (∀ w ∈ (me s).windows, (∀ h o v, w.st ≠ .waitTag h o v) ∧ (w.acq = true → ∀ k, w.st ≠ .waitTxn k)) ∧ ((me s).ilWait = false ∨ (me s).vmroot.getLsbD 0 = false)

/-- The n bytes at an offset of the running core's scratchpad hold no poison (05 R96; 20 R452). -/
def PadClean (s : State) (off n : Nat) : Prop := ∀ w ∈ (me s).spBad ++ (me s).spPois, ¬(off / 16 ≤ w ∧ w ≤ (off + n - 1) / 16)

/-- The window that an instruction with la opened in state s is the youngest in t, with a scalar value on its way. -/
def OnItsWay (s t : State) (rd : Reg) (la : La) (v : Word) : Prop :=
  ∃ w, (coreOf t s.cur).windows.getLast? = some w ∧ w.pcw = (me s).pc.toNat ∧ w.remain = la.val ∧ w.dv = [] ∧
    w.dx = (if rd.val = 0 then [] else [rd.val]) ∧ w.st = .flying ∧ w.xval = [(rd.val, v)] ∧ w.txns = []

/-- Nothing of the running core's registers, tiles and flags changes from s to t but the scalar registers of ports, and the pc moves
on by 4. -/
structure RegsKept (s t : State) : Prop where
  regs : (coreOf t s.cur).regs = (me s).regs
  tiles : (coreOf t s.cur).tiles = (me s).tiles
  fcsr : (coreOf t s.cur).fcsr = (me s).fcsr
  status : (coreOf t s.cur).status = (me s).status
  saved : (coreOf t s.cur).epc = (me s).epc ∧ (coreOf t s.cur).cause = (me s).cause ∧ (coreOf t s.cur).tval = (me s).tval
  pc : (coreOf t s.cur).pc = (me s).pc + 4

/-- What each atomic of 11 R256 with one operand stores from the old value and its operand. -/
def atomics : List ((Reg → Reg → Bool → Bool → Bool → Scope → La → Instr) × ((w : Nat) → BitVec w → BitVec w → BitVec w)) :=
  [(.amoswap, fun _ _ v => v), (.amoadd, fun _ a v => a + v), (.amoand, fun _ a v => a &&& v), (.amoor, fun _ a v => a ||| v),
   (.amoxor, fun _ a v => a ^^^ v), (.amomin, fun _ a v => if a.toInt ≤ v.toInt then a else v),
   (.amomax, fun _ a v => if v.toInt ≤ a.toInt then a else v), (.amominu, fun _ a v => if a.toNat ≤ v.toNat then a else v),
   (.amomaxu, fun _ a v => if v.toNat ≤ a.toNat then a else v)]

/-- The reductions of 11 R258 and what each leaves. -/
def reductions : List ((Reg → Reg → Bool → Instr) × RedOp × ((w : Nat) → BitVec w → BitVec w → BitVec w)) :=
  [(.redadd, .add, fun _ a v => a + v), (.redand, .and, fun _ a v => a &&& v), (.redor, .or, fun _ a v => a ||| v),
   (.redxor, .xor, fun _ a v => a ^^^ v), (.redmin, .min, fun _ a v => if a.toInt ≤ v.toInt then a else v),
   (.redmax, .max, fun _ a v => if v.toInt ≤ a.toInt then a else v), (.redminu, .minu, fun _ a v => if a.toNat ≤ v.toNat then a else v),
   (.redmaxu, .maxu, fun _ a v => if v.toNat ≤ a.toNat then a else v)]

/-- Every byte of the module but n bytes from an offset of core c's scratchpad is unchanged, and those hold v, low byte first. -/
def PadBytes (c off n v : Nat) (s t : State) : Prop :=
  (∀ i, i < n → byteOf t (.pad c (off + i)) = BitVec.ofNat 8 (v / 256 ^ i)) ∧
  (∀ p, (∀ i, i < n → p ≠ .pad c (off + i)) → byteOf t p = byteOf s p)

/-- From s to t the tag of one word of a scratchpad becomes f, and every other tag of the module stays. -/
def TagsAfter (home off : Nat) (f : Bool) (s t : State) : Prop :=
  tagFull t home off = f ∧ ∀ c o, (c ≠ home ∨ o / 8 ≠ off / 8) → tagFull t c o = tagFull s c o

/-! Tile instructions (13). -/

/-- The integer that an element stands for. -/
def valOf (sg : Bool) {w : Nat} (a : BitVec w) : Int := if sg then a.toInt else (a.toNat : Int)

/-- A result of w bits: clamped to the range of its type under saturation, else reduced modulo 2^w (13 R295). -/
def narrowTo (sat sg : Bool) (w : Nat) (v : Int) : BitVec w :=
  let lo : Int := if sg then -(2 ^ (w - 1)) else 0
  let hi : Int := if sg then 2 ^ (w - 1) - 1 else 2 ^ w - 1
  BitVec.ofInt w (if sat then (if v < lo then lo else if hi < v then hi else v) else v)

/-- The integer operations of 13 R295 on elements a and b: under saturation, of w bits, signed or not. -/
def tileInts : List ((Reg → Reg → Reg → Bool → TInt → Option Pfx → Instr) ×
    (Bool → Bool → (w : Nat) → BitVec w → BitVec w → BitVec w)) :=
  [(.vadd, fun sat sg w a b => narrowTo sat sg w (valOf sg a + valOf sg b)),
   (.vsub, fun sat sg w a b => narrowTo sat sg w (valOf sg a - valOf sg b)),
   (.vmul, fun sat sg w a b => narrowTo sat sg w (valOf sg a * valOf sg b)),
   (.vmulh, fun _ sg w a b =>
      if sg then ((a.signExtend (2 * w) * b.signExtend (2 * w)) >>> w).setWidth w
      else ((a.setWidth (2 * w) * b.setWidth (2 * w)) >>> w).setWidth w),
   (.vmin, fun _ sg _ a b => if valOf sg a ≤ valOf sg b then a else b),
   (.vmax, fun _ sg _ a b => if valOf sg a ≤ valOf sg b then b else a),
   (.vand, fun _ _ _ a b => a &&& b), (.vor, fun _ _ _ a b => a ||| b), (.vxor, fun _ _ _ a b => a ^^^ b),
   (.vsll, fun _ _ w a b => a <<< (b.toNat % w)),
   (.vsr, fun _ sg w a b => if sg then a.sshiftRight (b.toNat % w) else a >>> (b.toNat % w)),
   (.vabsd, fun _ sg _ a b => if valOf sg a ≤ valOf sg b then b - a else a - b)]

/-- The rounding operations of 13 R296: whether OP4 is a source, and the exact result in a mode. -/
def tileFlts : List ((Reg → Reg → Reg → Bool → TFlt → Option Pfx → Instr) × Bool × (Exact → Exact → Exact → Nat → Exact)) :=
  [(.vfadd, false, fun a b _ mode => addNum a b mode), (.vfsub, false, fun a b _ mode => addNum a (negNum b) mode),
   (.vfmul, false, fun a b _ _ => mulNum a b), (.vfma, true, fun a b c mode => fmaNum a b c mode),
   (.vfms, true, fun a b c mode => fmaNum a b (negNum c) mode), (.vfnma, true, fun a b c mode => fmaNum (negNum a) b c mode)]

/-- The divisions and square roots of 13 R299. -/
def tileLongs : List ((Reg → Reg → Reg → La → Option Pfx → Instr) × Bool × Fmt) :=
  [(.vfdivF32, true, .f32), (fun vd vs1 _ la p => .vfsqrtF32 vd vs1 la p, false, .f32),
   (.vfdivBf16, true, .bf16), (fun vd vs1 _ la p => .vfsqrtBf16 vd vs1 la p, false, .bf16),
   (.vfdivF16, true, .f16), (fun vd vs1 _ la p => .vfsqrtF16 vd vs1 la p, false, .f16)]

/-- The special functions of 13 R300. -/
def specials : List ((Reg → Reg → La → Option Pfx → Instr) × (Nat → Nat × Nat)) :=
  [(.vexp2, spExp2), (.vlog2, spLog2), (.vrcp, spRcp), (.vrsqrt, spRsqrt), (.vsqrt, spSqrt), (.vtanh, spTanh),
   (.vsin, spTrig false), (.vcos, spTrig true)]

/-- The instructions that move whole slots of source 1 by a scalar (13 R304): the row and column a slot comes from. -/
def movers : List ((Reg → Reg → Reg → Option Pfx → Instr) × (Int → Int → Word → Int × Int)) :=
  [(.vslideC, fun i j v => (i, j - v.toInt)), (.vslideR, fun i j v => (i - v.toInt, j)),
   (.vbcastR, fun _ j v => ((v.toNat % 8 : Nat), j)), (.vbcastC, fun i _ v => (i, (v.toNat % 8 : Nat)))]

/-- What a tile instruction outside memory names (13 R289 to R310): the tile and the scalar it writes at issue, source 1, which a
gang's partner may give, its other tiles, its scalars, the slots that receive a result, whether the others become 0, a format
other than FP32, and the need of a square shape. -/
structure TileForm where
  vd : Option Reg
  xd : Option Reg
  first : List Reg
  more : List Reg
  xs : List Reg
  wrote : CoreSt → List Nat
  zero : Bool
  other : Bool
  square : Bool
  pfx : Option Pfx

/-- An element-wise form: its results are those of the active slots. -/
def slotForm (vd : Reg) (first more xs : List Reg) (other : Bool) (p : Option Pfx) : TileForm :=
  { vd := some vd, xd := none, first := first, more := more, xs := xs, wrote := fun x => lanesOn x (pfxOf p).mask.val
    zero := (pfxOf p).zero, other := other, square := false, pfx := p }

/-- A form with a tile or scalar second source, and OP4 if four holds. -/
def pairForm (four : Bool) (vd v1 src2 : Reg) (x other : Bool) (p : Option Pfx) : TileForm :=
  slotForm vd [v1] ((if x then [] else [src2]) ++ (if four then [(pfxOf p).op4] else [])) (if x then [src2] else []) other p

/-- A lookahead form: its tile is written later. -/
def longForm (vd : Reg) (srcs : List Reg) (other : Bool) (p : Option Pfx) : TileForm :=
  { slotForm vd [] (vd :: srcs) [] other p with vd := none }

/-- A reduction's form. -/
def redForm (vd v1 : Reg) (col : Bool) (f : Fmt) (p : Option Pfx) : TileForm :=
  { slotForm vd [v1] [] [] (f != .f32) p with
    wrote := fun x => if col then List.range (colsOf x) else (List.range (rowsOf x)).map (fun i => 8 * i) }

/-- The form of a tile instruction outside memory but tshape. -/
def tileForm : Instr → Option TileForm
  | .vadd vd v1 b x _ p | .vsub vd v1 b x _ p | .vmul vd v1 b x _ p | .vmulh vd v1 b x _ p | .vmin vd v1 b x _ p
  | .vmax vd v1 b x _ p | .vand vd v1 b x _ p | .vor vd v1 b x _ p | .vxor vd v1 b x _ p | .vsll vd v1 b x _ p
  | .vsr vd v1 b x _ p | .vabsd vd v1 b x _ p => some (pairForm false vd v1 b x true p)
  | .vfadd vd v1 b x ty p | .vfsub vd v1 b x ty p | .vfmul vd v1 b x ty p | .vfmin vd v1 b x ty p | .vfmax vd v1 b x ty p =>
    some (pairForm false vd v1 b x (tfltOther ty) p)
  | .vfma vd v1 b x ty p | .vfms vd v1 b x ty p | .vfnma vd v1 b x ty p => some (pairForm true vd v1 b x (tfltOther ty) p)
  | .vfabs vd v1 ty p | .vfneg vd v1 ty p => some (slotForm vd [v1] [] [] (tfltOther ty) p)
  | .vscacc vd v1 v2 p => some (slotForm vd [v1] [v2, (pfxOf p).op4] [] false p)
  | .vfdivF32 vd v1 v2 _ p => some (longForm vd [v1, v2] false p)
  | .vfdivBf16 vd v1 v2 _ p | .vfdivF16 vd v1 v2 _ p => some (longForm vd [v1, v2] true p)
  | .vfsqrtF32 vd v1 _ p => some (longForm vd [v1] false p)
  | .vfsqrtBf16 vd v1 _ p | .vfsqrtF16 vd v1 _ p => some (longForm vd [v1] true p)
  | .vexp2 vd v1 _ p | .vlog2 vd v1 _ p | .vrcp vd v1 _ p | .vrsqrt vd v1 _ p | .vsqrt vd v1 _ p | .vtanh vd v1 _ p
  | .vsin vd v1 _ p | .vcos vd v1 _ p => some (longForm vd [v1] false p)
  | .vcvt vd v1 d f _ p => some (slotForm vd [v1] [] [] (d != .f32 || f != .f32) p)
  | .vtrans vd v1 p => some { slotForm vd [v1] [] [] false p with square := true }
  | .vperm vd v1 v2 p => some (slotForm vd [v1] [v2] [] false p)
  | .vslideC vd v1 xs p | .vslideR vd v1 xs p | .vbcastR vd v1 xs p | .vbcastC vd v1 xs p =>
    some (slotForm vd [v1] [] [xs] false p)
  | .vredsum vd v1 col f p | .vredmin vd v1 col f p | .vredmax vd v1 col f p => some (redForm vd v1 col f p)
  | .vrand vd p | .vrandf vd p => some (slotForm vd [] [] [] false p)
  | .vcmp xd v1 v2 _ f p => some { slotForm xd [v1] [v2] [] (f != .f32) p with vd := none, xd := some xd }
  | .vsel vd v1 v2 p => some { slotForm vd [v1] [v2] [] false p with wrote := fun x => lanesOn x 0, zero := false }
  | .vmv vd v1 p => some (slotForm vd [v1] [] [] false p)
  | .vgetx xd v1 xs _ => some { slotForm xd [] [v1] [xs] false none with vd := none, xd := some xd }
  | .vsetx vd xa xs _ =>
    some { slotForm vd [] [] [xa, xs] false none with wrote := fun x => [(getX xs.val x).toNat % 64], zero := false }
  | .vbcx vd xa p => some (slotForm vd [] [] [xa] false p)
  | _ => none

/-- Nothing keeps the running core from a tile instruction on registers: no field names a port, sources can be read, a gang prefix
meets a ganged task, the shape is square where it must be, service is full where the format needs it, and no shadow unit diverges. -/
structure TileReady (f : TileForm) (s : State) : Prop where
  gang : (pfxOf f.pfx).gang = true → (me s).ganged = true
  first : ∀ r ∈ f.first, r.val < 28 ∧ ∃ q, readV1 (pfxOf f.pfx) r s = .ok q
  more : ∀ r ∈ f.more, r.val < 28 ∧ r.val ∉ (me s).badT
  tile : ∀ r, f.vd = some r → r.val < 28 ∧ r.val ∉ (me s).badT
  scalars : ∀ r ∈ f.xs, Plain s r
  scalar : ∀ r, f.xd = some r → r.val < 28
  mask : (pfxOf f.pfx).mask.val ∉ (me s).badX
  square : f.square = true → rowsOf (me s) = colsOf (me s)
  service : f.other = true → bits s.platstat.toNat 1 0 ≠ 1
  shadow : (me s).fpDiv = false

/-- What a tile instruction that writes the scalar registers xs and the tile registers vs of the running core leaves: nothing outside
the core changes, nor any byte of memory; in the core only those registers, the flags, the stream counter, event counters, the pc,
the windows and the ends of a stall. -/
structure TileOnly (xs vs : List Nat) (s t : State) : Prop where
  outside : OnlyCore s.cur s t
  core : coreOf t s.cur = { me s with
    regs := (coreOf t s.cur).regs, badX := (coreOf t s.cur).badX, tiles := (coreOf t s.cur).tiles, badT := (coreOf t s.cur).badT
    tileuse := (coreOf t s.cur).tileuse, fcsr := (coreOf t s.cur).fcsr, rngcnt := (coreOf t s.cur).rngcnt, cnt := (coreOf t s.cur).cnt
    ovfPend := (coreOf t s.cur).ovfPend, pc := (coreOf t s.cur).pc, windows := (coreOf t s.cur).windows, stall := none
    since := (coreOf t s.cur).since, stepPend := (coreOf t s.cur).stepPend, rpWait := false }
  regs : ∀ r, r ∉ xs → getX r (coreOf t s.cur) = getX r (me s)
  tiles : ∀ r, r ∉ vs → getV r (coreOf t s.cur) = getV r (me s)
  modes : (coreOf t s.cur).fcsr &&& 0xFFFFFFFFFFFFFFE0 = (me s).fcsr &&& 0xFFFFFFFFFFFFFFE0
  bytes : ∀ p, byteOf t p = byteOf s p

/-- What element k of nd elements in a slot of the result of vcvt holds for a part (13 R302): an element of the source slot, 0, or the
old element of the destination. -/
inductive Part where
  | conv (k : Nat)
  | zero
  | keep
  deriving DecidableEq, Repr

/-- The part rule of 13 R302 for ns elements in a source slot. -/
def convPart (nd ns part k : Nat) : Part :=
  if ns < nd then (if k / ns = part then .conv (k % ns) else .keep)
  else if part * nd + k < ns then .conv (part * nd + k) else .zero

/-! Engine commands (15, 14). -/

/-- The matrix commands (14). -/
def isMatrixCmd : Instr → Bool
  | .mxLdb .. | .mxDensa .. | .mxGatha .. | .mxCsrb .. | .mxZero .. | .mxRun .. | .mxDrain .. | .mxStat .. => true
  | _ => false

/-- The node that is executed is n, and its engine takes it now (15 R347, R349; 14 R321). -/
structure Taken (i : Instr) (s : State) (cl id : Nat) (n : Node) : Prop where
  cur : s.curNode = some (cl, id)
  node : nodeOf s cl id = some n
  can : (if isMatrixCmd i then canLaunchMx s cl id n else canLaunch s cl id n) = true

/-- The ranges that a command's names resolve to, and the state with the node launched, before the engine makes its accesses
(15 R357, R358). -/
structure Launches (i : Instr) (s : State) (cl id : Nat) (n m : Node) (l : List (List (Ref × Nat))) (u : State) : Prop where
  taken : Taken i s cl id n
  sound : n.cancel = none
  passed : ∃ t v, checkNames cl n (cmdNames s cl i) s = .ok (l, t) ∧
    partitionGate cl n l.flatten
      ((((cmdNames s cl i).globs.zip l).filter (fun e => e.1.acc == .store)).flatMap (fun e => e.2)) t = (v, true) ∧
    l.flatten.any (rangeWaits v n.tenant cl) = false ∧
    m = { launched (clusterOf s cl) (cmdNames s cl i) n with dsts := remoteMods v l.flatten, vpns := namedPages v cl n.tenant (cmdNames s cl i) } ∧
    u = tick cl (putNode cl id m v)

/-- The state after a command's accesses: the node keeps their cause, and a matrix command counts in the turn it is launched
in (14 R321). -/
def acted (i : Instr) (cl id : Nat) (r : State × Option Nat) : State :=
  let t := noteErr cl id r.2 r.1
  if isMatrixCmd i = true ∧ isLaunched t cl id = true then
    modCluster cl (fun k => { k with turn := k.turn.map (fun u => { u with launched := u.launched + 1 }) }) t
  else t

/-! The memories. -/

/-- Every memory of the module is in its canonical form: local HBM, host memory, the other modules' memory, and every scratchpad, a
saved one included. -/
structure MemoriesOk (s : State) : Prop where
  hbm : Memory.wf s.mem = true
  host : Memory.wf s.hostMem = true
  remote : Memory.wf s.remMem = true
  pads : ∀ e ∈ s.cores, Memory.wf e.2.sp = true
  saved : ∀ v ∈ s.saves, ∀ k ∈ v.clusters, ∀ x ∈ k.cores, Memory.wf x.sp = true

/-- The running core can make a task at a slot (16 R373 to R375): its memory operations need not wait, none of its stores is held back
or in its combining buffer, it traces nothing, and the slot is 64-byte aligned and in its own scratchpad, in canonical memories. -/
structure CanSpawn (s : State) (slot : Word) (off : Nat) : Prop where
  gate : GateOpen s
  empty : (me s).scb = []
  held : parked s s.cur = false
  quiet : (me s).trcctl.getLsbD 63 = false
  pad : OwnPad s slot.toNat off 64
  aligned : off % 64 = 0
  core : s.cur < 1024
  memories : MemoriesOk s

end Sys2Proof.Safety

end
end

