-- ==== Sys2Proof/Certificates/Slice0/Obligations.lean ====
section
/-!
DEFINITION. The statements about this model for the provers, each a proposition over the machine's own names.
-/

noncomputable section

open Sys2Proof Sys2Proof.Machine Sys2Proof.Safety

/-- Words written out from the encodings decode to their instructions. Rests on 09 R186, 09 R190, 09 R193, 10 R212, 10
R217, 11 R259, 13 R296. -/
def Obligations.table_words_decode : Prop :=
  decodeWords [0x00C58533] = .ok (.add 10 11 12, 4) ∧ decodeWords [0x3EB512B3] = .ok (.divu 5 10 11 3, 4) ∧
  decodeWords [0x000310E7] = .ok (.jalp 1 6, 4) ∧ decodeWords [0x010552F7] = .ok (.modp 5 10 16, 4) ∧
  decodeWords [0x68C5F547] = .ok (.fmaddS 10 11 12 13 7, 4) ∧ decodeWords [0x02100073] = .ok (.trap 0x21, 4) ∧
  decodeWords [0xFFFFE06F] = .ok (.jal 0 (-2), 4) ∧ decodeWords [0xC4C0018F] = .ok (.fence 0xC4 0xC0 .d, 4) ∧
  decodeWords [0x11E5C52F] = .ok (.amoadd 10 11 true true true .p 1, 4) ∧
  decodeWords [0x0024201F, 0x503100CF] = .ok (.vfma 1 2 3 false .f32 (some ⟨false, false, 0, true, 4, 1, false, 0⟩), 8) ∧
  decodeWords [0] = .error 0x01 ∧ decodeWords [0x00C58530] = .error 0x02 ∧ decodeWords [0x0024349F, 0x00C58533] = .error 0x10

/-- Decoding the words of every well-formed CPU instruction gives it back. Rests on 09 R185, 09 R186, 09 R187, 09 R193, 09
R195. -/
def Obligations.encode_decode_agree : Prop :=
  ∀ i : Instr, Laws.RoundTrip.Statement i

/-- A step at an instruction boundary runs the instruction decoded at the program counter. Rests on 08 R180, 09 R190, 09
R195, 09 R198, 09 R199, 09 R200, 04 R88. -/
def Obligations.step_runs_the_decoded_instruction : Prop :=
  ∀ (s t u v : State) (c n : Nat) (i : Instr) (w w' : Nat),
    (nextMove s).who = .core c → c < 1024 → v = { beforeMove s with cur := c } → Boundary v c →
    ((fetchWord c (coreOf v c).pc.toNat v = .ok (w, t) ∧ isPfxWord w = false ∧ decodeWords [w] = .ok (i, n)) ∨
     (∃ t', fetchWord c (coreOf v c).pc.toNat v = .ok (w, t') ∧ isPfxWord w = true ∧
        fetchWord c (((coreOf v c).pc.toNat + 4) % 2 ^ 64) t' = .ok (w', t) ∧ decodeWords [w, w'] = .ok (i, n))) →
    winWait (dueWins (isLong i) (me t).windows) = none →
    u = modCore c (fun x => settleWins { x with windows := dueWins (isLong i) x.windows }) t →
    (earlyDetail i u = true ∨ violated i (me u).windows = none) →
    step s = match exec i u with
      | .next x => .next (afterIssue i u x)
      | .fault f => .fault f
      | .refused r => .refused r

/-- A word placed at the program counter of core 0 is the next instruction that runs. Rests on 09 R183, 04 R88, notes log
5. -/
def Obligations.placed_word_runs_next : Prop :=
  ∀ (s : State) (w n : Nat) (i : Instr), w < 2 ^ 32 → isPfxWord w = false → decodeWords [w] = .ok (i, n) →
    (∀ e ∈ s.cores, e.2.sharers = [] ∧ e.2.pushes = []) →
    ∃ u, u.cur = 0 ∧ (me u).regs = (coreOf s 0).regs ∧ (me u).tiles = (coreOf s 0).tiles ∧ isSup (me u) = true ∧
      (me u).pc = wd ((coreOf s 0).pc.toNat % 2 ^ 20 / 4 * 4) ∧
      (step (s.withFetchWord 32 w) = match exec i u with
        | .next x => .next (afterIssue i u x)
        | .fault f => .fault f
        | .refused r => .refused r)

/-- Reading and writing x0, the queue ports and every other scalar register. Rests on 09 R191, 10 R210, 20 R452. -/
def Obligations.zero_register_ports_and_plain_registers : Prop :=
  ∀ (s : State) (r : Reg) (v : Word),
    (r.val = 0 → r.val ∉ (me s).badX → readX r s = .ok (0, s)) ∧
    (r.val = 0 → writeX r v s = .ok (setCore s.cur (me s) s)) ∧
    (∀ t, r.val < 28 → writeX r v s = .ok t → OnlyCore s.cur s t ∧
      (∀ q : Reg, q.val < 28 → getX q.val (me t) = if q.val = r.val ∧ r.val ≠ 0 then v else getX q.val (me s)) ∧
      (r.val ≠ 0 → readX r t = .ok (v, t))) ∧
    (r.val < 28 → ∃ t, writeX r v s = .ok t) ∧
    (r.val < 28 → r.val ∈ (me s).badX → readX r s = .error (.trap 0x605 0)) ∧
    (28 ≤ r.val → writeX r v s = pushPort s.cur (r.val - 28) v s) ∧
    (28 ≤ r.val → ((me s).ports.get {} (r.val - 28)).part = [] →
      (((me s).ports.get {} (r.val - 28)).ret = [] → readX r s = .error (.stall 2 (wd (r.val - 28)))) ∧
      (∀ w rest, ((me s).ports.get {} (r.val - 28)).ret = w :: rest →
        ∃ t, readX r s = .ok (w, t) ∧ OnlyCore s.cur s t ∧ ((me t).ports.get {} (r.val - 28)).ret = rest ∧
          (me t) = { me s with ports := (me t).ports }))

/-- Completing an instruction advances the pc, counts open windows and changes nothing else. Rests on 09 R183, 09 R198, 18
R413. -/
def Obligations.completing_an_instruction_moves_the_pc : Prop :=
  ∀ (c n : Nat) (s t : State), OnlyCore c t (retire c n s t) ∧
    (coreOf (retire c n s t) c) = { coreOf t c with
      pc := (coreOf t c).pc + BitVec.ofNat 64 n
      windows := ((coreOf t c).windows.map (fun w => { w with remain := w.remain - 1 })).filter
        (fun w => !(w.remain == 0 && w.st == .arrived))
      stall := none
      since := if (coreOf t c).stall = none then (coreOf t c).since else t.time
      stepPend := (coreOf t c).stepPend || (!(isSup (coreOf s c)) && bit (coreOf t c).dbgctl.toNat 0)
      rpWait := false }

/-- Integer instructions complete with the results of their tables. Rests on 10 R210, 10 R212, 10 R213, 10 R214, 10 R215,
10 R216, 10 R218, 10 R219, 10 R220, 10 R221, 10 R222. -/
def Obligations.integer_results : Prop :=
  (
    ∀ p ∈ twoSource, ∀ (rd rs1 rs2 : Reg) (s s1 s2 t : State) (a b : Word),
      readX rs1 s = .ok (a, s1) → readX rs2 s1 = .ok (b, s2) → writeX rd (p.2 a b) s2 = .ok t →
      exec (p.1 rd rs1 rs2) s = .next (retire s.cur 4 s t)) ∧
  (
    ∀ (rd rs1 : Reg) (s s1 t : State) (a : Word),
      (readX rs1 s = .ok (a, s1) →
        (∀ p ∈ oneSource, writeX rd (p.2 a) s1 = .ok t → exec (p.1 rd rs1) s = .next (retire s.cur 4 s t)) ∧
        (∀ p ∈ immSource, ∀ imm : Int, writeX rd (p.2 a (BitVec.ofInt 64 imm)) s1 = .ok t →
          exec (p.1 rd rs1 imm) s = .next (retire s.cur 4 s t)) ∧
        (∀ p ∈ amountSource, ∀ n : Fin 64, writeX rd (p.2 a n.val) s1 = .ok t →
          exec (p.1 rd rs1 n) s = .next (retire s.cur 4 s t)) ∧
        (∀ p ∈ amount32Source, ∀ n : Fin 32, writeX rd ((p.2 (lo32 a) n.val).signExtend 64) s1 = .ok t →
          exec (p.1 rd rs1 n) s = .next (retire s.cur 4 s t))) ∧
      (∀ imm : Fin 1048576,
        (writeX rd ((BitVec.ofNat 32 (imm.val * 2 ^ 12)).signExtend 64) s = .ok t →
          exec (.lui rd imm) s = .next (retire s.cur 4 s t)) ∧
        (writeX rd ((me s).pc + (BitVec.ofNat 32 (imm.val * 2 ^ 12)).signExtend 64) s = .ok t →
          exec (.auipc rd imm) s = .next (retire s.cur 4 s t))))

/-- Integer instructions on plain registers change their destination register and nothing else. Rests on 10 R210, 10 R212,
10 R213, 10 R214, 10 R215, 10 R216, 10 R218, 10 R219. -/
def Obligations.integer_instructions_change_one_register : Prop :=
  ∀ (s : State) (rd rs1 rs2 : Reg) (i : Instr), Plain s rs1 → Plain s rs2 → rd.val < 28 →
    ((∃ p ∈ twoSource, i = p.1 rd rs1 rs2) ∨ (∃ p ∈ oneSource, i = p.1 rd rs1) ∨ (∃ p ∈ immSource, ∃ n, i = p.1 rd rs1 n) ∨
      (∃ p ∈ amountSource, ∃ n, i = p.1 rd rs1 n) ∨ (∃ p ∈ amount32Source, ∃ n, i = p.1 rd rs1 n) ∨
      (∃ n, i = .lui rd n) ∨ (∃ n, i = .auipc rd n)) →
    ∃ t, exec i s = .next t ∧ RegsOnly [rd.val] s t ∧ (coreOf t s.cur).pc = (me s).pc + 4 ∧ (coreOf t s.cur).fcsr = (me s).fcsr

/-- Divide and remainder instructions open a lookahead window that carries the result of the divide rule. Rests on 09
R198, 10 R217. -/
def Obligations.divides_open_a_window_with_their_result : Prop :=
  ∀ p ∈ divides, ∀ (rd rs1 rs2 : Reg) (la : La) (s s1 s2 : State) (a b : Word),
    readX rs1 s = .ok (a, s1) → readX rs2 s1 = .ok (b, s2) →
    exec (p.1 rd rs1 rs2 la) s = .next (retire s.cur 4 s (modCore s.cur (fun x => { x with windows := x.windows ++
      [{ pcw := (me s2).pc.toNat, remain := la.val + 1, dx := if rd.val = 0 then [] else [rd.val], dv := [], st := .flying
         xval := [(rd.val, p.2 a b)], tval := [], flags := 0, txns := [] }] }) s2))

/-- A result on its way in a lookahead window is written to its destinations when it arrives. Rests on 09 R198, 09 R199,
10 R228, 18 R422. -/
def Obligations.a_result_that_arrives_is_written : Prop :=
  ∀ (s : State) (c k : Nat) (w : Window), coreUp s c = true → (coreOf s c).windows[k]? = some w → w.st = .flying →
    ∃ t, exec (.laResultArrive c k) s = .next t ∧ OnlyCore c s t ∧
      (∀ r v, 0 < r → r < 28 → (w.xval.filter (fun e => e.1 == r)).getLast? = some (r, v) → getX r (coreOf t c) = v) ∧
      (∀ r, (∀ v, (r, v) ∉ w.xval) → getX r (coreOf t c) = getX r (coreOf s c)) ∧
      (∀ r v, (w.tval.filter (fun e => e.1 == r)).getLast? = some (r, v) → getV r (coreOf t c) = v) ∧
      (∀ r, (∀ v, (r, v) ∉ w.tval) → getV r (coreOf t c) = getV r (coreOf s c)) ∧
      (coreOf t c).fcsr = (coreOf s c).fcsr ||| BitVec.ofNat 64 (w.flags % 32) ∧ (coreOf t c).pc = (coreOf s c).pc ∧
      (0 < w.remain → { w with st := .arrived, xval := [], tval := [], flags := 0 } ∈ (coreOf t c).windows) ∧
      (∀ u ∈ (coreOf t c).windows, u.remain ≠ 0 ∨ u.st ≠ .arrived)

/-- Conditional branches go to their target when taken and to pc + 4 otherwise, writing no register. Rests on 09 R187, 10
R223. -/
def Obligations.branches_go_where_the_condition_says : Prop :=
  ∀ p ∈ branches, ∀ (rs1 rs2 : Reg) (off : Int) (s : State), Plain s rs1 → Plain s rs2 →
    ∃ t, exec (p.1 rs1 rs2 off) s = .next t ∧ RegsOnly [] s t ∧
      (p.2 (getX rs1.val (me s)) (getX rs2.val (me s)) → (coreOf t s.cur).pc = (me s).pc + BitVec.ofInt 64 (4 * off)) ∧
      (¬ p.2 (getX rs1.val (me s)) (getX rs2.val (me s)) → (coreOf t s.cur).pc = (me s).pc + 4)

/-- jal, jalr and jalp write the link and jump; a target that is no multiple of 4 faults on the jump. Rests on 09 R187, 10
R224, 10 R225, 10 R226. -/
def Obligations.jumps_link_and_go : Prop :=
  ∀ (s : State) (rd rs1 : Reg) (off imm : Int), rd.val < 28 → Plain s rs1 →
    (∃ t, exec (.jal rd off) s = .next t ∧ RegsOnly [rd.val] s t ∧ (coreOf t s.cur).pc = (me s).pc + BitVec.ofInt 64 (4 * off) ∧
      getX rd.val (coreOf t s.cur) = if rd.val = 0 then 0 else (me s).pc + 4) ∧
    (∀ (i : Instr) (dst : Word),
      ((i = .jalr rd rs1 imm ∧ dst = getX rs1.val (me s) + BitVec.ofInt 64 imm) ∨
       (i = .jalp rd rs1 ∧ dst = (me s).pc + getX rs1.val (me s))) →
      (dst.toNat % 4 = 0 → ∃ t, exec i s = .next t ∧ RegsOnly [rd.val] s t ∧ (coreOf t s.cur).pc = dst ∧
        getX rd.val (coreOf t s.cur) = if rd.val = 0 then 0 else (me s).pc + 4) ∧
      (dst.toNat % 4 ≠ 0 → exec i s = .next (takeTrap s.cur 0x201 dst (me s).pc s)))

/-- Rounding scalar FP instructions, divides and roots deliver the rounded exact result and its flags. Rests on 10 R227,
10 R228, 10 R229, 10 R230, 10 R234, 12 R270, 12 R271, 09 R198, 10 R235. -/
def Obligations.fp_results_divides_and_roots : Prop :=
  (
    (∀ p ∈ fpTwo, ∀ (rd rs1 rs2 : Reg) (rm : Rm) (s s1 s2 s3 t : State) (a b : Word) (u : Nat),
      (me s3).fpDiv = false → readX rs1 s = .ok (a, s1) → readX rs2 s1 = .ok (b, s2) → drawMe (modeOf (me s) rm.val) s2 = (u, s3) →
      writeX rd (wd (roundF (p.2 (fpOf a) (fpOf b) (modeOf (me s) rm.val)) .f32 (modeOf (me s) rm.val) false u).1) s3 = .ok t →
      exec (p.1 rd rs1 rs2 rm) s = .next (retire s.cur 4 s (modCore s.cur
        (accrue (roundF (p.2 (fpOf a) (fpOf b) (modeOf (me s) rm.val)) .f32 (modeOf (me s) rm.val) false u).2) t))) ∧
    (∀ p ∈ fpFour, ∀ (rd rs1 rs2 rs3 : Reg) (rm : Rm) (s s1 s2 s3 s4 t : State) (a b c : Word) (u : Nat),
      (me s4).fpDiv = false → readX rs1 s = .ok (a, s1) → readX rs2 s1 = .ok (b, s2) → readX rs3 s2 = .ok (c, s3) →
      drawMe (modeOf (me s) rm.val) s3 = (u, s4) →
      writeX rd (wd (roundF (fmaNum (p.2.1 (fpOf a)) (fpOf b) (p.2.2 (fpOf c)) (modeOf (me s) rm.val)) .f32
        (modeOf (me s) rm.val) false u).1) s4 = .ok t →
      exec (p.1 rd rs1 rs2 rs3 rm) s = .next (retire s.cur 4 s (modCore s.cur
        (accrue (roundF (fmaNum (p.2.1 (fpOf a)) (fpOf b) (p.2.2 (fpOf c)) (modeOf (me s) rm.val)) .f32
          (modeOf (me s) rm.val) false u).2) t)))) ∧
  (
    ∀ (rd rs1 rs2 : Reg) (rm : Rm) (la : La) (s s1 s2 s3 : State) (a b : Word) (u : Nat),
      readX rs1 s = .ok (a, s1) →
      (readX rs2 s1 = .ok (b, s2) → drawMe (modeOf (me s) rm.val) s2 = (u, s3) → (me s3).fpDiv = false →
        exec (.fdivS rd rs1 rs2 rm la) s = .next (retire s.cur 4 s (issueX la rd
          (wd (roundF (divNum (fpOf a) (fpOf b)).1 .f32 (modeOf (me s) rm.val) false u).1)
          ((roundF (divNum (fpOf a) (fpOf b)).1 .f32 (modeOf (me s) rm.val) false u).2 + if (divNum (fpOf a) (fpOf b)).2 then 8 else 0) s3))) ∧
      (drawMe (modeOf (me s) rm.val) s1 = (u, s3) → (me s3).fpDiv = false →
        exec (.fsqrtS rd rs1 rm la) s = .next (retire s.cur 4 s (issueX la rd
          (wd (roundF (sqrtNum (fpOf a)) .f32 (modeOf (me s) rm.val) false u).1)
          (roundF (sqrtNum (fpOf a)) .f32 (modeOf (me s) rm.val) false u).2 s3))))

/-- fmin.s and fmax.s return the smaller or larger operand, the other one beside a NaN, and flag only a signalling NaN.
Formalises R231. -/
def Obligations.fp_minimum_and_maximum : Prop :=
  ∀ (big : Bool) (rd rs1 rs2 : Reg) (s : State) (a b : Nat), Plain s rs1 → Plain s rs2 → rd.val < 28 → (me s).fpDiv = false →
    a = (getX rs1.val (me s)).toNat % 2 ^ 32 → b = (getX rs2.val (me s)).toNat % 2 ^ 32 →
    ∃ (t : State) (v : Nat), exec (if big then .fmaxS rd rs1 rs2 else .fminS rd rs1 rs2) s = .next t ∧
      getX rd.val (coreOf t s.cur) = (if rd.val = 0 then 0 else BitVec.ofNat 64 v) ∧
      (isNanF a = false → isNanF b = false → v = (if big then (if totalLe a b then b else a) else (if totalLe a b then a else b))) ∧
      (isNanF a = true → isNanF b = false → v = b) ∧ (isNanF a = false → isNanF b = true → v = a) ∧
      (isNanF a = true → isNanF b = true → v = 0x7FC00000) ∧
      (coreOf t s.cur).fcsr = (me s).fcsr ||| (if isSnanF a || isSnanF b then 0x10 else 0)

/-- Sign injection, compares and fclass.s write what their tables give. Rests on 10 R230, 10 R232. -/
def Obligations.fp_sign_injection_compares_and_class : Prop :=
  ∀ (rd rs1 rs2 : Reg) (s : State) (a b : Nat), Plain s rs1 → Plain s rs2 → 0 < rd.val → rd.val < 28 → (me s).fpDiv = false →
    a = (getX rs1.val (me s)).toNat % 2 ^ 32 → b = (getX rs2.val (me s)).toNat % 2 ^ 32 →
    (∀ p ∈ ([(.fsgnjS, fun _ y => y), (.fsgnjnS, fun _ y => !y), (.fsgnjxS, fun x y => x ^^ y)] :
        List ((Reg → Reg → Reg → Instr) × (Bool → Bool → Bool))),
      ∃ t, exec (p.1 rd rs1 rs2) s = .next t ∧ (coreOf t s.cur).fcsr = (me s).fcsr ∧
        getX rd.val (coreOf t s.cur) = BitVec.ofNat 64 (a % 2 ^ 31 + if p.2 (a.testBit 31) (b.testBit 31) then 2 ^ 31 else 0)) ∧
    (∀ p ∈ ([(.fleS, (fun x y => numLe x y), false), (.fltS, (fun x y => numLe x y && !numLe y x), false),
        (.feqS, (fun x y => numLe x y && numLe y x), true)] : List ((Reg → Reg → Reg → Instr) × (Nat → Nat → Bool) × Bool)),
      ∃ t, exec (p.1 rd rs1 rs2) s = .next t ∧
        getX rd.val (coreOf t s.cur) = (if isNanF a = false ∧ isNanF b = false ∧ p.2.1 a b = true then 1 else 0) ∧
        (coreOf t s.cur).fcsr = (me s).fcsr |||
          (if isSnanF a || isSnanF b || ((isNanF a || isNanF b) && !p.2.2) then 0x10 else 0)) ∧
    (∃ t, ∃ k < 10, exec (.fclassS rd rs1) s = .next t ∧ getX rd.val (coreOf t s.cur) = BitVec.ofNat 64 (2 ^ k) ∧
      (k = 8 ↔ isSnanF a = true) ∧ (k = 9 ↔ (isNanF a = true ∧ isSnanF a = false)) ∧
      (k = 0 ↔ a = 0xFF800000) ∧ (k = 7 ↔ a = 0x7F800000) ∧ (k = 3 ↔ a = 0x80000000) ∧ (k = 4 ↔ a = 0) ∧
      (k = 2 ↔ 0x80000000 < a ∧ a < 0x80800000) ∧ (k = 5 ↔ 0 < a ∧ a < 0x00800000) ∧
      (k = 1 ↔ 0x80800000 ≤ a ∧ a < 0xFF800000) ∧ (k = 6 ↔ 0x00800000 ≤ a ∧ a < 0x7F800000))

/-- Conversions between FP32 and integers round by the mode, and to an integer saturate. Rests on 10 R229, 10 R233, 12
R270. -/
def Obligations.fp_conversions_round_or_saturate : Prop :=
  (∀ p ∈ ([(.fcvtWS, -(2 ^ 31), 2 ^ 31 - 1), (.fcvtWuS, 0, 2 ^ 32 - 1), (.fcvtLS, -(2 ^ 63), 2 ^ 63 - 1), (.fcvtLuS, 0, 2 ^ 64 - 1)] :
      List ((Reg → Reg → Rm → Instr) × Int × Int)),
    ∀ (rd rs1 : Reg) (rm : Rm) (s s1 s2 t : State) (a : Word) (u : Nat) (v : Int) (fl : Nat),
      readX rs1 s = .ok (a, s1) → drawMe (modeOf (me s) rm.val) s1 = (u, s2) →
      (match fpOf a with
        | .nan _ => v = p.2.2 ∧ fl = 0x10
        | .inf neg => v = (if neg then p.2.1 else p.2.2) ∧ fl = 0x10
        | .fin sg m e st =>
          ((roundInt sg m e st (modeOf (me s) rm.val) u).1 < p.2.1 → v = p.2.1 ∧ fl = 0x10) ∧
          (p.2.2 < (roundInt sg m e st (modeOf (me s) rm.val) u).1 → v = p.2.2 ∧ fl = 0x10) ∧
          (p.2.1 ≤ (roundInt sg m e st (modeOf (me s) rm.val) u).1 → (roundInt sg m e st (modeOf (me s) rm.val) u).1 ≤ p.2.2 →
            v = (roundInt sg m e st (modeOf (me s) rm.val) u).1 ∧
            fl = if (roundInt sg m e st (modeOf (me s) rm.val) u).2 then 1 else 0)) →
      writeX rd (BitVec.ofInt 64 v) s2 = .ok t →
      exec (p.1 rd rs1 rm) s = .next (retire s.cur 4 s (modCore s.cur (accrue fl) t))) ∧
  (∀ p ∈ ([(.fcvtSW, fun a => (lo32 a).toInt), (.fcvtSWu, fun a => ((lo32 a).toNat : Int)), (.fcvtSL, fun a => a.toInt),
      (.fcvtSLu, fun a => (a.toNat : Int))] : List ((Reg → Reg → Rm → Instr) × (Word → Int))),
    ∀ (rd rs1 : Reg) (rm : Rm) (s s1 s2 t : State) (a : Word) (u : Nat),
      (me s2).fpDiv = false → readX rs1 s = .ok (a, s1) → drawMe (modeOf (me s) rm.val) s1 = (u, s2) →
      writeX rd (wd (roundF (ofInt (p.2 a)) .f32 (modeOf (me s) rm.val) false u).1) s2 = .ok t →
      exec (p.1 rd rs1 rm) s = .next (retire s.cur 4 s (modCore s.cur
        (accrue (roundF (ofInt (p.2 a)) .f32 (modeOf (me s) rm.val) false u).2) t)))

/-- A draw advances the stream of its task; rounding keeps what the format holds. Rests on 12 R271, 13 R306, 12 R269, 12
R270. -/
def Obligations.draws_and_rounding_of_held_values : Prop :=
  (
    ∀ (s : State) (mode : Nat),
      (mode ≠ 6 → (drawMe mode s).1 = 0 ∧ me (drawMe mode s).2 = me s) ∧
      (∀ (x z0 z1 z2 : Word), x = (me s).rngkey ^^^ (me s).gtid →
        z0 = x ^^^ ((me s).rngcnt * 0x9E3779B97F4A7C15) → z1 = (z0 ^^^ (z0 >>> 30)) * 0xBF58476D1CE4E5B9 →
        z2 = (z1 ^^^ (z1 >>> 27)) * 0x94D049BB133111EB →
        (drawMe 6 s).1 = (z2 ^^^ (z2 >>> 31)).toNat % 2 ^ 32 ∧
        me (drawMe 6 s).2 = { me s with rngcnt := (me s).rngcnt + 1 }) ∧
      OnlyCore s.cur s (drawMe mode s).2) ∧
  (
    ∀ (v mode u : Nat), v < 2 ^ 32 → mode < 7 → u < 2 ^ 32 →
      (isNanF v = false → roundF (decodeF .f32 v) .f32 mode false u = (v, 0)) ∧
      (isNanF v = true → (roundF (decodeF .f32 v) .f32 mode false u).1 = 0x7FC00000))

/-- CSR instructions return the old value and write, set or clear as their form says. Rests on 00 R4, 10 R228, 10 R236, 10
R237. -/
def Obligations.csr_instructions_exchange_old_and_new : Prop :=
  ∀ (s s0 t u : State) (rd rs1 : Reg) (imm : Fin 32) (csr : Csr) (old a : Word),
    csrDetail csr.val s.cur s = none → s0 = (if csr.val = 1 then modCore s.cur deliverAll s else s) →
    csrRead csr.val s.cur s0 = some old →
    (Plain s rs1 → a = getX rs1.val (me s) →
      (writeX rd old (csrWrite csr.val s.cur a.toNat a.toNat s0) = .ok t → exec (.csrrw rd rs1 csr) s = .next (retire s.cur 4 s t)) ∧
      (writeX rd old (if rs1.val = 0 then s0 else csrWrite csr.val s.cur (old ||| a).toNat a.toNat s0) = .ok t →
        exec (.csrrs rd rs1 csr) s = .next (retire s.cur 4 s t)) ∧
      (writeX rd old (if rs1.val = 0 then s0 else csrWrite csr.val s.cur (old &&& ~~~a).toNat 0 s0) = .ok t →
        exec (.csrrc rd rs1 csr) s = .next (retire s.cur 4 s t))) ∧
    (a = BitVec.ofNat 64 imm.val →
      (writeX rd old (csrWrite csr.val s.cur a.toNat a.toNat s0) = .ok u → exec (.csrrwi rd imm csr) s = .next (retire s.cur 4 s u)) ∧
      (writeX rd old (if imm.val = 0 then s0 else csrWrite csr.val s.cur (old ||| a).toNat a.toNat s0) = .ok u →
        exec (.csrrsi rd imm csr) s = .next (retire s.cur 4 s u)) ∧
      (writeX rd old (if imm.val = 0 then s0 else csrWrite csr.val s.cur (old &&& ~~~a).toNat 0 s0) = .ok u →
        exec (.csrrci rd imm csr) s = .next (retire s.cur 4 s u)))

/-- CSR numbers decide who may name them, and a write reaches the fields that are writable. Rests on 09 R190, 10 R237, 13
R289, 15 R345, 18 R413, 22 R474, 22 R480, 00 R4, 10 R228, 10 R236, 18 R421. -/
def Obligations.csrs_decide_privilege_and_fields : Prop :=
  (
    ∀ (s : State) (rd rs1 : Reg) (u : Fin 32) (csr : Csr) (i : Instr),
      i ∈ [Instr.csrrw rd rs1 csr, .csrrs rd rs1 csr, .csrrc rd rs1 csr, .csrrwi rd u csr, .csrrsi rd u csr, .csrrci rd u csr] →
      (0x800 ≤ csr.val → isSup (me s) = false → exec i s = .next (takeTrap s.cur 0x07 (wd (encWord i)) (me s).pc s)) ∧
      ((csr.val < 0x800 ∨ isSup (me s) = true) → csr.val ∉ csrNumbers →
        exec i s = .next (takeTrap s.cur 0x08 (wd (encWord i)) (me s).pc s)) ∧
      (csr.val ∈ csrNumbers ↔ (csrRead csr.val s.cur s).isSome = true)) ∧
  (
    ∀ e ∈ csrFields, ∀ (s : State) (c : Nat) (v w old : Word), csrRead e.1 c s = some old → old &&& ~~~(e.2.1 ||| e.2.2.1 ||| e.2.2.2) = 0 →
      ∃ new, csrRead e.1 c (csrWrite e.1 c v.toNat w.toNat s) = some new ∧
        new &&& e.2.1 = v &&& e.2.1 ∧ new &&& e.2.2.1 = old &&& e.2.2.1 &&& ~~~w ∧
        new &&& ~~~(e.2.1 ||| e.2.2.1) = (if e.1 = 1 then (if v.toNat / 32 % 8 = 7 then old else v) &&& 0xE0 else old &&& e.2.2.2) ∧
        OnlyCore c s (csrWrite e.1 c v.toNat w.toNat s) ∧
        (∀ f ∈ csrFields, f.1 ≠ e.1 → csrRead f.1 c (csrWrite e.1 c v.toNat w.toNat s) = csrRead f.1 c s))

/-- A synchronous fault resolves windows, drains the buffer, saves cause, pc and status and enters the handler. Formalises
R415. -/
def Obligations.trap_entry_follows_its_steps : Prop :=
  ∀ (s t : State) (c cause : Nat) (tval epc : Word), cause < 0xC00 → t = takeTrap c cause tval epc s →
    (∀ w ∈ (coreOf s c).windows, ∀ id, w.st ≠ .waitTxn id) → windowFault (coreOf s c) = none →
    (cause / 256 ≠ 6 ∨ isSup (coreOf s c) = true ∨ domainOf (coreOf s c) = 0) → (coreOf s c).status.getLsbD 4 = false →
    (coreOf t c).windows = [] ∧ (coreOf t c).scb = [] ∧ (coreOf t c).resv = none ∧
    (coreOf t c).cause = BitVec.ofNat 64 cause ∧ (coreOf t c).epc = epc &&& ~~~3 ∧ (coreOf t c).tval = tval ∧
    (coreOf t c).status.getLsbD 0 = true ∧ (coreOf t c).status.getLsbD 1 = (coreOf s c).status.getLsbD 0 ∧
    (coreOf t c).status.getLsbD 2 = false ∧ (coreOf t c).status.getLsbD 3 = (coreOf s c).status.getLsbD 2 ∧
    (coreOf t c).status.getLsbD 4 = true ∧ (coreOf t c).status >>> 5 = (coreOf s c).status >>> 5 ∧
    (coreOf t c).pc = ((coreOf s c).tvec &&& ~~~0xFF) + BitVec.ofNat 64 (16 * (cause / 256)) ∧ (coreOf t c).run = .running

/-- At trap entry arrived results are written and every window still counting is recorded in LAW. Rests on 18 R421, 18
R422. -/
def Obligations.open_windows_are_recorded_at_trap_entry : Prop :=
  ∀ (s t : State) (c cause : Nat) (tval epc : Word), t = enterTrap c cause tval epc s →
    let left := (coreOf s c).windows.filter (fun w => !(w.remain == 0 && (w.st == .arrived || w.st == .flying)))
    let records := left.map (fun w => BitVec.ofNat 64 (2 ^ 63 + (if w.st = .arrived ∨ w.st = .flying then 0 else 2 ^ 62) +
      w.remain % 16 * 2 ^ 58 + w.pcw / 4 % 2 ^ 55)) ++ (coreOf s c).redo
    [(coreOf t c).law0, (coreOf t c).law1, (coreOf t c).law2, (coreOf t c).law3] = (List.range 4).map (fun k => records.getD k 0) ∧
    (coreOf t c).windows = [] ∧ (coreOf t c).redo = [] ∧
    (∀ r, getX r (coreOf t c) = getX r (((coreOf s c).windows.filter (fun w => w.st == .flying)).foldl (fun y w => deliverWin w y) (coreOf s c)))

/-- A synchronous fault while INH is set writes CAUSE, EPC and TVAL, sets DBL and stops the core at the handler. Rests on
18 R419. -/
def Obligations.a_fault_in_a_handler_stops_the_core : Prop :=
  ∀ (s t : State) (c cause : Nat) (tval epc : Word), cause < 0xC00 → t = takeTrap c cause tval epc s →
    (∀ w ∈ (coreOf s c).windows, w.st = .flying ∨ w.st = .arrived) →
    (cause / 256 ≠ 6 ∨ isSup (coreOf s c) = true ∨ domainOf (coreOf s c) = 0) → (coreOf s c).status.getLsbD 4 = true →
    (coreOf t c).run = .stopped ∧ (coreOf t c).windows = [] ∧ (coreOf t c).resv = none ∧ isSup (coreOf t c) = true ∧ (coreOf t c).cause = BitVec.ofNat 64 cause ∧ (coreOf t c).epc = epc &&& ~~~3 ∧
    (coreOf t c).tval = tval ∧ (coreOf t c).status = (coreOf s c).status ||| 0x21 ∧
    (coreOf t c).pc = ((coreOf s c).tvec &&& ~~~0xFF) + BitVec.ofNat 64 (16 * (cause / 256)) ∧
    (∀ b ∈ s.barns, b.st = .resident → clOf c ∈ b.clusters → (t.queues.get {} b.q).irq = (s.queues.get {} b.q).irq + 1)

/-- trap and brk complete by entering class 11 and class 10 with EPC at themselves and TVAL 0. Formalises R240. -/
def Obligations.trap_and_brk_enter_their_handlers : Prop :=
  ∀ (s : State) (i : Instr) (imm : Fin 256) (cause : Nat),
    (i = .trap imm ∧ cause = 0xB00 + imm.val) ∨ (i = .brk ∧ cause = 0xA01) →
    (∀ w ∈ (me s).windows, ∀ id, w.st ≠ .waitTxn id) → windowFault (me s) = none → (me s).status.getLsbD 4 = false →
    ∃ t, exec i s = .next t ∧ (coreOf t s.cur).cause = BitVec.ofNat 64 cause ∧ (coreOf t s.cur).epc = (me s).pc &&& ~~~3 ∧
      (coreOf t s.cur).tval = 0 ∧ isSup (coreOf t s.cur) = true ∧ (coreOf t s.cur).status.getLsbD 1 = isSup (me s) ∧
      (coreOf t s.cur).pc = ((me s).tvec &&& ~~~0xFF) + BitVec.ofNat 64 (16 * (cause / 256)) ∧
      ((me s).windows = [] → (me s).scb = [] → s.cores.all (fun e => e.2.waiters.all (fun w => w.who != s.cur) && e.2.nacked.all (fun w => w.who != s.cur)) →
        (∀ r, getX r (coreOf t s.cur) = getX r (me s)) ∧ (coreOf t s.cur).tiles = (me s).tiles ∧
        (coreOf t s.cur).fcsr = (me s).fcsr ∧ (∀ p, byteOf t p = byteOf s p) ∧ (∀ k, k ≠ s.cur → coreOf t k = coreOf s k))

/-- eret restores mode and enable bits, breaks the reservation and goes on at EPC. Rests on 10 R239, 10 R241, 18 R416, 18
R423. -/
def Obligations.eret_restores_what_trap_entry_saved : Prop :=
  ∀ (s : State),
    (isSup (me s) = true → (me s).law0.msb = false → (me s).law1.msb = false → (me s).law2.msb = false → (me s).law3.msb = false →
      ∃ t, exec .eret s = .next t ∧ (coreOf t s.cur).pc = (me s).epc ∧ (coreOf t s.cur).resv = none ∧
        (coreOf t s.cur).status.getLsbD 0 = (me s).status.getLsbD 1 ∧ (coreOf t s.cur).status.getLsbD 1 = (me s).status.getLsbD 1 ∧
        (coreOf t s.cur).status.getLsbD 2 = (me s).status.getLsbD 3 ∧ (coreOf t s.cur).status.getLsbD 4 = false ∧
        ((me s).status.getLsbD 6 = false → (me s).status.getLsbD 7 = false →
          (coreOf t s.cur).status >>> 5 = (me s).status >>> 5 ∧ (coreOf t s.cur).regs = (me s).regs ∧
          (coreOf t s.cur).tiles = (me s).tiles ∧ (coreOf t s.cur).fcsr = (me s).fcsr ∧ (coreOf t s.cur).cause = (me s).cause ∧
          (coreOf t s.cur).tval = (me s).tval ∧ (coreOf t s.cur).tvec = (me s).tvec ∧ (coreOf t s.cur).sscratch = (me s).sscratch ∧
          OnlyCore s.cur s t ∧ (∀ p, byteOf t p = byteOf s p)) ∧
        ((me s).status.getLsbD 6 = true → (coreOf t s.cur).status.getLsbD 6 = false ∧ (coreOf t s.cur).picking = true ∧
          (coreOf t s.cur).haveTask = false ∧ ((me s).member = none → (coreOf t s.cur).run = .idle))) ∧
    (isSup (me s) = false → exec .eret s = .next (takeTrap s.cur 0x07 (wd (encWord .eret)) (me s).pc s))

/-- halt delivers results, drains the combining buffer and halts the core; in task mode it traps. Rests on 10 R239, 10
R242. -/
def Obligations.halt_stops_issue_and_needs_supervisor_mode : Prop :=
  ∀ (s : State),
    (isSup (me s) = true → (∀ w ∈ (me s).windows, w.st = .flying ∨ w.st = .arrived) →
      ∃ t, exec .halt s = .next t ∧ (coreOf t s.cur).run = .halted ∧ (coreOf t s.cur).scb = [] ∧ (coreOf t s.cur).pc = (me s).pc + 4 ∧
        (∀ w ∈ (coreOf t s.cur).windows, w.st = .arrived) ∧ (coreOf t s.cur).status = (me s).status ∧
        (coreOf t s.cur).regs = (deliverAll (me s)).regs ∧ (coreOf t s.cur).tiles = (deliverAll (me s)).tiles) ∧
    (isSup (me s) = true → windowFault (me s) = none → (∃ w ∈ (me s).windows, w.st ≠ .flying ∧ w.st ≠ .arrived) →
      exec .halt s = .next (setStall s.cur 12 0 s)) ∧
    (∀ k v, isSup (me s) = true → windowFault (me s) = some (k, v) → trapWaits (me s) = false → (me s).status.getLsbD 4 = false →
      (k / 256 ≠ 6) → exec .halt s = .next (enterTrap s.cur k v (me s).pc s)) ∧
    (isSup (me s) = false → exec .halt s = .next (takeTrap s.cur 0x07 (wd (encWord .halt)) (me s).pc s))

/-- An illegal word and a fetch that fails enter their traps with EPC at the instruction. Rests on 04 R88, 09 R190, 18
R414, 18 R415. -/
def Obligations.illegal_words_and_fetch_faults_trap : Prop :=
  ∀ (s : State) (i : Instr) (k cause : Nat) (v : Word),
    (i = .illegalInstruction k v ∧ cause = k ∧ k < 256) ∨ (i = .fetchFault k v ∧ cause = k ∧ (k / 256 = 2 ∨ k / 256 = 3)) →
    (∀ w ∈ (me s).windows, ∀ id, w.st ≠ .waitTxn id) → windowFault (me s) = none → (me s).status.getLsbD 4 = false →
    ∃ t, exec i s = .next t ∧ (coreOf t s.cur).cause = BitVec.ofNat 64 cause ∧ (coreOf t s.cur).tval = v ∧
      (coreOf t s.cur).epc = (me s).pc &&& ~~~3 ∧ (coreOf t s.cur).status.getLsbD 4 = true ∧ isSup (coreOf t s.cur) = true ∧
      (coreOf t s.cur).pc = ((me s).tvec &&& ~~~0xFF) + BitVec.ofNat 64 (16 * (cause / 256)) ∧
      ((me s).windows = [] → (coreOf t s.cur).regs = (me s).regs ∧ (coreOf t s.cur).tiles = (me s).tiles ∧
        (coreOf t s.cur).fcsr = (me s).fcsr)

/-- A pending asynchronous trap is taken in the order of its sources, with ASYNC set and the resume address saved. Rests
on 18 R417, 18 R418, 18 R424. -/
def Obligations.asynchronous_traps_come_in_order : Prop :=
  ∀ (s : State) (c : Nat) (k : Word × Word), asyncReady (coreOf s c) = true → windowFault (coreOf s c) = none →
    firstAsync (coreOf s c) = some k →
    ∃ t, exec (.trapAsync c) s = .next t ∧ (coreOf t c).cause = k.1 ∧ (coreOf t c).tval = k.2 ∧
      (coreOf t c).status.getLsbD 0 = true ∧ (coreOf t c).status.getLsbD 2 = false ∧ (coreOf t c).status.getLsbD 4 = true ∧
      ((coreOf s c).run = .running → (coreOf t c).epc = (coreOf s c).pc &&& ~~~3 ∧
        ((coreOf s c).status.getLsbD 0 = false ∨ (coreOf s c).status.getLsbD 2 = true)) ∧
      ((coreOf s c).run = .idle ∨ (coreOf s c).run = .reserved →
        (coreOf t c).epc = 0 ∧ (coreOf t c).status.getLsbD 6 = true ∧ (coreOf t c).status.getLsbD 1 = true) ∧
      (coreOf t c).run = .running

/-- Scalar loads and stores whose bytes resolve complete. Rests on 09 R198, 11 R244, 11 R246, 11 R247, 11 R249, 04 R75, 06
R127, 11 R248, 04 R85, 07 R152. -/
def Obligations.scalar_loads_and_stores_complete : Prop :=
  (
    ∀ (rd rs1 : Reg) (la : La) (s s1 s2 s3 s4 s5 s6 : State) (a : Word) (va : Nat) (ps : List Piece) (vs : List Nat)
        (f : Option (Nat × Nat)) (txns : List (Nat × Nat)),
      (∀ p ∈ loads, ∀ imm : Int, memGate s = .ok s1 → readX rs1 s1 = .ok (a, s3) → va = (a + BitVec.ofInt 64 (p.2.1 * imm)).toNat →
        resolvePieces (whoCore s3 s.cur) .load (scalarForm va p.2.1) (piecesOf va p.2.1) s3 = .ok (ps, s4) →
        trainOr s (homeFor s4 (whoCore s3 s.cur) ps) .ok s4 = .ok s5 →
        loadPieces s.cur (whoCore s3 s.cur) ps [] s5 = .ok (vs, f, txns, s6) →
        exec (p.1 rd rs1 imm la) s = .next (retire s.cur 4 s (openLoad la.val (destX rd) [(rd.val, p.2.2 (joinPieces ps vs))] f txns
          (countAccess s.cur (whoCore s3 s.cur) false (ps.map (fun q => q.ref)) s6)))) ∧
      (∀ p ∈ acquireSizes, ∀ sc : Scope, memGate s = .ok s1 → orderOp s.cur true false false false sc s1 = .ok s2 →
        readX rs1 s2 = .ok (a, s3) → va = a.toNat → va % p.2.1 = 0 →
        resolvePieces (whoCore s3 s.cur) .load (.scalar p.2.1) [(va, p.2.1)] s3 = .ok (ps, s4) →
        trainOr s (homeFor s4 (whoCore s3 s.cur) ps) .ok s4 = .ok s5 →
        loadPieces s.cur (whoCore s3 s.cur) ps [] s5 = .ok (vs, f, txns, s6) →
        exec (.loadAcquire rd rs1 (Fin.ofNat 8 p.1) sc la) s = .next (retire s.cur 4 s (openLoad la.val (destX rd)
          [(rd.val, p.2.2 (joinPieces ps vs))] f txns (countAccess s.cur (whoCore s3 s.cur) false (ps.map (fun q => q.ref)) s6))))) ∧
  (
    ∀ (rs1 rs2 : Reg) (s s1 s2 s3 s4 s5 s6 t : State) (a v : Word) (va : Nat) (ps : List Piece),
      (∀ p ∈ stores, ∀ imm : Int, memGate s = .ok s1 → readX rs1 s1 = .ok (a, s3) → readX rs2 s3 = .ok (v, s4) →
        va = (a + BitVec.ofInt 64 imm).toNat →
        resolvePieces (whoCore s4 s.cur) .store (scalarForm va p.2) (piecesOf va p.2) s4 = .ok (ps, s5) →
        trainOr s (homeFor s5 (whoCore s4 s.cur) ps) .ok s5 = .ok s6 →
        exec (p.1 rs2 rs1 imm) s = .next (retire s.cur 4 s (storePieces s.cur (whoCore s4 s.cur) ps v.toNat
          (countAccess s.cur (whoCore s4 s.cur) false (ps.map (fun q => q.ref)) s6)))) ∧
      (∀ (k : Fin 4) (sc : Scope) (p : Piece), memGate s = .ok s1 → orderOp s.cur false true false true sc s1 = .ok s2 →
        readX rs1 s2 = .ok (a, s3) → readX rs2 s3 = .ok (v, s4) → va = a.toNat → va % 2 ^ k.val = 0 →
        resolvePieces (whoCore s4 s.cur) .store (.scalar (2 ^ k.val)) [(va, 2 ^ k.val)] s4 = .ok ([p], s5) →
        trainOr s (homeFor s5 (whoCore s4 s.cur) [p]) .ok s5 = .ok s6 →
        (sc ≠ .s ∨ p.ref.kind ≠ 4 →
          exec (.storeRelease rs2 rs1 k sc) s = .next (retire s.cur 4 s (drainAll s.cur (storePieces s.cur (whoCore s4 s.cur) [p] v.toNat
            (countAccess s.cur (whoCore s4 s.cur) false [p.ref] s6))))) ∧
        (sc = .s → p.ref.kind = 4 → storeThrough s.cur p v.toNat (countAccess s.cur (whoCore s4 s.cur) false [p.ref] s6) = .ok t →
          exec (.storeRelease rs2 rs1 k sc) s = .next (retire s.cur 4 s t))))

/-- A load from the own scratchpad carries its bytes; a store changes exactly the bytes it names. Rests on 00 R3, 02 R25,
02 R26, 03 R65, 03 R68, 11 R246, 11 R247, 11 R248. -/
def Obligations.own_scratchpad_loads_and_stores : Prop :=
  ∀ (s : State) (rd rs1 rs2 : Reg) (la : La) (imm : Int) (off : Nat), MemoriesOk s → GateOpen s → Plain s rs1 → Plain s rs2 → s.cur < 1024 →
    (∀ p ∈ loads, OwnPad s (getX rs1.val (me s) + BitVec.ofInt 64 (p.2.1 * imm)).toNat off p.2.1 → PadClean s off p.2.1 →
      ∃ t, exec (p.1 rd rs1 imm la) s = .next t ∧ RegsKept s t ∧ (∀ q, byteOf t q = byteOf s q) ∧
        (coreOf t s.cur).full = (me s).full ∧
        OnItsWay s t rd la (p.2.2 (((List.range p.2.1).map (fun i => (byteOf s (.pad s.cur (off + i))).toNat * 256 ^ i)).sum))) ∧
    (∀ p ∈ stores, OwnPad s (getX rs1.val (me s) + BitVec.ofInt 64 imm).toNat off p.2 →
      ∃ t, exec (p.1 rs2 rs1 imm) s = .next t ∧ RegsKept s t ∧ PadBytes s.cur off p.2 (getX rs2.val (me s)).toNat s t ∧
        (coreOf t s.cur).full = (me s).full ∧ (coreOf t s.cur).scb = (me s).scb)

/-- An access that breaks a rule of alignment, window or full/empty use takes the fault of the first check it breaks.
Rests on 02 R25, 02 R26, 11 R244, 03 R66, 11 R246. -/
def Obligations.faults_of_misaligned_and_window_accesses : Prop :=
  (
    ∀ (s : State) (rd rs1 rs2 : Reg) (la : La) (off : Nat) (va : Word), GateOpen s → Plain s rs1 → Plain s rs2 → va = getX rs1.val (me s) → off < 2 ^ 22 →
      ∀ i ∈ [Instr.ld rd rs1 0 la, .sd rs2 rs1 0], off % 8 = 0 →
      (va = BitVec.ofNat 64 (0x00E8000000000000 + off) → isLive s (dOf s.cur) = true →
        (isSup (me s) = false → inPaddock s (tenantOf (me s)) (clOf s.cur) = false →
          exec i s = .next (takeTrap s.cur 0x206 va (me s).pc s)) ∧
        ((isSup (me s) = true ∨ inPaddock s (tenantOf (me s)) (clOf s.cur) = true) → spSize (me s) ≤ off →
          exec i s = .next (takeTrap s.cur 0x205 va (me s).pc s)) ∧
        ((isSup (me s) = true ∨ inPaddock s (tenantOf (me s)) (clOf s.cur) = true) → off < spSize (me s) → tileOf off ∈ (me s).owner →
          exec i s = .next (takeTrap s.cur 0x203 va (me s).pc s))) ∧
      (va = BitVec.ofNat 64 (0x00E1000000000000 + off) → exec i s = .next (takeTrap s.cur 0x37F va (me s).pc s))) ∧
  (
    ∀ (s : State) (rd rs1 rs2 : Reg) (la : La) (va : Word), GateOpen s → Plain s rs1 → Plain s rs2 → rd.val < 28 → va = getX rs1.val (me s) →
      ∀ i ∈ [Instr.ldfE rd rs1 0 la, .ldfF rd rs1 0 la, .ste rs2 rs1 0, .stf rs2 rs1 0, .fetag rd rs1 0, .fsetE rs1 0, .fsetF rs1 0],
      (va.toNat % 8 ≠ 0 → exec i s = .next (takeTrap s.cur 0x201 va (me s).pc s)) ∧
      (va.toNat % 8 = 0 → canonical va.toNat = true → inWindows va.toNat = false →
        (∀ e, resolve (whoCore s s.cur) .load .atomic va.toNat s = .error e → e ≠ 0x207) →
        exec i s = .next (takeTrap s.cur 0x204 va (me s).pc s))) ∧
  (
    ∀ (s : State) (rd rs1 rs2 : Reg) (dbl : Bool) (sc : Scope) (la : La) (k : Fin 3), GateOpen s → Plain s rs1 → Plain s rs2 → Plain s rd →
      (∀ p ∈ atomics, (getX rs1.val (me s)).toNat % (if dbl then 8 else 4) ≠ 0 →
        exec (p.1 rd rs1 dbl false false sc la) s = .next (takeTrap s.cur 0x201 (getX rs1.val (me s)) (me s).pc s)) ∧
      ((getX rs1.val (me s)).toNat % (if dbl then 8 else 4) ≠ 0 → ∀ i ∈ [Instr.lr rd rs1 dbl false sc la, .sc rd rs1 dbl false sc la],
        exec i s = .next (takeTrap s.cur 0x201 (getX rs1.val (me s)) (me s).pc s)) ∧
      (∀ p ∈ reductions, (getX rs1.val (me s)).toNat % (if dbl then 8 else 4) ≠ 0 →
        exec (p.1 rs2 rs1 dbl) s = .next (takeTrap s.cur 0x201 (getX rs1.val (me s)) (me s).pc s)) ∧
      ((getX rs1.val (me s)).toNat % 2 ^ (k.val + 1) ≠ 0 → orderOp s.cur true false false false sc s = .ok s →
        exec (.loadAcquire rd rs1 (Fin.ofNat 8 (k.val + 1)) sc la) s = .next (takeTrap s.cur 0x201 (getX rs1.val (me s)) (me s).pc s)) ∧
      ((getX rs1.val (me s)).toNat % 2 ^ (k.val + 1) ≠ 0 → orderOp s.cur false true false true sc s = .ok s →
        exec (.storeRelease rs2 rs1 (Fin.ofNat 4 (k.val + 1)) sc) s = .next (takeTrap s.cur 0x201 (getX rs1.val (me s)) (me s).pc s)))

/-- ldf, ste, stf, fetag and fset act on a word and its tag as the table of full/empty operations says. Rests on 03 R65,
03 R66, 03 R67, 11 R253, 11 R254. -/
def Obligations.full_empty_operations_on_a_word : Prop :=
  ∀ (s : State) (rd rs1 rs2 : Reg) (la : La) (imm : Int) (home off va va8 : Nat), MemoriesOk s → GateOpen s → Plain s rs1 → Plain s rs2 → (me s).scb = [] →
    va8 = (getX rs1.val (me s) + BitVec.ofInt 64 (8 * imm)).toNat → va = (getX rs1.val (me s) + BitVec.ofInt 64 imm).toNat →
    (∀ w ∈ (coreOf s home).waiters ++ (coreOf s home).nacked, w.off / 8 ≠ off / 8) → (∀ w ∈ (coreOf s home).spBad ++ (coreOf s home).spPois, w ≠ off / 16) →
    parked s s.cur = false →
    (feWord (whoCore s s.cur) va8 s = .ok (home, off) →
      (tagFull s home off = true →
        (∃ t, exec (.ldfE rd rs1 imm la) s = .next t ∧ RegsKept s t ∧ OnItsWay s t rd la (wd (spRead s home off 8)) ∧
          TagsAfter home off false s t ∧ (∀ p, byteOf t p = byteOf s p)) ∧
        (∃ t, exec (.ldfF rd rs1 imm la) s = .next t ∧ RegsKept s t ∧ OnItsWay s t rd la (wd (spRead s home off 8)) ∧
          TagsAfter home off true s t ∧ (∀ p, byteOf t p = byteOf s p))) ∧
      (tagFull s home off = false → ∀ i ∈ [Instr.ldfE rd rs1 imm la, .ldfF rd rs1 imm la],
        ∃ t, exec i s = .next t ∧ RegsKept s t ∧ TagsAfter home off false s t ∧ (∀ p, byteOf t p = byteOf s p) ∧
          ∃ w, (coreOf t s.cur).windows.getLast? = some w ∧ w.st = .waitTag home off va8 ∧ w.remain = la.val) ∧
      (rd.val < 28 → ∃ t, exec (.fetag rd rs1 imm) s = .next t ∧ RegsOnly [rd.val] s t ∧
        getX rd.val (coreOf t s.cur) = if rd.val = 0 then 0 else if tagFull s home off then 1 else 0)) ∧
    (feWord (whoCore s s.cur) va s = .ok (home, off) →
      (tagFull s home off = false → ∃ t, exec (.ste rs2 rs1 imm) s = .next t ∧ RegsKept s t ∧ TagsAfter home off true s t ∧
        PadBytes home off 8 (getX rs2.val (me s)).toNat s t) ∧
      (tagFull s home off = true → ∃ t, exec (.ste rs2 rs1 imm) s = .next t ∧ (coreOf t s.cur).stall = some ⟨1, wd va, 0⟩ ∧
        (coreOf t s.cur).pc = (me s).pc ∧ TagsAfter home off true s t ∧ (∀ p, byteOf t p = byteOf s p)) ∧
      (∃ t, exec (.stf rs2 rs1 imm) s = .next t ∧ RegsKept s t ∧ TagsAfter home off true s t ∧
        PadBytes home off 8 (getX rs2.val (me s)).toNat s t) ∧
      (∃ t, exec (.fsetE rs1 imm) s = .next t ∧ RegsKept s t ∧ TagsAfter home off false s t ∧ (∀ p, byteOf t p = byteOf s p)) ∧
      (∃ t, exec (.fsetF rs1 imm) s = .next t ∧ RegsKept s t ∧ TagsAfter home off true s t ∧ (∀ p, byteOf t p = byteOf s p)))

/-- Atomics return the old value and store what their operation makes of it, in one indivisible step. Rests on 06 R122, 06
R133, 11 R246, 11 R255, 11 R256, 04 R79. -/
def Obligations.atomics_on_the_own_scratchpad : Prop :=
  ∀ (s s2 : State) (rd rs1 : Reg) (aq rl : Bool) (sc : Scope) (la : La) (off : Nat) (w : Nat) (dbl : Bool) (old v : BitVec w),
    GateOpen s → ((aq = false ∧ rl = false ∧ s2 = s) ∨ orderOp s.cur aq rl false rl sc s = .ok s2) → s2.cur = s.cur → s2.cur < 1024 → MemoriesOk s2 →
    Plain s2 rs1 → Plain s2 rd → (me s2).scb = [] → w = (if dbl then 64 else 32) → getX rs1.val (me s2) = BitVec.ofNat 64 (0x00E8000000000000 + off) →
    off % (w / 8) = 0 → OwnPad s2 (0x00E8000000000000 + off) off (w / 8) → PadClean s2 off (w / 8) →
    old = BitVec.ofNat w (spRead s2 s.cur off (w / 8)) → v = (getX rd.val (me s2)).setWidth w →
    (∀ p ∈ atomics, ∃ t, exec (p.1 rd rs1 dbl aq rl sc la) s = .next t ∧ OnItsWay s t rd la (old.signExtend 64) ∧
      PadBytes s.cur off (w / 8) (p.2 w old v).toNat s2 t ∧ (coreOf t s.cur).regs = (me s2).regs ∧ (coreOf t s.cur).full = (me s2).full) ∧
    (dbl = false → ∃ t, exec (.amofadd rd rs1 aq rl sc la) s = .next t ∧ OnItsWay s t rd la (old.setWidth 64) ∧
      PadBytes s.cur off (w / 8) (fadd32 old.toNat v.toNat) s2 t ∧ (coreOf t s.cur).regs = (me s2).regs) ∧
    ((me s2).badX = [] → rd.val + 1 < 28 → ∃ t, exec (.amocas rd rs1 dbl aq rl sc la) s = .next t ∧ (coreOf t s.cur).regs = (me s2).regs ∧
      (∃ k, (coreOf t s.cur).windows.getLast? = some k ∧ k.remain = la.val ∧ k.dx = (if rd.val = 0 then [] else [rd.val, rd.val + 1]) ∧ k.st = .flying ∧
        k.xval = [(rd.val, old.signExtend 64)]) ∧
      PadBytes s.cur off (w / 8) (if old = v then ((getX (rd.val + 1) (me s2)).setWidth w).toNat else old.toNat) s2 t)

/-- lr reserves a line; sc stores and writes 0 only under a standing reservation of its line and size, else writes 1.
Rests on 06 R134, 11 R257. -/
def Obligations.reservations_decide_store_conditional : Prop :=
  ∀ (s : State) (rd rs1 : Reg) (la : La) (sc : Scope) (off w : Nat) (dbl : Bool), MemoriesOk s → GateOpen s → s.cur < 1024 →
    Plain s rs1 → Plain s rd → (me s).scb = [] → w = (if dbl then 64 else 32) → getX rs1.val (me s) = BitVec.ofNat 64 (0x00E8000000000000 + off) →
    off % (w / 8) = 0 → OwnPad s (0x00E8000000000000 + off) off (w / 8) → PadClean s off (w / 8) →
    (∃ t, exec (.lr rd rs1 dbl false sc la) s = .next t ∧ (coreOf t s.cur).resv = some ⟨spLine s.cur off, dbl⟩ ∧
      OnItsWay s t rd la ((BitVec.ofNat w (spRead s s.cur off (w / 8))).signExtend 64) ∧ (∀ p, byteOf t p = byteOf s p)) ∧
    ((me s).resv = some ⟨spLine s.cur off, dbl⟩ →
      ∃ t, exec (.sc rd rs1 dbl false sc la) s = .next t ∧ (coreOf t s.cur).resv = none ∧ OnItsWay s t rd la 0 ∧
        PadBytes s.cur off (w / 8) (getX rd.val (me s)).toNat s t) ∧
    ((me s).resv ≠ some ⟨spLine s.cur off, dbl⟩ →
      ∃ t, exec (.sc rd rs1 dbl false sc la) s = .next t ∧ (coreOf t s.cur).resv = none ∧ OnItsWay s t rd la 1 ∧
        (∀ p, byteOf t p = byteOf s p))

/-- Update-only reductions combine their operand into the element and return nothing. Rests on 04 R79, 04 R82, 11 R246, 11
R258. -/
def Obligations.reductions_combine_into_their_element : Prop :=
  ∀ (s : State) (rs1 rs2 : Reg) (dbl : Bool) (off w : Nat) (old v : BitVec w), MemoriesOk s → GateOpen s → s.cur < 1024 →
    Plain s rs1 → Plain s rs2 → w = (if dbl then 64 else 32) →
    (getX rs1.val (me s) = BitVec.ofNat 64 (0x00E8000000000000 + off) → off % (w / 8) = 0 → (me s).scb = [] →
      OwnPad s (0x00E8000000000000 + off) off (w / 8) → old = BitVec.ofNat w (spRead s s.cur off (w / 8)) →
      v = (getX rs2.val (me s)).setWidth w →
      (∀ p ∈ reductions, ∃ t, exec (p.1 rs2 rs1 dbl) s = .next t ∧ RegsKept s t ∧ (coreOf t s.cur).full = (me s).full ∧
        PadBytes s.cur off (w / 8) (p.2.2 w old v).toNat s t) ∧
      (dbl = false → ∃ t, exec (.redfadd rs2 rs1) s = .next t ∧ RegsKept s t ∧ (coreOf t s.cur).full = (me s).full ∧
        PadBytes s.cur off (w / 8) (fadd32 old.toNat v.toNat) s t)) ∧
    (∀ (p : Piece) (s4 u u1 u2 t : State), (getX rs1.val (me s)).toNat % (w / 8) = 0 →
      resolvePieces (whoCore s s.cur) .store .atomic [((getX rs1.val (me s)).toNat, w / 8)] s = .ok ([p], s4) →
      u = drainLine s.cur (p.ref.pa / 128) s4 →
      u1 = (if p.ref.kind = 6 ∨ p.ref.kind = 3 then countAccess s.cur (whoCore s s.cur) false [p.ref] u else u) →
      (if p.ref.kind = 4 then rpClear s.cur s (p.ref.pa / 128) u1 else .ok u1) = .ok u2 →
      (∀ q ∈ reductions, reduceAt s.cur (whoCore s s.cur) p.ref q.2.1 dbl ((getX rs2.val (me s)).toNat % 2 ^ w) u2 = .ok t →
        exec (q.1 rs2 rs1 dbl) s = .next (retire s.cur 4 s t)) ∧
      (dbl = false → reduceAt s.cur (whoCore s s.cur) p.ref .fadd false ((getX rs2.val (me s)).toNat % 2 ^ w) u2 = .ok t →
        exec (.redfadd rs2 rs1) s = .next (retire s.cur 4 s t)))

/-- A fence with an empty set does nothing; any other completes once its commands and its order are done, with its stores
drained. Rests on 06 R126, 06 R128, 06 R129, 06 R130, 11 R259, 17 R409. -/
def Obligations.fences_wait_and_then_order : Prop :=
  ∀ (s : State) (pred succ : Fin 256) (sc : Scope),
    (pred.val = 0 ∨ succ.val = 0 → exec (.fence pred succ sc) s = .next (retire s.cur 4 s s)) ∧
    (pred.val ≠ 0 → succ.val ≠ 0 → GateOpen s →
      (∀ t, fenceWaits s pred.val = none →
        orderOp s.cur (bit succ.val 7 || bit succ.val 3 || bit succ.val 1) (bit pred.val 6 || bit pred.val 2 || bit pred.val 0) true
          (bit pred.val 6) sc s = .ok t →
        exec (.fence pred succ sc) s = .next (retire s.cur 4 s t) ∧
        (bit pred.val 6 = true → (coreOf (retire s.cur 4 s t) s.cur).scb = [])) ∧
      (∀ n, fenceWaits s pred.val = some n → ∃ t, exec (.fence pred succ sc) s = .next t ∧ (coreOf t s.cur).pc = (me s).pc ∧
        ((coreOf t s.cur).stall.map (fun x => x.what)) = some 6)) ∧
    (∀ b : Nat, (sc = .c ∨ sc = .q ∨ sc = .t ∨ sc = .d) → (bit b 2 = true → parked (drainAll s.cur s) s.cur = false) →
      ∃ t, orderOp s.cur (bit b 0) (bit b 1) true (bit b 2) sc s = .ok t)

/-- ifence is one word, discards the fetch buffer and changes nothing else. Formalises R260. -/
def Obligations.ifence_discards_the_fetch_buffer : Prop :=
  decodeWords [0x0000100F] = .ok (.ifence, 4) ∧
  (∀ w, w < 2 ^ 32 → w % 128 = 0x0F → bits w 14 12 = 1 → w ≠ 0x0000100F → decodeWords [w] = .error 0x05) ∧
  (∀ s : State, ∃ t, exec .ifence s = .next t ∧ OnlyCore s.cur s t ∧ (coreOf t s.cur).fbuf = [] ∧ RegsKept s t ∧
    (coreOf t s.cur).scb = (me s).scb ∧ (coreOf t s.cur).i0 = (me s).i0 ∧ (∀ p, byteOf t p = byteOf s p))

/-- Code invalidation, prefetches and translation logs complete with their effect. Rests on 04 R89, 04 R90, 11 R261, 11
R262, 02 R36, 02 R38, 02 R39, 11 R263. -/
def Obligations.code_and_translation_maintenance : Prop :=
  (
    ∀ (s : State) (rs1 rs2 : Reg) (sc : Scope) (imm : Int) (a n : Word), Plain s rs1 → Plain s rs2 → a = getX rs1.val (me s) → n = getX rs2.val (me s) →
      (2 ^ 28 < n.toNat → exec (.codeinv rs1 rs2 sc) s = .next (takeTrap s.cur 0x205 a (me s).pc s)) ∧
      ((parked (drainAll s.cur s) s.cur || l2Busy s (dOf s.cur)) = true → n.toNat ≤ 2 ^ 28 →
        exec (.codeinv rs1 rs2 sc) s = .next (setStall s.cur 10 a (drainAll s.cur s))) ∧
      ((parked (drainAll s.cur s) s.cur || l2Busy s (dOf s.cur)) = false → n = 0 →
        exec (.codeinv rs1 rs2 sc) s = .next (retire s.cur 4 s (drainAll s.cur s))) ∧
      ((parked (drainAll s.cur s) s.cur || l2Busy s (dOf s.cur)) = false → 0 < n.toNat → n.toNat ≤ 2 ^ 28 → ∃ t, exec (.codeinv rs1 rs2 sc) s = .next t ∧ RegsKept s t ∧ (coreOf t s.cur).scb = [] ∧
        ∀ r ∈ codeRanges (whoCore (drainAll s.cur s) s.cur) a.toNat n.toNat (drainAll s.cur s), ∀ l, r.1 ≤ l → l ≤ r.2 →
          (∀ k ∈ (coreOf t s.cur).i0, k.line ≠ l) ∧
          (2 ≤ sc.code → ∀ k ∈ (clusterOf t (clOf s.cur)).i1, k.line ≠ l) ∧
          (3 ≤ sc.code → clDie (clOf s.cur) = dOf s.cur → ∀ k ∈ (dieOf t (dOf s.cur)).i2, k.line ≠ l)) ∧
      (∃ t, exec (.ipref rs2 rs1) s = .next t ∧ RegsKept s t) ∧
      (∃ t, exec (.dpref rs1 imm) s = .next t ∧ RegsKept s t)) ∧
  (
    ∀ (s : State) (rd rs1 rs2 : Reg) (d : Fin 8), Plain s rs1 → Plain s rs2 → 0 < rd.val → rd.val < 28 →
      (isSup (me s) = false → ∀ i ∈ [Instr.tlblog rd rs1 rs2 d, .tlblogw rd rs1 rs2 d],
        exec i s = .next (takeTrap s.cur 0x07 (wd (encWord i)) (me s).pc s)) ∧
      (isSup (me s) = true → ∀ i ∈ [Instr.tlblog rd rs1 rs2 d, .tlblogw rd rs1 rs2 d],
        (isLive s d.val = false → exec i s = .next (takeTrap s.cur 0x20A (wd d.val) (me s).pc s)) ∧
        (isLive s d.val = true → (ilRing (dieOf s d.val)).1 < d.val * 2 ^ 37 →
          exec i s = .next (takeTrap s.cur 0x205 (dieOf s d.val).ilbase (me s).pc s))) ∧
      (MemoriesOk s → isSup (me s) = true → GateOpen s → (me s).logSeq = none → isLive s d.val = true → d.val * 2 ^ 37 ≤ (ilRing (dieOf s d.val)).1 →
        (ilRing (dieOf s d.val)).1 + 16 * (ilRing (dieOf s d.val)).2 ≤ (d.val + 1) * 2 ^ 37 → (dieOf s d.val).ildone.toNat ≤ (dieOf s d.val).ilhead.toNat →
        (dieOf s d.val).ilhead.toNat + 1 < 2 ^ 64 → (dieOf s d.val).ilhead.toNat - (dieOf s d.val).ildone.toNat < (ilRing (dieOf s d.val)).2 →
        (∃ t, exec (.tlblog rd rs1 rs2 d) s = .next t ∧ getX rd.val (coreOf t s.cur) = (dieOf s d.val).ilhead ∧
          (dieOf t d.val).ilhead = (dieOf s d.val).ilhead + 1 ∧
          Memory.readN t.mem ((ilRing (dieOf s d.val)).1 + 16 * ((dieOf s d.val).ilhead.toNat % (ilRing (dieOf s d.val)).2)) 8 = (getX rs1.val (me s)).toNat ∧
          Memory.readN t.mem ((ilRing (dieOf s d.val)).1 + 16 * ((dieOf s d.val).ilhead.toNat % (ilRing (dieOf s d.val)).2) + 8) 8 = (getX rs2.val (me s)).toNat) ∧
        ((∀ e ∈ s.clusters, e.2.nodes = []) → ∃ t, exec (.tlblogw rd rs1 rs2 d) s = .next t ∧
          getX rd.val (coreOf t s.cur) = (dieOf s d.val).ilhead ∧ (dieOf t d.val).ilhead = (dieOf s d.val).ilhead + 1 ∧
          (dieOf t d.val).ildone = (dieOf s d.val).ilhead + 1)))

/-- Tile integer instructions write the result of their operation to every element of the active slots. Rests on 13 R290,
13 R295, 13 R311, 09 R195. -/
def Obligations.tile_integer_results : Prop :=
  ∀ p ∈ tileInts, ∀ (vd vs1 src2 : Reg) (x : Bool) (ty : TInt) (pfx : Option Pfx) (s s1 s2 t : State) (a : Tile) (b : Elems),
    tileGate (p.1 vd vs1 src2 x ty pfx) true (pfxOf pfx) (if x then [vd, vs1] else [vd, vs1, src2]) s = .ok () →
    readV1 (pfxOf pfx) vs1 s = .ok (a, s1) → readSrc2 (tintW ty) x src2 s1 = .ok (b, s2) →
    writeV vd (pfxOf pfx).zero ((lanesOn (me s) (pfxOf pfx).mask.val).map (fun n => packLane n (tintW ty) (fun k =>
      ((p.2 (pfxOf pfx).sat (tintSigned ty) (tintW ty) (BitVec.ofNat (tintW ty) (elemsOf (tintW ty) a n k))
        (BitVec.ofNat (tintW ty) (b n k))).toNat, 0)) (32 / tintW ty))) s2 = .ok t →
    exec (p.1 vd vs1 src2 x ty pfx) s = .next (retire s.cur (lenOf pfx) s t)

/-- Tile FP instructions give each element of the active slots its result, and accrue the flags. Rests on 12 R270, 12
R271, 13 R296, 13 R297, 13 R298, 10 R231. -/
def Obligations.tile_fp_results : Prop :=
  (
    (∀ p ∈ tileFlts, ∀ (vd vs1 src2 : Reg) (x : Bool) (ty : TFlt) (pfx : Option Pfx) (s s1 s2 s3 t : State) (a c : Tile) (b : Elems)
        (mode per : Nat) (on : List Nat) (l : List Lane),
      mode = modeOf (me s) (pfxOf pfx).rm.val → per = 32 / (tfltFmt ty).width → on = lanesOn (me s) (pfxOf pfx).mask.val →
      tileGate (p.1 vd vs1 src2 x ty pfx) (tfltOther ty) (pfxOf pfx)
        ([vd, vs1] ++ (if x then [] else [src2]) ++ (if p.2.1 then [(pfxOf pfx).op4] else [])) s = .ok () →
      readV1 (pfxOf pfx) vs1 s = .ok (a, s1) → readSrc2 (tfltFmt ty).width x src2 s1 = .ok (b, s2) →
      (if p.2.1 then readV (pfxOf pfx).op4 s2 = .ok (c, s3) else s3 = s2 ∧ c = Tile.zero) →
      l = lanesOf (fun n j => packLane n (tfltFmt ty).width (fun k =>
        roundF (p.2.2 (decodeF (tfltFmt ty) (elemsOf (tfltFmt ty).width a n k)) (decodeF (tfltFmt ty) (b n k))
          (decodeF (tfltFmt ty) (elemsOf (tfltFmt ty).width c n k)) mode) (tfltFmt ty) mode (pfxOf pfx).sat
          (if mode = 6 then drawAt (me s) (j * per + k) else 0)) per) on →
      (me s3).fpDiv = false → writeV vd (pfxOf pfx).zero l (if p.2.1 then count 0x93 on.length s.cur s3 else s3) = .ok t →
      exec (p.1 vd vs1 src2 x ty pfx) s = .next (retire s.cur (lenOf pfx) s (modCore s.cur (accrue (flagsOf l))
        (takeDraws (if mode = 6 then on.length * per else 0) t)))) ∧
    (∀ (vd vs1 vs2 : Reg) (pfx : Option Pfx) (s s1 s2 s3 s4 t : State) (a b c d : Tile) (mode : Nat) (on : List Nat) (l : List Lane),
      mode = modeOf (me s) (pfxOf pfx).rm.val → on = lanesOn (me s) (pfxOf pfx).mask.val →
      tileGate (.vscacc vd vs1 vs2 pfx) false (pfxOf pfx) [vd, vs1, vs2, (pfxOf pfx).op4] s = .ok () →
      readV1 (pfxOf pfx) vs1 s = .ok (a, s1) → readV vs2 s1 = .ok (b, s2) → readV (pfxOf pfx).op4 s2 = .ok (c, s3) →
      readOld vd s3 = .ok (d, s4) →
      l = lanesOf (fun n j =>
        let f (v : BitVec 32) : Exact := decodeF .f32 v.toNat
        let sc := roundF (mulNum (f (b.slot (8 * (n / 8)))) (f (c.slot (n % 8)))) .f32 mode false (drawIf mode (me s) (2 * j))
        let r := roundF (fmaNum (decodeF .f32 sc.1) (f (a.slot n)) (f (d.slot n)) mode) .f32 mode (pfxOf pfx).sat
          (drawIf mode (me s) (2 * j + 1))
        { slot := n, val := r.1, fl := sc.2 ||| r.2 }) on →
      (me s4).fpDiv = false → writeV vd (pfxOf pfx).zero l (count 0x93 on.length s.cur s4) = .ok t →
      exec (.vscacc vd vs1 vs2 pfx) s = .next (retire s.cur (lenOf pfx) s (modCore s.cur (accrue (flagsOf l))
        (takeDraws (if mode = 6 then 2 * on.length else 0) t))))) ∧
  (
    ∀ (vd vs1 src2 : Reg) (x big : Bool) (ty : TFlt) (pfx : Option Pfx) (s s1 s2 t : State) (a : Tile) (b : Elems) (w : Nat)
        (on : List Nat) (l : List Lane),
      w = (tfltFmt ty).width → on = lanesOn (me s) (pfxOf pfx).mask.val → readV1 (pfxOf pfx) vs1 s = .ok (a, s1) →
      (∀ i, i = (if big then .vfmax vd vs1 src2 x ty pfx else .vfmin vd vs1 src2 x ty pfx) →
        tileGate i (tfltOther ty) (pfxOf pfx) (if x then [vd, vs1] else [vd, vs1, src2]) s = .ok () →
        readSrc2 w x src2 s1 = .ok (b, s2) →
        l = on.map (fun n => packLane n w (fun k => fminmax (tfltFmt ty) big (elemsOf w a n k) (b n k)) (32 / w)) →
        (me s2).fpDiv = false → writeV vd (pfxOf pfx).zero l s2 = .ok t →
        exec i s = .next (retire s.cur (lenOf pfx) s (modCore s.cur (accrue (flagsOf l)) t))) ∧
      (∀ i, i = (if big then .vfneg vd vs1 ty pfx else .vfabs vd vs1 ty pfx) →
        tileGate i (tfltOther ty) (pfxOf pfx) [vd, vs1] s = .ok () →
        l = on.map (fun n => packLane n w (fun k => ((if big then BitVec.ofNat w (elemsOf w a n k) ^^^ BitVec.ofNat w (2 ^ (w - 1))
          else BitVec.ofNat w (elemsOf w a n k) &&& ~~~(BitVec.ofNat w (2 ^ (w - 1)))) : BitVec w).toNat |> fun v => (v, 0)) (32 / w)) →
        (me s1).fpDiv = false → writeV vd (pfxOf pfx).zero l s1 = .ok t →
        exec i s = .next (retire s.cur (lenOf pfx) s t)))

/-- vfdiv, vfsqrt and the special functions open a window with their result tile and its flags. Rests on 09 R198, 13 R289,
13 R290, 13 R299, 13 R300. -/
def Obligations.tile_divides_roots_and_special_functions_open_windows : Prop :=
  ∀ (vd vs1 vs2 : Reg) (la : La) (pfx : Option Pfx) (s s1 s2 : State) (a b : Tile) (mode per : Nat) (on : List Nat) (l : List Lane)
      (win : Window),
    mode = modeOf (me s) (pfxOf pfx).rm.val → on = lanesOn (me s) (pfxOf pfx).mask.val → readV vs1 s = .ok (a, s1) →
    (me s2).fpDiv = false → vd.val ∉ (me s2).badT →
    win = { pcw := (me s2).pc.toNat, remain := la.val + 1, dx := [], dv := [vd.val], st := .flying, xval := []
            tval := [(vd.val, laneTile (getV vd.val (me s2)) (pfxOf pfx).zero l)], flags := flagsOf l, txns := [] } →
    (∀ p ∈ tileLongs, per = 32 / p.2.2.width →
      tileGate (p.1 vd vs1 vs2 la pfx) (p.2.2 != .f32) (pfxOf pfx) (if p.2.1 then [vs1, vs2] else [vs1]) s = .ok () →
      (if p.2.1 then readV vs2 s1 = .ok (b, s2) else s2 = s1) →
      l = lanesOf (fun n j => packLane n p.2.2.width (fun k =>
        let e (t : Tile) : Exact := decodeF p.2.2 (elemsOf p.2.2.width t n k)
        let q := if p.2.1 then divNum (e a) (e b) else (sqrtNum (e a), false)
        let r := roundF q.1 p.2.2 mode (pfxOf pfx).sat (drawIf mode (me s) (j * per + k))
        (r.1, r.2 + if q.2 then 8 else 0)) per) on →
      exec (p.1 vd vs1 vs2 la pfx) s = .next (retire s.cur (lenOf pfx) s (modCore s.cur
        (fun x => { x with windows := x.windows ++ [win], tileuse := true })
        (count 0x92 1 s.cur (takeDraws (if mode = 6 then on.length * per else 0) s2))))) ∧
    (∀ p ∈ specials, s2 = s1 → tileGate (p.1 vd vs1 la pfx) false (pfxOf pfx) [vs1] s = .ok () →
      l = on.map (fun n => { slot := n, val := (p.2 (a.slot n).toNat).1 % 2 ^ 32, fl := (p.2 (a.slot n).toNat).2 }) →
      exec (p.1 vd vs1 la pfx) s = .next (retire s.cur (lenOf pfx) s (modCore s.cur
        (fun x => { x with windows := x.windows ++ [win], tileuse := true }) (count 0x92 1 s.cur (takeDraws 0 s2)))))

/-- Conversions, permutes, selects and moves give each written slot what their table names. Rests on 12 R274, 13 R301, 13
R302, 13 R303, 13 R291, 13 R304, 13 R307, 13 R309, 13 R310. -/
def Obligations.tile_conversions_moves_and_permutes : Prop :=
  (
    ∀ (vd vs1 : Reg) (dst src : Fmt) (part : Fin 8) (pfx : Option Pfx) (s s1 s2 t : State) (a old : Tile) (mode calls : Nat) (on : List Nat)
        (l : List Lane),
      (dst.perSlot = src.perSlot → part.val = 0) → (me s2).fpDiv = false →
      mode = modeOf (me s) (pfxOf pfx).rm.val → on = lanesOn (me s) (pfxOf pfx).mask.val →
      calls = ((List.range dst.perSlot).filter (fun k =>
        convPart dst.perSlot src.perSlot part.val k != .keep && convPart dst.perSlot src.perSlot part.val k != .zero)).length →
      tileGate (.vcvt vd vs1 dst src part pfx) (dst != .f32 || src != .f32) (pfxOf pfx) [vd, vs1] s = .ok () →
      readV1 (pfxOf pfx) vs1 s = .ok (a, s1) →
      (if src.perSlot < dst.perSlot then readOld vd s1 = .ok (old, s2) else s2 = s1) →
      l = lanesOf (fun n j => packLane n dst.width (fun k =>
        match convPart dst.perSlot src.perSlot part.val k with
        | .conv e => cvtElem dst src mode (pfxOf pfx).sat
            (drawIf mode (me s) (j * calls + if src.perSlot < dst.perSlot then e else k)) (elemsOf src.width a n e)
        | .zero => (0, 0)
        | .keep => (elemsOf dst.width old n k, 0)) dst.perSlot) on →
      writeV vd (pfxOf pfx).zero l s2 = .ok t →
      exec (.vcvt vd vs1 dst src part pfx) s = .next (retire s.cur (lenOf pfx) s (modCore s.cur (accrue (flagsOf l))
        (takeDraws (if cvtDraws dst src = true ∧ mode = 6 then on.length * calls else 0) t)))) ∧
  (
    ∀ (vd vs1 vs2 xs : Reg) (pfx : Option Pfx) (s s1 s2 t : State) (a b : Tile) (v v2 : Word) (on : List Nat) (R C : Nat),
      on = lanesOn (me s) (pfxOf pfx).mask.val → R = bits (me s).tshape.toNat 5 3 + 1 → C = bits (me s).tshape.toNat 2 0 + 1 →
      (readV1 (pfxOf pfx) vs1 s = .ok (a, s1) →
        (∀ p ∈ ([(.vmv vd vs1 pfx, fun k => k), (.vtrans vd vs1 pfx, fun k => 8 * (k % 8) + k / 8)] : List (Instr × (Nat → Nat))),
          (p.1 = .vmv vd vs1 pfx ∨ R = C) → tileGate p.1 false (pfxOf pfx) [vd, vs1] s = .ok () →
          writeV vd (pfxOf pfx).zero (on.map (fun k => { slot := k, val := (a.slot (p.2 k)).toNat, fl := 0 })) s1 = .ok t →
          exec p.1 s = .next (retire s.cur (lenOf pfx) s t)) ∧
        (∀ p ∈ movers, tileGate (p.1 vd vs1 xs pfx) false (pfxOf pfx) [vd, vs1] s = .ok () → readX xs s1 = .ok (v, s2) →
          writeV vd (pfxOf pfx).zero (on.map (fun k =>
            let q := p.2 (k / 8 : Nat) (k % 8 : Nat) v
            { slot := k, fl := 0
              val := if (0 ≤ q.1 ∧ q.1 < 8 ∧ 0 ≤ q.2 ∧ q.2 < 8) ∧ (p.1 vd vs1 xs pfx = .vslideR vd vs1 xs pfx → q.1 < R) ∧
                  (p.1 vd vs1 xs pfx = .vslideC vd vs1 xs pfx → q.2 < C)
                then (a.slot (8 * q.1 + q.2).toNat).toNat else 0 })) s2 = .ok t →
          exec (p.1 vd vs1 xs pfx) s = .next (retire s.cur (lenOf pfx) s t)) ∧
        (readV vs2 s1 = .ok (b, s2) →
          (tileGate (.vperm vd vs1 vs2 pfx) false (pfxOf pfx) [vd, vs1, vs2] s = .ok () →
            writeV vd (pfxOf pfx).zero (on.map (fun k => { slot := k, val := (a.slot ((b.slot k).toNat % 64)).toNat, fl := 0 })) s2 = .ok t →
            exec (.vperm vd vs1 vs2 pfx) s = .next (retire s.cur (lenOf pfx) s t)) ∧
          (tileGate (.vsel vd vs1 vs2 pfx) false (pfxOf pfx) [vd, vs1, vs2] s = .ok () →
            writeV vd false (((List.range 64).filter (fun k => decide (k / 8 < R ∧ k % 8 < C))).map (fun k =>
              { slot := k, fl := 0, val := if (getX (pfxOf pfx).mask.val (me s)).toNat.testBit k then (a.slot k).toNat else (b.slot k).toNat }))
              s2 = .ok t →
            exec (.vsel vd vs1 vs2 pfx) s = .next (retire s.cur (lenOf pfx) s t)))) ∧
      (R ≠ C → exec (.vtrans vd vs1 pfx) s =
        .next (takeTrap s.cur 0x30 (wd (encWord (.vtrans vd vs1 pfx))) (me s).pc s)) ∧
      (tileGate (.vgetx vd vs1 xs pfx) false (pfxOf none) [vs1] s = .ok () → readV vs1 s = .ok (a, s1) → readX xs s1 = .ok (v, s2) →
        writeX vd ((a.slot (v.toNat % 64)).signExtend 64) s2 = .ok t →
        exec (.vgetx vd vs1 xs pfx) s = .next (retire s.cur (lenOf pfx) s t)) ∧
      (tileGate (.vsetx vd vs1 xs pfx) false (pfxOf none) [vd] s = .ok () → readX vs1 s = .ok (v, s1) → readX xs s1 = .ok (v2, s2) →
        writeV vd false [{ slot := v2.toNat % 64, val := v.toNat % 2 ^ 32, fl := 0 }] s2 = .ok t →
        exec (.vsetx vd vs1 xs pfx) s = .next (retire s.cur (lenOf pfx) s t)) ∧
      (tileGate (.vbcx vd vs1 pfx) false (pfxOf pfx) [vd] s = .ok () → readX vs1 s = .ok (v, s1) →
        writeV vd (pfxOf pfx).zero (on.map (fun k => { slot := k, val := v.toNat % 2 ^ 32, fl := 0 })) s1 = .ok t →
        exec (.vbcx vd vs1 pfx) s = .next (retire s.cur (lenOf pfx) s t)) ∧
      (∀ p ∈ ([(.vrand, fun d => d), (.vrandf, fun d => (roundF (.fin false (d / 256) (-24) false) .f32 0 false 0).1)] :
          List ((Reg → Option Pfx → Instr) × (Nat → Nat))),
        tileGate (p.1 vd pfx) false (pfxOf pfx) [vd] s = .ok () →
        writeV vd (pfxOf pfx).zero (lanesOf (fun n j => { slot := n, val := p.2 (drawAt (me s) j), fl := 0 }) on) s = .ok t →
        exec (p.1 vd pfx) s = .next (retire s.cur (lenOf pfx) s (takeDraws on.length t))) ∧
      (∀ r c : Fin 8, exec (.tshape r c pfx) s =
        .next (retire s.cur (lenOf pfx) s (modCore s.cur (fun x => { x with tshape := BitVec.ofNat 64 (8 * r.val + c.val) }) s))))

/-- Reductions combine the active slots of each row or column; compares give one mask bit for each slot. Rests on 12 R284,
13 R305, 13 R308. -/
def Obligations.tile_reductions_and_compares : Prop :=
  (∀ (kind : Fin 3) (vd vs1 : Reg) (col : Bool) (F : Fmt) (pfx : Option Pfx) (s s1 t : State) (a : Tile) (i : Instr) (l : List Lane) (n : Nat),
    i = (if kind = 0 then .vredsum vd vs1 col F pfx else if kind = 1 then .vredmin vd vs1 col F pfx else .vredmax vd vs1 col F pfx) →
    tileGate i (F != .f32) (pfxOf pfx) [vd, vs1] s = .ok () → readV1 (pfxOf pfx) vs1 s = .ok (a, s1) → (me s1).fpDiv = false →
    (l, n) = redGo F (redEmpty F kind.val)
      (if kind = 0 then sumStep F (modeOf (me s) (pfxOf pfx).rm.val) (pfxOf pfx).sat (me s) else extStep F (kind = 2))
      a (redGroups (me s) col (pfxOf pfx).mask.val) 0 →
    writeV vd (pfxOf pfx).zero l s1 = .ok t →
    exec i s = .next (retire s.cur (lenOf pfx) s (if isFloat F then modCore s.cur (accrue (flagsOf l))
      (takeDraws (if modeOf (me s) (pfxOf pfx).rm.val = 6 then n else 0) t) else t)) ∧
    l.map (fun e => e.slot) = (if col then List.range (colsOf (me s)) else (List.range (rowsOf (me s))).map (fun r => 8 * r)) ∧
    (isFloat F = false → ∀ e ∈ l, e.fl = 0 ∧ ∃ es : List Nat,
      es = ((List.range 8).map (fun k => if col then 8 * k + e.slot else e.slot + k)).flatMap (fun k =>
        if active (me s) (pfxOf pfx).mask.val k then (List.range F.perSlot).map (elemsOf F.width a k) else []) ∧
      (kind = 0 → (pfxOf pfx).sat = false → ((e.val : Nat) : Int) = (es.map (decodeI F)).sum % 2 ^ F.width) ∧
      (kind ≠ 0 → es ≠ [] → e.val ∈ es) ∧
      (kind = 1 → ∀ q ∈ es, decodeI F e.val ≤ decodeI F q) ∧ (kind = 2 → ∀ q ∈ es, decodeI F q ≤ decodeI F e.val))) ∧
  (∀ (xd vs1 vs2 : Reg) (c : Cond) (F : CmpFmt) (pfx : Option Pfx) (s s1 s2 t : State) (a b : Tile) (w fl : Nat) (m : Word), w = (cmpParts F).2.1 →
    tileGate (.vcmp xd vs1 vs2 c F pfx) (F != .f32) (pfxOf pfx) [vs1, vs2] s = .ok () →
    readV1 (pfxOf pfx) vs1 s = .ok (a, s1) → readV vs2 s1 = .ok (b, s2) →
    (∀ k < 64, m.getLsbD k =
      (active (me s) (pfxOf pfx).mask.val k && (List.range (32 / w)).all (fun j => (cmpElem c F (elemsOf w a k j) (elemsOf w b k j)).1))) →
    (fl = 0 ∨ fl = 16) → (fl = 16 ↔ ∃ k < 64, active (me s) (pfxOf pfx).mask.val k = true ∧
      ∃ j < 32 / w, (cmpElem c F (elemsOf w a k j) (elemsOf w b k j)).2 ≠ 0) →
    writeX xd m s2 = .ok t →
    exec (.vcmp xd vs1 vs2 c F pfx) s = .next (retire s.cur (lenOf pfx) s
      (modCore s.cur (fun x => { x with fcsr := x.fcsr ||| BitVec.ofNat 64 fl }) t)))

/-- A tile instruction on registers completes and changes its destination register in the slots it writes and nothing
else. Rests on 13 R289, 13 R290, 13 R296, 13 R305, 13 R309, 13 R310. -/
def Obligations.tile_instructions_change_their_destination : Prop :=
  ∀ (i : Instr) (f : TileForm) (s : State), tileForm i = some f → TileReady f s →
    ∃ t, exec i s = .next t ∧ TileOnly (f.xd.toList.map (fun r => r.val)) (f.vd.toList.map (fun r => r.val)) s t ∧
      (coreOf t s.cur).pc = (me s).pc + BitVec.ofNat 64 (lenOf (i.pfx?)) ∧
      ∀ vd, f.vd = some vd → ∀ k < 64, k ∉ f.wrote (me s) →
        (getV vd.val (coreOf t s.cur)).slot k = if f.zero then 0 else (getV vd.val (me s)).slot k

/-- A tile source that names a link port pops its oldest entry and a destination pushes its results to the neighbour.
Rests on 13 R311, 13 R312, 13 R317, 08 R167. -/
def Obligations.link_ports_pop_and_push : Prop :=
  ∀ (s : State) (r : Reg) (zero : Bool) (l : List Lane) (e : LinkEntry) (rest : List LinkEntry) (dir n : Nat), r.val = 28 + dir → dir < 4 →
    ((me s).links.get [] dir = [] → readV r s = .error (.stall 5 (wd dir) 0x90)) ∧
    ((me s).links.get [] dir = e :: rest →
      ((dieOf s (dOf s.cur)).cyc < e.avail → readV r s = .error (.stall 5 (wd dir) 0x90)) ∧
      (e.avail ≤ (dieOf s (dOf s.cur)).cyc → ∃ t, readV r s = .ok (e.tile, t) ∧ OnlyCore s.cur s t ∧
        me t = { me s with links := (me t).links } ∧ (me t).links.get [] dir = rest)) ∧
    (neighbour s.cur dir = none → writeV r zero l s = .error (.trap 0x404 0)) ∧
    (neighbour s.cur dir = some n → dOf n = dOf s.cur →
      (4 ≤ ((coreOf s n).links.get [] ((dir + 2) % 4)).length → writeV r zero l s = .error (.stall 5 (wd dir) 0x91)) ∧
      (((coreOf s n).links.get [] ((dir + 2) % 4)).length < 4 → ∃ t q, writeV r zero l s = .ok t ∧
        t = { setCore n (coreOf t n) s with free := s.free + 1 } ∧ coreOf t n = { coreOf s n with links := (coreOf t n).links } ∧
        (coreOf t n).links.get [] ((dir + 2) % 4) = (coreOf s n).links.get [] ((dir + 2) % 4) ++ [q] ∧
        q.avail = (dieOf s (dOf n)).cyc + 2 ∧
        (∀ k < 64, (∀ x ∈ l, x.slot ≠ k) → q.tile.slot k = 0) ∧
        (∀ x ∈ l, x.slot < 64 → (l.map (fun y => y.slot)).Nodup → q.tile.slot x.slot = BitVec.ofNat 32 x.val)))

/-- Tile loads and stores access every active slot at the address of their table and complete. Rests on 11 R244, 11 R250,
11 R251, 11 R252. -/
def Obligations.tile_loads_and_stores_complete : Prop :=
  ∀ (vd rs1 rs2 : Reg) (imm : Int) (la : La) (pfx : Option Pfx) (s s1 s2 s3 s4 : State) (base st : Word) (ix : Tile) (on : List Nat),
    on = lanesOn (me s) (pfxOf pfx).mask.val → (pfxOf pfx).mask.val ∉ (me s).badX →
    (if on = [] then s1 = s else memGate s = .ok s1) → readX rs1 s1 = .ok (base, s2) →
    ∀ (i : Instr) (adr : State → Nat → Nat) (load : Bool),
      ((i = .vld vd rs1 imm la pfx ∧ load = true ∧ s3 = s2 ∧
          adr = fun u k => (base + BitVec.ofInt 64 (32 * imm) + BitVec.ofNat 64 (4 * (colsOf (me u) * (k / 8) + k % 8))).toNat) ∨
       (i = .vldb vd rs1 imm la pfx ∧ load = true ∧ s3 = s2 ∧
          adr = fun _ k => (base + BitVec.ofInt 64 (32 * imm) + BitVec.ofNat 64 (4 * (k % 8))).toNat) ∨
       (i = .vlds vd rs1 rs2 la pfx ∧ load = true ∧ readX rs2 s2 = .ok (st, s3) ∧ (on = [] ∨ st.toNat % 4 = 0) ∧
          adr = fun _ k => (base + BitVec.ofNat 64 (k / 8) * st + BitVec.ofNat 64 (4 * (k % 8))).toNat) ∨
       (i = .vldg vd rs1 rs2 la pfx ∧ load = true ∧ readV rs2 s2 = .ok (ix, s3) ∧
          adr = fun _ k => (base + (ix.slot k).signExtend 64 * 4).toNat) ∨
       (i = .vst vd rs1 imm pfx ∧ load = false ∧ s3 = s2 ∧
          adr = fun u k => (base + BitVec.ofInt 64 imm + BitVec.ofNat 64 (4 * (colsOf (me u) * (k / 8) + k % 8))).toNat) ∨
       (i = .vsts vd rs1 rs2 pfx ∧ load = false ∧ readX rs2 s2 = .ok (st, s3) ∧ (on = [] ∨ st.toNat % 4 = 0) ∧
          adr = fun _ k => (base + BitVec.ofNat 64 (k / 8) * st + BitVec.ofNat 64 (4 * (k % 8))).toNat) ∨
       (i = .vstg vd rs1 rs2 pfx ∧ load = false ∧ readV rs2 s2 = .ok (ix, s3) ∧
          adr = fun _ k => (base + (ix.slot k).signExtend 64 * 4).toNat)) →
      ∀ (order : List Nat) (ps : List Piece), order.Perm on → (∀ k ∈ on, adr s3 k % 4 = 0) →
        (if (i = .vldg vd rs1 rs2 la pfx ∨ i = .vstg vd rs1 rs2 pfx) then order = on
         else order.Pairwise (fun j k => adr s3 j < adr s3 k ∨ (adr s3 j = adr s3 k ∧ j < k))) →
        (load = true → vd.val ∉ (me s3).badT → resolvePieces (whoCore s3 s.cur) .load .tile (order.map (fun k => (adr s3 k, 4))) s3 = .ok (ps, s4) →
          ∀ (qs : List Piece) (vs : List Nat) (f : Option (Nat × Nat)) (txns : List (Nat × Nat)) (u : State),
            qs = on.filterMap (fun k => ((order.zip ps).find? (fun e => e.1 == k)).map (fun e => e.2)) →
            loadPieces s.cur (whoCore s3 s.cur) qs [] s4 = .ok (vs, f, txns, u) →
            ∃ t, exec i s = .next t ∧ (coreOf t s.cur).pc = (me u).pc + BitVec.ofNat 64 (lenOf pfx) ∧
              (coreOf t s.cur).tiles = (me u).tiles ∧ (coreOf t s.cur).regs = (me u).regs ∧
              (∃ w, (coreOf t s.cur).windows.getLast? = some w ∧ w.remain = la.val ∧ w.dx = [] ∧ w.dv = [vd.val] ∧ w.txns = txns ∧
                w.st = (match f with | some e => .faulty e.1 (wd e.2) | none => .flying) ∧
                w.tval = [(vd.val, laneTile (getV vd.val (me u)) (pfxOf pfx).zero ((on.zip vs).map (fun e => ⟨e.1, e.2, 0⟩)))])) ∧
        (load = false → (vd.val < 28 ∨ linkConnected s s.cur (vd.val - 28) = true) → ∀ (t0 : Tile) (s5 : State), readV vd s3 = .ok (t0, s5) →
          resolvePieces (whoCore s5 s.cur) .store .tile (order.map (fun k => (adr s5 k, 4))) s5 = .ok (ps, s4) →
          ∀ qs : List Piece, qs = on.filterMap (fun k => ((order.zip ps).find? (fun e => e.1 == k)).map (fun e => e.2)) →
          exec i s = .next (retire s.cur (lenOf pfx) s (storeLanes s.cur (whoCore s5 s.cur)
            (qs.zip (on.map (fun k => (t0.slot k).toNat)))
            (countAccess s.cur (whoCore s5 s.cur) true (qs.map (fun q => q.ref)) s4))))

/-- fork, spawn.n, spawn and spawnl write their records and push an entry for each new task. Rests on 08 R162, 08 R163, 08
R169, 16 R373, 16 R374, 16 R375. -/
def Obligations.forks_and_spawns_create_tasks : Prop :=
  (∀ (pc g ctl j a0 a1 a2 a3 : Nat), ∀ k < 8, dwordOf (mkRecord pc g ctl j a0 a1 a2 a3) k = ([pc, g, ctl, j, a0, a1, a2, a3].getD k 0) % 2 ^ 64) ∧
  (∀ (c : Nat) (x : CoreSt), (newGtid c x).2 = { x with seq := (x.seq + 1) % 2 ^ 37 } ∧
    (newGtid c x).1 = BitVec.ofNat 64 (tenantOf x * 2 ^ 56 + c / 128 * 2 ^ 48 + c / 8 % 16 * 2 ^ 40 + c % 8 * 2 ^ 37 + x.seq % 2 ^ 37)) ∧
  (∀ (s s1 s2 : State) (slot : Word) (c : Nat), c = s.cur → memGate s = .ok s1 → orderOp c false true false true .d s1 = .ok s2 →
    (∀ (xs xj : Reg) (off : Int) (j dst : Word) (s3 s4 : State), readPlain xs s2 = .ok slot → readPlain xj s2 = .ok j →
      dst = (me s2).pc + BitVec.ofInt 64 (4 * off) →
      (slot.toNat % 64 ≠ 0 → exec (.fork xs xj off) s = .next (takeTrap c 0x201 slot (me s).pc s)) ∧
      (slot.toNat % 64 = 0 → qRoom (me s2) 3 1 = false → exec (.fork xs xj off) s = .next (takeTrap c 0x503 0 (me s).pc s)) ∧
      (slot.toNat % 64 = 0 → qRoom (me s2) 3 1 = true →
        writeWords (whoCore s2 c) c slot.toNat (mkRecord dst.toNat (newGtid c (me s2)).1.toNat
          (mkCtl ((me s2).ctl.toNat % 4) 0 0 0 (domainOf (me s2)) false false) j.toNat (getX 10 (me s2)).toNat (getX 11 (me s2)).toNat
          (getX 12 (me s2)).toNat (getX 13 (me s2)).toNat) 8 (setCore c (newGtid c (me s2)).2 s2) = .ok s3 →
        pushEntry c 3 c slot (newGtid c (me s2)).1 dst (drainAll c s3) = .ok s4 →
        exec (.fork xs xj off) s = .next (retire c 4 s (domBorn (domainOf (me s2)) 1 (tasksBorn (clOf c) 1 s4))))) ∧
    (∀ (rs1 : Reg) (prio : Fin 4) (s3 s4 : State), readPlain rs1 s2 = .ok slot →
      (slot.toNat % 64 ≠ 0 → ∀ i ∈ [Instr.spawnN rs1 prio, .spawn rs1 prio], exec i s = .next (takeTrap c 0x201 slot (me s).pc s)) ∧
      (slot.toNat % 64 = 0 → prio.val < 3 → qRoom (me s2) prio.val 1 = true →
        writeWords (whoCore s2 c) c (slot.toNat + 8) ((newGtid c (me s2)).1.toNat +
          2 ^ 64 * mkCtl prio.val 0 0 0 (domainOf (me s2)) false false) 2 (setCore c (newGtid c (me s2)).2 s2) = .ok s3 →
        pushEntry c prio.val c slot (newGtid c (me s2)).1 (recordPc c slot (drainAll c s3)) (drainAll c s3) = .ok s4 →
        exec (.spawnN rs1 prio) s = .next (retire c 4 s (domBorn (domainOf (me s2)) 1 (tasksBorn (clOf c) 1 s4)))) ∧
      (∀ (v r : Nat), slot.toNat % 64 = 0 → readWords (whoCore s2 c) c slot.toNat 3 s2 = .ok (v, s3) →
        (if bits (dwordOf v 2) 4 2 = 0 then r = c else reservedFor s3 slot (BitVec.ofNat 64 (dwordOf v 1)) = some r) →
        dwordOf v 2 % 4 < 3 → qRoom (coreOf s3 r) (dwordOf v 2 % 4) 1 = true →
        pushEntry r (dwordOf v 2 % 4) c slot (BitVec.ofNat 64 (dwordOf v 1)) (BitVec.ofNat 64 (dwordOf v 0)) s3 = .ok s4 →
        exec (.spawn rs1 prio) s = .next (retire c 4 s s4))) ∧
    (∀ (rd rs1 rs2 : Reg) (q : Word) (v first count home off : Nat) (sel : List (Nat × Word)) (s3 s4 s5 s6 t : State),
      readPlain rs1 s2 = .ok slot → readPlain rs2 s2 = .ok q → first = q.toNat % 1024 → count = q.toNat / 1024 % 1024 + 1 →
      (1024 < first + count → exec (.spawnl rd rs1 rs2) s = .next (takeTrap c 0x50A 0 (me s).pc s)) ∧
      (first + count ≤ 1024 → bits q.toNat 31 21 = 0 → slot.toNat % 64 = 0 →
        readWords (whoCore s2 c) c slot.toNat 8 s2 = .ok (v, s3) → templateOk v = true →
        sel = ((List.range count).map (fun i => (first + i, (clusterOf s3 (clOf c)).latch.get 0 (first + i)))).filter
          (fun e => !(q.getLsbD 20) || e.2.toNat % 2 ^ 32 != 0) →
        checkSlots c (sel.map (fun e => slot.toNat + 64 * (1 + e.1 - first))) s3 = .ok s4 → qRoom (me s4) 3 sel.length = true →
        ((dwordOf v 3 = 0 ∧ s5 = s4) ∨ (dwordOf v 3 ≠ 0 ∧ joinRef c (dwordOf v 3) s4 = .ok (home, off) ∧
          bits (spRead s4 home off 8) 63 48 + sel.length ≤ 65535 ∧
          s5 = putJoin c home off (bits (spRead s4 home off 8) 63 48 + sel.length) (spRead s4 home off 8) s4)) →
        pushBins c v slot.toNat first (q.toNat / 2 ^ 32) sel s5 = .ok s6 →
        writeX rd (BitVec.ofNat 64 sel.length) (domBorn (domainOf (me s6)) sel.length (tasksBorn (clOf c) sel.length s6)) = .ok t →
        exec (.spawnl rd rs1 rs2) s = .next (retire c 4 s t)))) ∧
  (∀ (s : State) (rs1 : Reg) (slot : Word) (off c : Nat), c = s.cur → Plain s rs1 → slot = getX rs1.val (me s) → CanSpawn s slot off →
    (∀ (xj : Reg) (imm : Int), Plain s xj → qRoom (me s) 3 1 = true → (me s).deque.hw.length < 64 →
      ∃ t e, exec (.fork rs1 xj imm) s = .next t ∧ (coreOf t c).pc = (me s).pc + 4 ∧ (coreOf t c).regs = (me s).regs ∧
        (coreOf t c).deque.hw = (me s).deque.hw ++ [e] ∧ e.slot = slot ∧
        PadBytes c off 64 (mkRecord ((me s).pc + BitVec.ofInt 64 (4 * imm)).toNat (newGtid c (me s)).1.toNat
          (mkCtl ((me s).ctl.toNat % 4) 0 0 0 (domainOf (me s)) false false) (getX xj.val (me s)).toNat (getX 10 (me s)).toNat
          (getX 11 (me s)).toNat (getX 12 (me s)).toNat (getX 13 (me s)).toNat) s t) ∧
    (∀ prio : Fin 4, prio.val < 3 → (qGet (me s) prio.val).hw.length < 16 → (qGet (me s) prio.val).ring = [] →
      ∃ t e, exec (.spawnN rs1 prio) s = .next t ∧ (coreOf t c).pc = (me s).pc + 4 ∧ (coreOf t c).regs = (me s).regs ∧
        (qGet (coreOf t c) prio.val).hw = (qGet (me s) prio.val).hw ++ [e] ∧ e.slot = slot ∧
        PadBytes c (off + 8) 16 ((newGtid c (me s)).1.toNat + 2 ^ 64 * mkCtl prio.val 0 0 0 (domainOf (me s)) false false) s t) ∧
    (∀ (prio : Fin 4) (ctl g r : Nat), PadClean s off 64 → ctl = spRead s c (off + 16) 8 → g = spRead s c (off + 8) 8 → ctl % 4 < 3 →
      (if bits ctl 4 2 = 0 then r = c else reservedFor s slot (BitVec.ofNat 64 g) = some r) →
      (qGet (coreOf s r) (ctl % 4)).hw.length < 16 → (qGet (coreOf s r) (ctl % 4)).ring = [] → (coreOf s r).trcctl.getLsbD 63 = false →
      ∃ t e, exec (.spawn rs1 prio) s = .next t ∧ (coreOf t c).pc = (me s).pc + 4 ∧ (coreOf t c).regs = (me s).regs ∧
        (qGet (coreOf t r) (ctl % 4)).hw = (qGet (coreOf s r) (ctl % 4)).hw ++ [e] ∧ e.slot = slot ∧ (∀ p, byteOf t p = byteOf s p)) ∧
    (∀ (rd rs2 : Reg) (q : Word) (first count v : Nat) (sel : List (Nat × Word)), rd.val < 28 → Plain s rs2 → q = getX rs2.val (me s) →
      first = q.toNat % 1024 → count = q.toNat / 1024 % 1024 + 1 → first + count ≤ 1024 → bits q.toNat 31 21 = 0 →
      OwnPad s slot.toNat off (64 * (1 + count)) → PadClean s off 64 → v = spRead s c off 64 → templateOk v = true → dwordOf v 3 = 0 →
      sel = ((List.range count).map (fun i => (first + i, (clusterOf s (clOf c)).latch.get 0 (first + i)))).filter
        (fun e => !(q.getLsbD 20) || e.2.toNat % 2 ^ 32 != 0) → qRoom (me s) 3 sel.length = true → (me s).deque.hw.length + sel.length ≤ 64 →
      ∃ t l, exec (.spawnl rd rs1 rs2) s = .next t ∧ (coreOf t c).pc = (me s).pc + 4 ∧
        (∀ x, x ≠ rd.val → getX x (coreOf t c) = getX x (me s)) ∧ (0 < rd.val → getX rd.val (coreOf t c) = BitVec.ofNat 64 sel.length) ∧
        (coreOf t c).deque.hw = (me s).deque.hw ++ l ∧ l.map QEntry.slot = sel.map (fun e => slot + BitVec.ofNat 64 (64 * (1 + e.1 - first))) ∧
        (∀ i e j, sel[i]? = some e → j < 64 → byteOf t (.pad c (off + 64 * (1 + e.1 - first) + j)) = BitVec.ofNat 8
          (binRecord v (newGtid c { me s with seq := (me s).seq + i }).1.toNat (domainOf (me s)) (q.toNat / 2 ^ 32) e.1 e.2 / 256 ^ j)) ∧
        (∀ p, (∀ e ∈ sel, ∀ j < 64, p ≠ .pad c (off + 64 * (1 + e.1 - first) + j)) → byteOf t p = byteOf s p)))

/-- Joins and exits count down; yields and suspensions write the record and leave the core. Rests on 08 R166, 08 R179, 16
R376, 16 R377, 16 R378. -/
def Obligations.joins_exits_yields_and_suspensions : Prop :=
  (
    (∀ (s s1 s2 : State) (rs1 : Reg) (a : Word) (home off v n resume c : Nat), c = s.cur → memGate s = .ok s1 → readPlain rs1 s1 = .ok a →
      joinRef c a.toNat s1 = .ok (home, off) → bits (me s1).trec.toNat 63 54 = 0 → suspendStart c ((me s1).pc + 4) (off / 8) s1 = .ok s2 →
      v = spRead s2 home off 8 → n = bits v 63 48 → resume = v % 2 ^ 48 →
      (n = 0 → exec (.join rs1) s = .next (takeTrap c 0x506 0 (me s1).pc s2)) ∧
      (0 < n → resume ≠ 0 → exec (.join rs1) s = .next (takeTrap c 0x507 0 (me s1).pc s2)) ∧
      (n = 1 → resume = 0 → exec (.join rs1) s = .next (retire c 4 s (putJoin c home off 0 0 s2))) ∧
      (1 < n → resume = 0 → exec (.join rs1) s = .next (suspendLeave (putJoin c home off (n - 1) ((me s1).trec.toNat / 64) s2)))) ∧
    (∀ (s : State) (c va home off v n : Nat), joinRef c va s = .ok (home, off) → v = spRead s home off 8 → n = bits v 63 48 →
      (n = 0 → exitArrival c va s = .error (.trap 0x506 0)) ∧
      (1 < n ∨ (n = 1 ∧ v % 2 ^ 48 = 0) → exitArrival c va s = .ok (putJoin c home off (n - 1) v s)) ∧
      (n = 1 → v % 2 ^ 48 ≠ 0 →
        (recordKilled c (BitVec.ofNat 64 (v % 2 ^ 48 * 64)) (putJoin c home off 0 0 s) = true → exitArrival c va s = .ok (putJoin c home off 0 0 s)) ∧
        (recordKilled c (BitVec.ofNat 64 (v % 2 ^ 48 * 64)) (putJoin c home off 0 0 s) = false →
          exitArrival c va s = match enqueueRecord c (BitVec.ofNat 64 (v % 2 ^ 48 * 64)) .c (putJoin c home off 0 0 s) with
            | some u => .ok u
            | none => .error (.stall 12 0)))) ∧
    (∀ (s s1 s2 s3 s4 : State) (c : Nat), c = s.cur → (∀ e ∈ s.doms, e.2.opener ≠ (me s).gtid) → memGate s = .ok s1 → windowsDone c s1 = .ok s2 →
      ((leaseOf s2 c).isSome = true → mxPending s2 c = false) → orderOp c false true false true .d s2 = .ok s3 →
      (if (me s).joinw = 0 then s4 = freeLease c s3 else exitArrival c (me s).joinw.toNat (freeLease c s3) = .ok s4) →
      exec .exit s = .next (leaveCore c false (domLeft (domainOf (me s)) (taskEnded (clOf c) (freeSlot (me s).gtid (modCore c
        (fun y => { y with ports := [] }) (lastStep c (traceRec c 4 (me s).gtid 0 0 (me s).pc s4)))))))) ∧
    (∀ (s : State) (c : Nat) (sus : Bool),
      OnlyCore c (if sus then { s with lastDie := AList.put (coreOf s c).gtid.toNat (c / 128) s.lastDie } else s) (leaveCore c sus s) ∧ ∃ x, x = coreOf (leaveCore c sus s) c ∧
      x.haveTask = false ∧ x.gtid = 0 ∧ x.regs = [] ∧ x.tiles = [] ∧ x.fcsr = 0 ∧ x.windows = [] ∧ x.resv = none ∧ x.picking = true ∧ x.stall = none ∧
      x.tshape = 0x3F ∧ x.rngkey = 0 ∧ x.rngcnt = 0 ∧
      (x.run = .reserved ↔ x.member.isSome = true) ∧ (x.run = .idle ↔ x.member = none) ∧ x.sp = (coreOf s c).sp ∧ x.full = (coreOf s c).full)) ∧
  (
    ∀ (s s1 s2 s3 : State) (rs1 : Reg) (a : Word) (ps : List Piece) (c : Nat), c = s.cur → memGate s = .ok s1 →
      (suspendRefused c s1 = true → exec .yield s = .next (takeTrap c 0x502 0 (me s).pc s) ∧
        (readPlain rs1 s1 = .ok a → exec (.suspend rs1) s = .next (takeTrap c 0x502 0 (me s).pc s))) ∧
      (suspendRefused c s1 = false → qRoom (me s1) ((me s1).ctl.toNat % 4) 1 = false → exec .yield s = .next (retire c 4 s s1)) ∧
      (qRoom (me s1) ((me s1).ctl.toNat % 4) 1 = true → suspendStart c ((me s1).pc + 4) 0 s1 = .ok s2 →
        exec .yield s = .next (hwPush c ((me s1).ctl.toNat % 4) c (me s1).trec (me s1).gtid ((me s1).pc + 4) .c (suspendLeave s2))) ∧
      (readPlain rs1 s1 = .ok a → suspendStart c ((me s1).pc + 4) 0 s1 = .ok s2 →
        (rs1.val = 0 → exec (.suspend rs1) s = .next (suspendLeave s2)) ∧
        (rs1.val ≠ 0 → a.toNat % 8 ≠ 0 → exec (.suspend rs1) s = .next (takeTrap c 0x201 a (me s1).pc s2)) ∧
        (rs1.val ≠ 0 → a.toNat % 8 = 0 → resolvePieces (whoCore s2 c) .store (.scalar 8) [(a.toNat, 8)] s2 = .ok (ps, s3) →
          exec (.suspend rs1) s = .next (suspendLeave (drainAll c (storePieces c (whoCore s2 c) ps 1 s3))))))

/-- gang and ungang stall until the other three members wait, then complete on all four cores together. Rests on 08 R180,
16 R389. -/
def Obligations.gangs_meet_on_all_four_cores : Prop :=
  ∀ (s : State) (i : Instr) (w : Nat) (on : Bool), s.cur < 1024 → ((i = .gang ∧ w = 1 ∧ on = true) ∨ (i = .ungang ∧ w = 2 ∧ on = false)) →
    ((on = true ∧ ((me s).ganged = true ∨ bits (me s).ctl.toNat 4 2 ≠ 1)) ∨ (on = false ∧ (me s).ganged = false) →
      exec i s = .next (takeTrap s.cur 0x505 0 (me s).pc s)) ∧
    ((on = true → (me s).ganged = false ∧ bits (me s).ctl.toNat 4 2 = 1 ∧ ∀ k ∈ quadOf s.cur, holdsMember s k = true) →
      (on = false → (me s).ganged = true) →
      ((∃ k ∈ quadOf s.cur, k ≠ s.cur ∧ ((coreOf s k).gangWait ≠ w ∨ (w = 2 ∧ (coreOf s k).gangCnt ≠ (me s).gangCnt))) →
        ∃ t, exec i s = .next t ∧ OnlyCore s.cur s t ∧ (coreOf t s.cur).stall = some ⟨9, 0, 0⟩ ∧ (coreOf t s.cur).gangWait = w ∧
          (coreOf t s.cur).pc = (me s).pc ∧ (coreOf t s.cur).regs = (me s).regs) ∧
      ((∀ k ∈ quadOf s.cur, k ≠ s.cur → (coreOf s k).gangWait = w ∧ (w = 2 → (coreOf s k).gangCnt = (me s).gangCnt)) →
        ∃ t, exec i s = .next t ∧
          (∀ k ∈ quadOf s.cur, (coreOf t k).ganged = on ∧ (coreOf t k).gangWait = 0 ∧ (coreOf t k).gangCnt = 0 ∧ (coreOf t k).stall = none ∧
            (coreOf t k).pc = (coreOf s k).pc + 4 ∧ (coreOf t k).regs = (coreOf s k).regs ∧ (coreOf t k).tiles = (coreOf s k).tiles) ∧
          (∀ k, k ∉ quadOf s.cur → coreOf t k = coreOf s k) ∧ (∀ p, byteOf t p = byteOf s p)))

/-- cdopen opens a domain with the task inside, cdclose closes it, cdabort reports its error. Rests on 08 R181, 16 R390,
16 R391, 16 R392, 20 R453. -/
def Obligations.domains_open_close_and_abort : Prop :=
  ∀ (s s1 s3 t : State) (rd rs1 : Reg) (slot : Word) (c i depth id : Nat) (u : State) (x : CoreSt) (dom : Dom), c = s.cur →
    (memGate s = .ok s1 → readPlain rs1 s1 = .ok slot → x = me s1 → depth = ((domOf s1 (domainOf x)).map (fun d => d.depth)).getD 0 →
      (4 ≤ depth → exec (.cdopen rd rs1) s = .next (takeTrap c 0x602 0 (me s).pc s)) ∧
      (depth < 4 → freeDom s1 = some i → slot.toNat % 64 = 0 → assignDom s1 = (id, u) →
        dom = Dom.mk 0 0 (depth + 1) id (domainOf x) (2 ^ (c / 128)) c slot x.gtid none 0 →
        writeWords (whoCore u c) c slot.toNat (mkRecord (x.pc + 4).toNat (newGtid c x).1.toNat
          (mkCtl (x.ctl.toNat % 4) (bits x.ctl.toNat 4 2) (bits x.ctl.toNat 7 5) 0 id false true) 0 (getX 10 x).toNat (getX 11 x).toNat
          (getX 12 x).toNat (getX 13 x).toNat) 8 (setCore c { (newGtid c x).2 with ctl := setBits x.ctl 31 16 id } u) = .ok s3 →
        writeX rd (BitVec.ofNat 64 id) { drainAll c s3 with doms := AList.put i dom s3.doms } = .ok t →
        exec (.cdopen rd rs1) s = .next (retire c 4 s t))) ∧
    (domOf s (domainOf (me s)) = none → exec .cdclose s = .next (takeTrap c 0x603 0 (me s).pc s) ∧
      exec .cdabort s = .next (takeTrap c 0x604 0 (me s).pc s)) ∧
    (∀ d, domOf s (domainOf (me s)) = some d →
      exec .cdabort s = .next (setStall c 12 0 (domError c 0x606 (modCore c (fun y => { y with aborted := true }) s))) ∧
      ((d.opener ≠ (me s).gtid ∨ 0 < d.live ∨ ∃ e ∈ s.doms, e.2.parent = d.id) →
        exec .cdclose s = .next (takeTrap c 0x603 0 (me s).pc s)) ∧
      (d.opener = (me s).gtid → d.live = 0 → (∀ e ∈ s.doms, e.2.parent ≠ d.id) →
        (cdBusy s d.id = true → exec .cdclose s = .next (setStall c 12 0 s)) ∧
        (cdBusy s d.id = false → orderOp c false true false true .d s = .ok s1 →
          exec .cdclose s = .next (retire c 4 s (modCore c (fun y => { y with ctl := setBits y.ctl 31 16 d.parent })
            { s1 with doms := List.filter (fun (e : Nat × Dom) => e.2.id != d.id) s1.doms })))))

/-- send and sendp inject a message; wait takes the first mark or suspends. Rests on 16 R380, 16 R381, 16 R382, 08 R167,
16 R385, 08 R166. -/
def Obligations.messages_and_waits : Prop :=
  (
    ∀ (s s1 s2 : State) (rd rs1 rs2 : Reg) (n : Fin 4) (sc : Scope) (a : Word), readPlain rs1 s = .ok a → rd.val < 28 →
      ((bits a.toNat 63 27 ≠ 0 ∨ a.toNat % 256 = 0 ∨ 27 < rs2.val + n.val) → ∀ i ∈ [Instr.send rd rs1 rs2 n sc, .sendp rd rs1 rs2 n sc],
        exec i s = .next (takeTrap s.cur 0x50B 0 (me s).pc s)) ∧
      (bits a.toNat 63 27 = 0 → a.toNat % 256 ≠ 0 → rs2.val + n.val ≤ 27 → (∀ k ≤ n.val, rs2.val + k ∉ (me s).badX) →
        (∀ v, (me s).sendReq = .result v → ∃ t, exec (.send rd rs1 rs2 n sc) s = .next t ∧ (coreOf t s.cur).sendReq = .none ∧
          (0 < rd.val → getX rd.val (coreOf t s.cur) = BitVec.ofNat 64 v) ∧ (coreOf t s.cur).pc = (me s).pc + 4 ∧
          (∀ q, q ≠ rd.val → getX q (coreOf t s.cur) = getX q (me s)) ∧ OnlyCore s.cur s t) ∧
        ((me s).sendReq = .waiting → exec (.send rd rs1 rs2 n sc) s = .next (setStall s.cur 8 a s)) ∧
        ((me s).sendReq = .none → memGate s = .ok s1 → orderOp s.cur false true false true sc s1 = .ok s2 → s2.cur = s.cur →
          (a.getLsbD 26 = true ∨ bits a.toNat 25 18 = s.modIdx) → s2.modIdx = s.modIdx →
          ∀ i ∈ [Instr.send rd rs1 rs2 n sc, .sendp rd rs1 rs2 n sc], ∃ t m, exec i s = .next t ∧
            (clusterOf t (clOf s.cur)).msgs = (clusterOf s2 (clOf s.cur)).msgs ++ [m] ∧ m.src = s.cur ∧ m.core = bits a.toNat 17 8 ∧
            m.tag = a.toNat % 256 ∧ m.tenant = tenantOf (me s2) ∧ m.sup = isSup (me s2) ∧ m.posted = decide (i = .sendp rd rs1 rs2 n sc) ∧
            m.payload = (List.range (n.val + 1)).map (fun k => getX (rs2.val + k) (me s2)) ∧ (∀ p, byteOf t p = byteOf s2 p) ∧
            (if m.posted then (coreOf t s.cur).pc = (me s2).pc + 4 ∧ (0 < rd.val → getX rd.val (coreOf t s.cur) = 0)
             else (coreOf t s.cur).stall = some ⟨8, a, 0⟩ ∧ (coreOf t s.cur).sendReq = .waiting ∧ (coreOf t s.cur).pc = (me s2).pc)))) ∧
  (
    ∀ (s s1 s2 : State) (rs1 : Reg) (grp : Fin 4) (a : Word) (m : List Nat), readPlain rs1 s = .ok a →
      m = (List.range 64).filterMap (fun i => if a.getLsbD i = true ∧ 64 * grp.val + i ≠ 0 then some (64 * grp.val + i) else none) →
      (m = [] → ∃ t, exec (.wait rs1 grp) s = .next t ∧ RegsOnly [10] s t ∧ getX 10 (coreOf t s.cur) = 0) ∧
      (∀ k ∈ m, k ∈ (me s).seen → (∀ j ∈ m, j < k → j ∉ (me s).seen) →
        ∃ t, exec (.wait rs1 grp) s = .next t ∧ OnlyCore s.cur s t ∧ getX 10 (coreOf t s.cur) = BitVec.ofNat 64 k ∧
          (∀ j, j ∈ (coreOf t s.cur).seen ↔ (j ∈ (me s).seen ∧ j ≠ k)) ∧ (coreOf t s.cur).pc = (me s).pc + 4) ∧
      (m ≠ [] → (∀ j ∈ m, j ∉ (me s).seen) →
        (16 ≤ (me s).waits.length → exec (.wait rs1 grp) s = .next (takeTrap s.cur 0x50D 0 (me s).pc s)) ∧
        ((me s).waits.length < 16 → memGate s = .ok s1 → suspendStart s.cur ((me s).pc + 4) 0 s1 = .ok s2 →
          exec (.wait rs1 grp) s = .next (suspendLeave (modCore s.cur
            (fun y => { y with waits := y.waits ++ [{ tags := m, slot := (me s).trec }] }) s2)))))

/-- The tag instructions return the old tag word and change what their table says. Rests on 08 R175, 08 R176, 08 R178, 16
R383. -/
def Obligations.route_tags_enable_fire_and_clear : Prop :=
  ∀ (s : State) (rd rs1 rs2 xc : Reg) (a h q : Word) (k : Nat) (old : Word), readPlain rs1 s = .ok a → k = a.toNat % 256 → old = tagWord (me s) k →
    (k = 0 → ∀ i ∈ [Instr.tagen rd rs1, .tagdis rd rs1, .tagset rd rs1, .tagclr rd rs1, .tagq rd rs1],
      exec i s = .next (takeTrap s.cur 0x50C 0 (me s).pc s)) ∧
    (k ≠ 0 → rd.val < 28 →
      (∀ p ∈ ([(.tagq rd rs1, old), (.tagdis rd rs1, old &&& 0x7FFFFFFFFFFFFFFF)] : List (Instr × Word)),
        ∃ t, exec p.1 s = .next t ∧ OnlyCore s.cur s t ∧ tagWord (coreOf t s.cur) k = p.2 ∧
          (0 < rd.val → getX rd.val (coreOf t s.cur) = old) ∧ (∀ j, j ≠ k → tagWord (coreOf t s.cur) j = tagWord (me s) j) ∧
          (∀ r, r ≠ rd.val → getX r (coreOf t s.cur) = getX r (me s)) ∧ (coreOf t s.cur).pc = (me s).pc + 4) ∧
      (old.getLsbD 62 = false → ∃ t, exec (.tagen rd rs1) s = .next t ∧ OnlyCore s.cur s t ∧
        tagWord (coreOf t s.cur) k = old ||| 0x8000000000000000 ∧ (0 < rd.val → getX rd.val (coreOf t s.cur) = old)) ∧
      (old.getLsbD 62 = true → ∀ u t, fireTag s.cur k (setTagWord s.cur k (old ||| 0x8000000000000000) s) = some u → u.cur = s.cur →
        writeX rd old u = .ok t → exec (.tagen rd rs1) s = .next (retire s.cur 4 s t)) ∧
      (old.getLsbD 63 = false → ∃ t, exec (.tagset rd rs1) s = .next t ∧ OnlyCore s.cur s t ∧
        tagWord (coreOf t s.cur) k = old ||| 0x4000000000000000 ∧ (0 < rd.val → getX rd.val (coreOf t s.cur) = old)) ∧
      (old.getLsbD 63 = true → inboxHas (me s) k = false → ∀ u t, tagAct s.cur k .c [] s = (u, true) → u.cur = s.cur →
        writeX rd old u = .ok t → exec (.tagset rd rs1) s = .next (retire s.cur 4 s t)) ∧
      (inboxHas (me s) k = false → ∃ t, exec (.tagclr rd rs1) s = .next t ∧ OnlyCore s.cur s t ∧
        tagWord (coreOf t s.cur) k = old &&& 0xBFFFFFFFFFFFFFFF ∧ k ∉ (coreOf t s.cur).seen ∧
        (0 < rd.val → getX rd.val (coreOf t s.cur) = old)) ∧
      (inboxHas (me s) k = true → ∃ t, exec (.tagclr rd rs1) s = .next t ∧ OnlyCore s.cur s t ∧ tagWord (coreOf t s.cur) k = old ∧
        (coreOf t s.cur).seen = (me s).seen)) ∧
    (readPlain rs2 s = .ok h → readPlain xc s = .ok q →
      ((k = 0 ∨ h.toNat % 4 ≠ 0 ∨ bits q.toNat 60 59 = 3 ∨ bits q.toNat 63 62 ≠ 0 ∨ bits q.toNat 58 10 ≠ 0) →
        exec (.tagw rs1 rs2 xc) s = .next (takeTrap s.cur 0x50C 0 (me s).pc s)) ∧
      (k ≠ 0 → h.toNat % 4 = 0 → bits q.toNat 60 59 ≠ 3 → bits q.toNat 63 62 = 0 → bits q.toNat 58 10 = 0 →
        ∃ t, exec (.tagw rs1 rs2 xc) s = .next t ∧ OnlyCore s.cur s t ∧
          (coreOf t s.cur).tags.get (0, 0) k = (h, (old &&& 0xC000000000000000) ||| q) ∧ (coreOf t s.cur).regs = (me s).regs ∧
          (coreOf t s.cur).pc = (me s).pc + 4))

/-- Barriers arrive and wait; owner bits, leases and port status act as their tables say. Rests on 15 R367, 15 R368, 15
R369, 16 R386, 03 R61, 14 R320, 14 R321, 14 R323, 15 R345, 16 R387, 16 R388. -/
def Obligations.barriers_owner_bits_and_leases : Prop :=
  (
    ∀ (s s1 s2 : State) (d : Fin 64) (w p cl : Nat), cl = clOf s.cur → w = ((clusterOf s cl).bars.get {} d.val).word.toNat →
      ((bit w 63 = false ∨ bits w 17 10 ≠ tenantOf (me s) ∨ partOf w (1024 * (s.modIdx % 32) + s.cur) = none) →
        ∀ i ∈ [Instr.bara d, .barw d, .bar d], exec i s = .next (takeTrap s.cur 0x50E 0 (me s).pc s)) ∧
      (bit w 63 = true → bits w 17 10 = tenantOf (me s) → partOf w (1024 * (s.modIdx % 32) + s.cur) = some p →
        ((barPart s cl d.val p).arrived = true → ∀ i ∈ [Instr.bara d, .barw d, .bar d], exec i s = .next (setStall s.cur 4 (wd d.val) s)) ∧
        ((barPart s cl d.val p).arrived = false →
          (orderOp s.cur false true false true (barScope w) s = .ok s1 →
            exec (.bara d) s = .next (retire s.cur 4 s (barAdvance cl d.val p w 20
              (putPart cl d.val p { barPart s1 cl d.val p with arrived := true } s1)))) ∧
          (orderOp s.cur true false false false (barScope w) s = .ok s1 →
            exec (.barw d) s = .next (retire s.cur 4 s (modCore s.cur (fun x => { x with barArrived := false }) s1)) ∧
            ((me s).barArrived = true →
              exec (.bar d) s = .next (retire s.cur 4 s (modCore s.cur (fun x => { x with barArrived := false }) s1)))) ∧
          ((me s).barArrived = false → baraBody d.val s = .ok s1 →
            barwBody d.val (modCore s.cur (fun x => { x with barArrived := true }) s1) = .ok s2 →
            exec (.bar d) s = .next (retire s.cur 4 s s2))))) ∧
  (
    ∀ (s t : State) (rd rs1 : Reg) (cnt : Fin 256) (p : Fin 4) (a : Word), readPlain rs1 s = .ok a →
      ((a = 0 ∨ tileCount (me s) < a.toNat + cnt.val + 1) → ∀ i ∈ [Instr.give rs1 cnt, .take rs1 cnt],
        exec i s = .next (takeTrap s.cur 0x402 0 (me s).pc s)) ∧
      (a ≠ 0 → a.toNat + cnt.val + 1 ≤ tileCount (me s) →
        ((coreOf s s.cur).waiters = [] → (coreOf s s.cur).nacked = [] → ∃ u, exec (.give rs1 cnt) s = .next u ∧
          (∀ k, k ∈ (coreOf u s.cur).owner ↔ (k ∈ (me s).owner ∨ (a.toNat ≤ k ∧ k ≤ a.toNat + cnt.val))) ∧
          (coreOf u s.cur).regs = (me s).regs ∧ (coreOf u s.cur).pc = (me s).pc + 4 ∧ (∀ q, byteOf u q = byteOf s q)) ∧
        ((∀ k, a.toNat ≤ k → k ≤ a.toNat + cnt.val → k ∉ (me s).owner) → exec (.take rs1 cnt) s = .next (retire s.cur 4 s s)) ∧
        ((∃ k, a.toNat ≤ k ∧ k ≤ a.toNat + cnt.val ∧ k ∈ (me s).owner) → exec (.take rs1 cnt) s = .next (setStall s.cur 3 a s))) ∧
      ((me s).leaseReq = .none →
        ((a = 0 ∨ tileCount (me s) < a.toNat + 16 ∨ (leaseOf s s.cur).isSome = true) →
          exec (.mlease rs1) s = .next (takeTrap s.cur 0x403 0 (me s).pc s)) ∧
        (a ≠ 0 → a.toNat + 16 ≤ tileCount (me s) → leaseOf s s.cur = none →
          ∃ u, exec (.mlease rs1) s = .next u ∧ (coreOf u s.cur).stall = some ⟨7, 1, 0⟩ ∧ (coreOf u s.cur).leaseReq = .waiting ∧
            (clusterOf u (clOf s.cur)).leaseReqs = (clusterOf s (clOf s.cur)).leaseReqs ++
              [{ core := s.cur, gtid := (me s).gtid, sb := a.toNat, since := (dieOf s (dOf s.cur)).cyc }] ∧
            (coreOf u s.cur).pc = (me s).pc)) ∧
      ((me s).leaseReq = .result 0 →
        exec (.mlease rs1) s = .next (retire s.cur 4 s (modCore s.cur (fun y => { y with leaseReq := .none }) s))) ∧
      (leaseOf s s.cur = none → exec .mfree s = .next (retire s.cur 4 s s)) ∧
      ((leaseOf s s.cur).isSome = true → mxPending s s.cur = true → exec .mfree s = .next (setStall s.cur 7 1 s)) ∧
      ((leaseOf s s.cur).isSome = true → mxPending s s.cur = false →
        ∃ u, exec .mfree s = .next u ∧ leaseOf u s.cur = none ∧ (coreOf u s.cur).regs = (me s).regs ∧ (∀ q, byteOf u q = byteOf s q)) ∧
      (writeX rd (qstatOf s s.cur p.val) s = .ok t → exec (.qstat rd p) s = .next (retire s.cur 4 s t)))

/-- A command is launched when its engine takes it; a failed check or a cancellation launches it with its cause and no
access. Rests on 15 R347, 15 R349, 15 R352, 15 R357, 15 R358, 14 R324. -/
def Obligations.commands_launch_or_fail_their_checks : Prop :=
  ∀ (i : Instr) (s : State) (cl id : Nat) (n : Node), i.isCommand = true → s.curNode = some (cl, id) → nodeOf s cl id = some n →
    ((if isMatrixCmd i then canLaunchMx s cl id n else canLaunch s cl id n) = false → exec i s = .next s) ∧
    (Taken i s cl id n → ∀ k, (n.cancel = some k ∨ (n.cancel = none ∧ checkNames cl n (cmdNames s cl i) s = .error k)) →
      ∃ t m, exec i s = .next t ∧ nodeOf t cl id = some m ∧ m.st = .launched ∧ m.done = true ∧ m.err = some k ∧ m.cmd = n.cmd ∧
        (∀ j, j ≠ id → nodeOf t cl j = nodeOf s cl j) ∧ (∀ c, coreOf t c = coreOf s c) ∧ (∀ p, byteOf t p = byteOf s p)) ∧
    (isMatrixCmd i = false → Taken i s cl id n → n.cancel = none → ∀ l t u, checkNames cl n (cmdNames s cl i) s = .ok (l, t) →
      partitionGate cl n l.flatten ((((cmdNames s cl i).globs.zip l).filter (fun e => e.1.acc == .store)).flatMap (fun e => e.2)) t = (u, false) ∨
      (partitionGate cl n l.flatten ((((cmdNames s cl i).globs.zip l).filter (fun e => e.1.acc == .store)).flatMap (fun e => e.2)) t = (u, true) ∧
        l.flatten.any (rangeWaits u n.tenant cl) = true) →
      exec i s = .next u)

/-- A launched command makes the accesses of its description on the ranges it names. Rests on 07 R155, 14 R327, 14 R328,
14 R329, 14 R333, 14 R335, 14 R338, 14 R339, 15 R361, 15 R363, 15 R365. -/
def Obligations.launched_commands_make_their_accesses : Prop :=
  ∀ (s : State) (cl id : Nat) (n m : Node) (l : List (List (Ref × Nat))) (u : State) (h : Hdr) (va src dst len off cnt core : Nat) (sp : Spx)
      (planes : Nat) (path : Fin 3),
    (∀ i ∈ [Instr.cpNop h], Launches i s cl id n m l u → exec i s = .next (acted i cl id (u, none))) ∧
    (∀ i mv, ((i = .cpG2s h va sp ∧ mv = (0, 0)) ∨ (i = .cpRget h va sp planes path ∧ mv = (planes, path.val))) → Launches i s cl id n m l u →
      exec i s = .next (acted i cl id (copyMove cl id m mv.1 mv.2 (pairUp l.flatten [(spRef (8 * cl + sp.core) sp.off, sp.len)]) u))) ∧
    (∀ i mv, ((i = .cpS2g h va sp ∧ mv = (0, 0)) ∨ (i = .cpRput h va sp planes path ∧ mv = (planes, path.val))) → Launches i s cl id n m l u →
      exec i s = .next (acted i cl id (copyMove cl id m mv.1 mv.2 (pairUp [(spRef (8 * cl + sp.core) sp.off, sp.len)] l.flatten) u))) ∧
    (∀ (ddie dclus dcore doff : Nat) (i : Instr), i = .cpS2s h sp ddie dclus dcore doff → Launches i s cl id n m l u →
      exec i s = .next (acted i cl id (copyMove cl id m 0 0 (pairUp [(spRef (8 * cl + sp.core) sp.off, sp.len)]
        [(spRef (128 * ddie + 8 * dclus + dcore) doff, sp.len)]) u))) ∧
    (∀ i, i = .cpCk h src dst len → Launches i s cl id n m l u →
      exec i s = .next (acted i cl id (copyMove cl id m 0 0 (pairUp (l.getD 0 []) (l.getD 1 [])) u))) ∧
    (∀ (dir : Bool) (gstride : Int) (sstride rows : Nat) (i : Instr), i = .cp2d h va dir sp gstride sstride rows → Launches i s cl id n m l u →
      exec i s = .next (acted i cl id (copyMove cl id m 0 0 (l.zipIdx.flatMap (fun e =>
        if dir then pairUp [(spRef (8 * cl + sp.core) (sp.off + sstride * e.2), sp.len)] e.1
        else pairUp e.1 [(spRef (8 * cl + sp.core) (sp.off + sstride * e.2), sp.len)])) u))) ∧
    (∀ (icore ioff : Nat) (i : Instr), i = .cpGath h va sp icore ioff cnt → Launches i s cl id n m l u →
      exec i s = .next (acted i cl id (if sp.len = 0 then (u, none) else gatherMove (nodeMover cl id m 0 0) ⟨8 * cl + icore, ioff, (2 * cnt + 15) / 16 * 16⟩
        (entries16 u (8 * cl + icore) ioff cnt) l (rowsOf_ sp.len cnt [(spRef (8 * cl + sp.core) sp.off, cnt * sp.len)])
        (countCluster 0xB1 (cnt * sp.len - ((l.flatten.filter (fun p => isRemote u p.1)).map (fun p => p.2)).sum) cl u)))) ∧
    (∀ (op : RedOp) (dbl : Bool) (i : Instr) (xs : List Xfer), i = .cpRred h va sp planes path op dbl → Launches i s cl id n m l u →
      xs = pairUp [(spRef (8 * cl + sp.core) sp.off, sp.len)] l.flatten →
      exec i s = .next (acted i cl id (xs.foldl (fun v x =>
        ((redXfer (nodeMover cl id m planes path.val) op dbl x v.1).1, v.2.or (redXfer (nodeMover cl id m planes path.val) op dbl x v.1).2))
        (countCluster 0xB1 sp.len cl u, none)))) ∧
    (∀ i, i = .hgCount h core off cnt → Launches i s cl id n m l u → ∀ ids : List Nat,
      ids = ((entries16 u (8 * cl + core) off cnt).filter (fun e => !e.2)).map (fun e => e.1) →
      ∃ t, exec i s = .next t ∧ (∀ b < 1024, ∀ c, c = (ids.filter (fun x => x == b)).length →
        (clusterOf t cl).hcount.get 0 b = if c = 0 then (clusterOf u cl).hcount.get 0 b else ((clusterOf u cl).hcount.get 0 b + c) % 2 ^ 32) ∧
        (∀ c, c = (ids.filter (fun x => decide (1024 ≤ x) && x != 0xFFFF)).length →
          (clusterOf t cl).outr = if c = 0 then (clusterOf u cl).outr else ((clusterOf u cl).outr + c) % 2 ^ 32)) ∧
    (∀ (first k : Nat) (clr wr : Bool) (base : Nat) (i : Instr) (es : List (Nat × Nat)) (v : State),
      i = .hgLatch h first k clr wr base core off → Launches i s cl id n m l u → es = latchEntries (clusterOf u cl) k first (base % 2 ^ 32) →
      v = modCluster cl (fun q => { q with
        latch := es.foldl (fun a e => AList.put e.1 (wd e.2) a) q.latch
        hcount := if clr then q.hcount.filter (fun e => !(decide (first ≤ e.1) && decide (e.1 < first + k))) else q.hcount }) u →
      exec i s = .next (acted i cl id (if wr then writeRange (nodeMover cl id m 0 0) (spRef (8 * cl + core) off)
        ((chunksOf 2 k es).map (fun p => ⟨(p.getD 0 (0, 0)).2 + 2 ^ 64 * (p.getD 1 (0, 0)).2, false⟩)) v else v, none))) ∧
    (∀ i, i = .hgClear h → Launches i s cl id n m l u →
      ∃ t, exec i s = .next t ∧ (∀ b, (clusterOf t cl).hcount.get 0 b = 0) ∧ (clusterOf t cl).outr = 0 ∧
        (clusterOf t cl).latch = (clusterOf u cl).latch ∧ (∀ p, byteOf t p = byteOf u p)) ∧
    (∀ (a b : Loc) (stack : Bool) (i : Instr), i = .bdCopy h a b len stack → Launches i s cl id n m l u → 0 < len →
      exec i s = .next (acted i cl id (moveAll (nodeMover cl id m 0 0) (pairUp (pairPieces cl a b len len l).1 (pairPieces cl a b len len l).2) u))) ∧
    (∀ (a b : Loc) (stack : Bool) (i : Instr), i = .bdCopy h a b 0 stack → Launches i s cl id n m l u → exec i s = .next (acted i cl id (u, none))) ∧
    (∀ (a b : Loc) (sf df : Fmt) (rm : Rm) (sat stack : Bool) (i : Instr) (gs : List Gran) (e : Option Nat) (v : State) (ps : List (Ref × Nat) × List (Ref × Nat)),
      i = .bdCvt h a b sf df rm sat cnt stack → Launches i s cl id n m l u → ps = pairPieces cl a b (elemBytes sf cnt) (elemBytes df cnt) l →
      readPieces (nodeMover cl id m 0 0) ps.1 u = (gs, e, v) →
      exec i s = .next (acted i cl id (writePieces (nodeMover cl id m 0 0) ps.2 (packGrans df (((unpackGrans sf gs).take cnt).zipIdx.map (fun x =>
        ((cvtElem df sf (rmOf m rm) sat (engineDraw u x.2) x.1.1).1, x.1.2)))) { v with free := v.free + cnt }, e))) ∧
    (∀ (a b : Loc) (k vs : Nat) (f : Fmt) (rm : Rm) (sat stack : Bool) (i : Instr) (g : List (List (Ref × Nat)))
        (r : List (List (Nat × Bool)) × Option Nat × State), i = .bdRed h a b k vs cnt f rm sat stack → Launches i s cl id n m l u →
      g = (if isGlob a then l.take k else []) →
      r = (List.range k).foldl (fun q e =>
        let x := readPieces (nodeMover cl id m 0 0) (locPieces cl a (16 * vs * e) (elemBytes f cnt) (g.getD e [])) q.2.2
        (q.1 ++ [(unpackGrans f x.1).take cnt], q.2.1.or x.2.1, x.2.2)) ([], none, u) →
      exec i s = .next (acted i cl id (writePieces (nodeMover cl id m 0 0) (locPieces cl b 0 (elemBytes f cnt) (l.getD g.length []))
        (packGrans f (redVectors f (rmOf m rm) sat (engineDraw u) r.1)) { r.2.2 with free := r.2.2.free + k * cnt }, r.2.1))) ∧
    (∀ (a b : Loc) (icore ioff ru : Nat) (stack : Bool) (i : Instr) (es named : List (Nat × Bool)) (x : State × Option Nat),
      i = .bdGath h a b icore ioff cnt ru stack → Launches i s cl id n m l u →
      es = rowsInside u cl a (16 * ru) (entries16 u (8 * cl + icore) ioff cnt) → named = es.filter (fun e => !e.2 && e.1 != 0xFFFF) →
      x = gatherMove (nodeMover cl id m 0 0) ⟨8 * cl + icore, ioff, (2 * cnt + 15) / 16 * 16⟩ es
        (if isGlob a then l.take named.length else named.map (fun e => locPieces cl a (e.1 * (16 * ru)) (16 * ru) []))
        (rowsOf_ (16 * ru) cnt (locPieces cl b 0 (cnt * (16 * ru)) (l.getD (if isGlob a then named.length else 0) []))) u →
      exec i s = .next (acted i cl id (x.1, if es.length < (entries16 u (8 * cl + icore) ioff cnt).length then some 0x205 else x.2))) ∧
    (∀ (ld : MxLoad) (i : Instr) (b : Nat), ((i = .mxDensa h ld ∧ b = (if ld.bank then 1 else 0)) ∨ (i = .mxLdb h ld ∧ b = (if ld.bank then 3 else 2))) →
      Launches i s cl id n m l u →
      exec i s = .next (acted i cl id (loadBank cl b (nodeMover cl id m 0 0) m ld none ((List.range ld.cnt).map (fun k => ⟨some (ld.off + k * ld.stride), false⟩)) u))) ∧
    (∀ (ld : MxLoad) (icore ioff : Nat) (i : Instr), i = .mxGatha h ld icore ioff → Launches i s cl id n m l u →
      exec i s = .next (acted i cl id (loadBank cl (if ld.bank then 1 else 0) (nodeMover cl id m 0 0) m ld
        (spFault (coreOf u (8 * cl + icore)) ioff ((2 * ld.cnt + 15) / 16 * 16)) ((entries16 u (8 * cl + icore) ioff ld.cnt).map (fun e =>
        ⟨if e.2 = false ∧ e.1 ≠ 0xFFFF then some (ld.off + e.1 * ld.stride) else none, e.2⟩))
        (touchRange (nodeMover cl id m 0 0) (spRef (8 * cl + icore) ioff) ((2 * ld.cnt + 15) / 16 * 16) u)))) ∧
    (∀ (ri ci vi kcnt koff : Nat) (bank : Bool) (f : Fmt) (i : Instr), i = .mxCsrb h ri ci vi kcnt koff bank f → Launches i s cl id n m l u →
      exec i s = .next (acted i cl id (csrAct ci vi kcnt koff (if bank then 3 else 2) f cl id m l u))) ∧
    (∀ (negz acls : Bool) (i : Instr), i = .mxZero h negz acls → Launches i s cl id n m l u →
      exec i s = .next (acted i cl id (modLease cl m.core (fun q => { q with set :=
        { fp32 := acls, start := { fp := if negz then 0x80000000 else 0, negz := negz } } }) u, none))) ∧
    (∀ (kcnt koff mm nn : Nat) (ab bb : Bool) (i : Instr), i = .mxRun h kcnt koff ab bb mm nn → Launches i s cl id n m l u →
      exec i s = .next (acted i cl id (runAct kcnt koff ab bb mm nn cl m u))) ∧
    (∀ (d : MxDrain) (i : Instr), i = .mxDrain h d → Launches i s cl id n m l u → exec i s = .next (acted i cl id (drainAct d cl id m l u))) ∧
    (∀ (clr : Bool) (i : Instr) (le : Lease) (v : State), i = .mxStat h clr core off → Launches i s cl id n m l u →
      leaseAt (clusterOf u cl) m.core = some le →
      v = writeRange (nodeMover cl id m 0 0) (spRef (8 * cl + core) off)
        ((List.range 50).map (fun k => ⟨le.ctrs.get 0 (2 * k) + 2 ^ 64 * le.ctrs.get 0 (2 * k + 1), false⟩)) u →
      exec i s = .next (acted i cl id (if clr then modLease cl m.core (fun q => { q with ctrs := [] }) v else v, none))) ∧
    (∀ (mv : Mover) (t : State) (a b oa ob k : Nat), MemoriesOk t → mv.fill = false → k % 16 = 0 → a < 1024 → b < 1024 → oa + k ≤ 2 ^ 22 → ob + k ≤ 2 ^ 22 → oa % 16 = 0 →
      (∀ w ∈ (coreOf t a).spBad ++ (coreOf t a).spPois, ¬(oa / 16 ≤ w ∧ w < (oa + k) / 16)) → (moveAll mv [⟨spRef a oa, spRef b ob, k⟩] t).2 = none ∧
      (∀ j < k, byteOf (moveAll mv [⟨spRef a oa, spRef b ob, k⟩] t).1 (.pad b (ob + j)) = byteOf t (.pad a (oa + j))) ∧
      (∀ p, (∀ j < k, p ≠ .pad b (ob + j)) → byteOf (moveAll mv [⟨spRef a oa, spRef b ob, k⟩] t).1 p = byteOf t p))

/-- Events of cores, clusters, caches and HBM complete and do what their rules give. Rests on 15 R350, 15 R355, 14 R321,
08 R164, 08 R171, 08 R172, 08 R173, 08 R174, 08 R176, 02 R38, 05 R105, notes log 15. -/
def Obligations.events_of_cores_clusters_and_memory : Prop :=
  ∀ (s : State) (c cl k d : Nat),
    (∀ (n : Node), nodeOf s cl k = some n → n.st = .launched → n.done = true → AList.find? s.dead (clDie cl) = none →
      nodeBusy s cl k = false → streamHeld (clusterOf s cl) n = false → mxHeld (clusterOf s cl) n = false →
      ((cmdHdr n.cmd).cscope = .s → (cmdHdr n.cmd).cidx ≠ 0 → n.rel = false →
        exec (.nodeComplete cl k) s = .next (putNode cl k { n with rel := true } (rpSend n.core s))) ∧
      (((cmdHdr n.cmd).cscope ≠ .s ∨ (cmdHdr n.cmd).cidx = 0 ∨ n.rel = true) → (n.rel = true → relWaits s cl n = false) →
        exec (.nodeComplete cl k) s = .next (completeSteps cl k n s) ∧
        (((cmdHdr n.cmd).rtag = 0 ∨ (takeMsg n.core (rtagMsg (giveSteps cl n s) k n (cmdHdr n.cmd).rtag) (giveSteps cl n s)).2 = true) →
          nodeOf (completeSteps cl k n s) cl k = none) ∧
        ((cmdHdr n.cmd).rtag ≠ 0 → (takeMsg n.core (rtagMsg (giveSteps cl n s) k n (cmdHdr n.cmd).rtag) (giveSteps cl n s)).2 = false →
          nodeOf (completeSteps cl k n s) cl k = some { n with given := true }))) ∧
    (∀ (w : Nat), w < 2 ^ 64 → (arriveWord none w) % 2 ^ 24 = min (w % 2 ^ 24 + 1) (2 ^ 24 - 1) ∧ arriveWord none w / 2 ^ 24 = w / 2 ^ 24 ∧
      (∀ e, (arriveWord (some e) w).testBit 63 = true ∧ bits (arriveWord (some e) w) 47 0 = bits (arriveWord none w) 47 0 ∧
        bits (arriveWord (some e) w) 59 48 = if w.testBit 63 then bits w 59 48 else e % 2 ^ 12)) ∧
    ((clusterOf s cl).turn = none → ((List.range 8).map (fun i => 8 * cl + ((clusterOf s cl).lastTurn + 1 + i) % 8)).find? (isCandidate (clusterOf s cl)) = some c →
      (lesseeReady (clusterOf s cl) c = true →
        ∃ t, exec (.mxTurnStart cl) s = .next t ∧ (clusterOf t cl).turn = some { core := c, since := s.time, launched := 0 }) ∧
      (∀ r, lesseeReady (clusterOf s cl) c = false → (clusterOf s cl).leaseReqs.find? (fun q => q.core == c) = some r →
        ∃ t, exec (.mxTurnStart cl) s = .next t ∧ (coreOf t c).leaseReq = .result (if (List.range 16).all (fun i => (coreOf s c).owner.contains (r.sb + i)) = true then 0 else 1))) ∧
    (∀ u, (clusterOf s cl).turn = some u → u.ending = false → u.since + 64000 ≤ s.time → otherCandidate (clusterOf s cl) cl u.core = true →
      ∃ t, exec (.mxTurnTimeout cl) s = .next t ∧ (clusterOf t cl).turn = some { u with ending := true }) ∧
    (∀ (p : QPos) (e0 e : QEntry) (t u v : State), coreUp s c = true → (coreOf s c).picking = true → (coreOf s c).run = .idle →
      (coreOf s c).member = none → (headOf (coreOf s c)).or (bottomOf (coreOf s c)) = some p → entryAt (coreOf s c) p = some e0 →
      startReady c e0 s = (t, true) → takeAt c p t = .ok (e, u) → runEntry c p.queue 2 0 e u = some v → exec (.taskPick c) s = .next v) ∧
    (∀ x : CoreSt, headOf x = if x.fifo0.hw ≠ [] then some ⟨0, false, 0⟩ else if x.fifo0.ring ≠ [] then some ⟨0, true, 0⟩
      else if x.fifo1.hw ≠ [] then some ⟨1, false, 0⟩ else if x.fifo1.ring ≠ [] then some ⟨1, true, 0⟩
      else if x.fifo2.hw ≠ [] then some ⟨2, false, 0⟩ else if x.fifo2.ring ≠ [] then some ⟨2, true, 0⟩ else none) ∧
    (∀ (f kind arg v : Nat) (e : QEntry) (t : State), e.mig = none → readWords (whoSup s c) c e.slot.toNat 8 s = .ok (v, t) →
      ctlKilled t (dwordOf v 2) = false → recordOk (coreOf t c) v = true → memberOk (coreOf t c) e.slot v = true →
      ∃ u, runEntry c f kind arg e s = some (traceRec c kind (wd (dwordOf v 1)) f arg (wd (dwordOf v 0)) u) ∧
        (coreOf u c).run = .running ∧ (coreOf u c).haveTask = true ∧ (coreOf u c).pc = wd (dwordOf v 0) ∧ (coreOf u c).gtid = wd (dwordOf v 1) ∧
        (coreOf u c).ctl = setBits (wd (dwordOf v 2)) 47 32 0 ∧ (coreOf u c).joinw = wd (dwordOf v 3) ∧ (coreOf u c).trec = e.slot ∧
        isSup (coreOf u c) = false ∧ ∀ r, getX r (coreOf u c) = if 10 ≤ r ∧ r < 14 then wd (dwordOf v (r - 6)) else 0) ∧
    (∀ (v : Nat) (l : List Nat) (p : QPos) (e0 e : QEntry) (u w x y t : State), coreUp s c = true → (coreOf s c).picking = true →
      (coreOf s c).run = .idle → (coreOf s c).member = none → headOf (coreOf s c) = none → bottomOf (coreOf s c) = none → victims s c = v :: l →
      u = { s with free := s.free + 2 } → offered u c v (stealPlaces (coreOf u v)) = some (some p) → entryAt (coreOf u v) p = some e0 →
      startReady c e0 u = (w, true) → takeAt v p w = .ok (e, x) → markRecord c 48 e.slot x = some y →
      runEntry c p.queue 5 (yidx x v) e y = some t → exec (.steal c) s = .next (count 0x70 1 c t)) ∧
    (coreUp s c = true → (coreOf s c).picking = false → ((coreOf s c).run = .idle ∨ (coreOf s c).run = .reserved) →
      (coreOf s c).sleepAt + 4096 ≤ (dieOf s (dOf c)).cyc →
      ∃ t, exec (.coreSleepTimeout c) s = .next t ∧ OnlyCore c s t ∧ (coreOf t c).picking = true ∧ (coreOf t c).run = (coreOf s c).run) ∧
    (∀ (p : QPos) (e0 e : QEntry) (t u : State), coreUp s c = true → oldestOf (coreOf s c) = some p → entryAt (coreOf s c) p = some e0 →
      e0.cyc + 65536 < (dieOf s (dOf c)).cyc → qRoom (coreOf s c) 1 1 = true → takeAt c p s = .ok (e, t) → promoteEntry c e t = .ok u →
      exec (.fifoAging c) s = .next (promote c 527 u)) ∧
    (∀ (m : Msg) (u : State), (clusterOf s cl).msgs[k]? = some m → m.held = false → notYet s (dOf m.core) m.gen = false →
      savedAt s m.tenant (clOf m.core) = false → u = modCluster cl (fun x => { x with msgs := dropAt k x.msgs }) s →
      ((isLive s (dOf m.core) = false ∨ ∀ b, barnAt s (clOf m.core) = some b → b.tenant ≠ m.tenant) →
        exec (.messageArrival cl k) s = .next (sendResult m 1 u)) ∧
      (∀ (t : State) (b : Barn), isLive s (dOf m.core) = true → barnAt s (clOf m.core) = some b → b.tenant = m.tenant →
        (m.sup = true ∨ inPaddock s m.tenant (clOf m.core) = true) →
        (takeMsg m.core m s = (t, true) → exec (.messageArrival cl k) s =
          .next (sendResult m 0 (trafficAt (clOf m.core) (modCluster cl (fun x => { x with msgs := dropAt k x.msgs }) t)))) ∧
        (takeMsg m.core m s = (t, false) → ∃ v, exec (.messageArrival cl k) s = .next v ∧
          (clusterOf v cl).msgs[k]? = some { m with held := true }))) ∧
    (coreUp s c = true → exec (.inboxHeldAction c) s = .next (actHeld c s)) ∧
    (∀ m, (clusterOf s cl).msgs[k]? = some m →
      ∃ t, exec (.niResend cl k) s = .next t ∧ (clusterOf t cl).msgs[k]? = some { m with held := false }) ∧
    (∀ (e : RemAcc) (l : List RemAcc), (coreOf s c).remq = e :: l → spBusy s c = false →
      exec (.remoteWordAccess c) s = .next (breakResv (some e.who) e.line (homeWrite (some c) e.kind e.line e.key e.bytes
        (trafficAt (clOf c) (modCore c (fun x => { x with remq := l }) s))))) ∧
    (∀ (va : Word) (acc : Acc) (t : State), coreUp s c = true → (whoCore s c).en = true → canonical va.toNat = true → inWindows va.toNat = false →
      (logGate c s = (t, false) → exec (.pageWalk c va acc) s = .next t) ∧
      (logGate c s = (t, true) →
        (∀ leaf level u, walkFill (whoCore s c) acc va.toNat t = .ok (leaf, level, u) → exec (.pageWalk c va acc) s = .next u) ∧
        (∀ e, walkFill (whoCore s c) acc va.toNat t = .error e → exec (.pageWalk c va acc) s = .next t))) ∧
    (d < 8 → ilPending s d ≠ [] → (∀ e ∈ s.clusters, clDie e.1 = d → ∀ n ∈ e.2.nodes, n.2.st ≠ .launched) →
      ∃ t, exec (.ilApply d) s = .next t ∧ (dieOf t d).ildone = (dieOf s d).ilhead ∧ (dieOf t d).dtlb = tlbPurge (ilPending s d) (dieOf s d).dtlb ∧
        (∀ a, dOf a = d → (coreOf t a).l0 = tlbPurge (ilPending s d) (coreOf s a).l0) ∧
        (∀ a, clDie a = d → (clusterOf t a).ctlb = tlbPurge (ilPending s d) (clusterOf s a).ctlb)) ∧
    (∀ (e : ScbEntry) (l : List ScbEntry), (coreOf s c).scb = e :: l → coreUp s c = true → e.cyc + 64 ≤ (dieOf s (dOf c)).cyc →
      exec (.scbDrainTimeout c) s = .next (performStore c e (modCore c (fun x => { x with scb := l }) s))) ∧
    (d < 8 → (∃ l ∈ (dieOf s d).rp, l.dirty ≠ [] ∧ l.cyc + 65536 ≤ (dieOf s d).cyc) →
      ∃ t, exec (.rpAgedWriteback d) s = .next t ∧ ∀ l ∈ (dieOf t d).rp, l.dirty = [] ∨ (dieOf s d).cyc < l.cyc + 65536) ∧
    (∀ (n : Notify) (w p : Nat) (g : State) (b : BarPart), (clusterOf s cl).notes[k]? = some n → AList.find? s.dead (dOf n.dst) = none →
      newer n.gen (dieMapgen s (dOf n.dst)) = false → newer (dieGen s (dOf n.dst)) n.gen = false → savedAt s n.tenant (clOf n.dst) = false →
      isLive s (dOf n.dst) = true → inPaddock s n.tenant (clOf n.dst) = true →
      w = ((clusterOf s (clOf n.dst)).bars.get {} n.desc).word.toNat → w.testBit 63 = true → bits w 17 10 = n.tenant → partOf w (yidx s n.dst) = some p →
      g = modCluster cl (fun x => { x with notes := dropAt k x.notes }) s → b = barPart g (clOf n.dst) n.desc p →
      (n.epoch = b.epoch → exec (.barNotifyArrive cl k) s = .next (barAdvance (clOf n.dst) n.desc p w 20
        (putPart (clOf n.dst) n.desc p { b with got := insertNat n.rnd b.got } (trafficAt (clOf n.dst) g)))) ∧
      (n.epoch = b.epoch + 1 → exec (.barNotifyArrive cl k) s = .next (barAdvance (clOf n.dst) n.desc p w 20
        (putPart (clOf n.dst) n.desc p { b with gotNext := insertNat n.rnd b.gotNext } (trafficAt (clOf n.dst) g))))) ∧
    (coreUp s c = true → (coreOf s c).haveTask = true → bits (coreOf s c).trcctl.toNat 35 16 ≠ 0 →
      (coreOf s c).trcLast + bits (coreOf s c).trcctl.toNat 35 16 * 1024 ≤ (dieOf s (dOf c)).cyc →
      exec (.traceSample c) s = .next (traceRec c 8 (coreOf s c).gtid 0 0 (coreOf s c).pc
        (modCore c (fun y => { y with trcLast := (dieOf s (dOf c)).cyc }) s))) ∧
    ((coreOf s c).spcfg.getLsbD 63 = true → (coreOf s c).spNew ≤ 8 →
      ∃ t, exec (.splitChangeComplete c) s = .next t ∧ (coreOf t c).spcfg.getLsbD 63 = false ∧
        (coreOf t c).spcfg.toNat % 16 = (coreOf s c).spNew ∧ (coreOf t c).l1 = []) ∧
    (rpBusy s d = false → ∃ t, exec (.l2ResizeComplete d) s = .next t ∧ (dieOf t d).l2cfg.getLsbD 63 = false ∧
      ∀ j < 63, (dieOf t d).l2cfg.getLsbD j = (dieOf s d).l2cfg.getLsbD j) ∧
    (∀ b, AList.find? s.banks (d * 2048 + k % 2048) = some b → b.victims ≠ [] →
      ∃ t, exec (.rfmComplete d k) s = .next t ∧ AList.find? t.banks (d * 2048 + k % 2048) = some { b with victims := [], queued := false }) ∧
    (s.refWin < s.time / 32000000 → ∃ t, exec .refreshWindowEnd s = .next t ∧ t.hbmcfg = s.hbmNext ∧ ∀ b ∈ t.banks, b.2.acts = []) ∧
    (∀ (st n : Nat), (d < 8 ∧ isLive s d = true ∨ d = 8 ∧ isSpare s 8 = true) → AList.find? s.dead d = none → st = k / 2 % 2 →
      n = (dieOf s d).scrubbed.get 0 st → k = scrubLine st n → n / 2 ^ 29 ≤ s.time / 86400000000000 →
      ∃ t, exec (.hbmScrub d k) s = .next t ∧ (dieOf t d).scrubbed.get 0 st = n + 1 ∧
        (∀ a ∈ (dieOf t d).ceInj, a / 128 ≠ d * 2 ^ 30 + k) ∧ ∀ a ∈ (dieOf t d).ueInj, a / 128 ≠ d * 2 ^ 30 + k) ∧
    (s.ceDay < s.time / 86400000000000 → ∃ t, exec .ceFilterClear s = .next t ∧ ∀ a, (dieOf t a).cefilter = [] ∧ (dieOf t a).cehist = [])

/-- Events of the fabric, its planes, die maps, ports, modules and dies. Rests on 19 R434, 19 R438, 19 R440, 19 R443, 19
R446, 19 R447, 19 R448, 04 R86, 20 R455, 20 R458, 20 R460, 20 R462. -/
def Obligations.events_of_the_fabric_and_of_lost_dies : Prop :=
  ∀ (s : State) (k cl p f w d : Nat),
    (∀ t, txnOf s k = some t →
      (t.src ≠ s.modIdx → t.dst ≠ s.modIdx → exec (.fabricTxnArrive k) s = .next (arriveRelay t s)) ∧
      ((t.src = s.modIdx ∨ t.dst = s.modIdx) → t.performed = false → t.left = 0 → inTurn s t = true → lineHeld s t = false → pullWaits s t = false →
        (t.src ≠ s.modIdx → exec (.fabricTxnArrive k) s = .next (arriveIn t s)) ∧
        (t.src = s.modIdx → t.dst ∉ s.unreach → (sameYard s t.dst = true → electricalOk s t.dst = true) →
          exec (.fabricTxnArrive k) s = .next (arriveOut t s) ∧
          (t.ack = true → ∀ u, txnOf (performOut t s) k = some u → txnOf (arriveOut t s) k = some { t with performed := true }) ∧
          (t.ack = false → txnOf (arriveOut t s) k = none)))) ∧
    (∀ (t : Txn) (u : State), txnOf s k = some t → t.src = s.modIdx → t.performed = true → exec (.fabricAckReceive k) s = .next u →
      txnOf u k = none ∧ (∀ m, t.op = .msg m → m.mod = s.modIdx → m.posted = false → (coreOf s m.src).sendReq = .waiting →
        (coreOf u m.src).sendReq = .result 0)) ∧
    (∀ t, txnOf s k = some t → t.src = s.modIdx → t.performed = true → ∃ u, exec (.fabricAckReceive k) s = .next u) ∧
    (∀ (t : Txn) (cause : Nat), txnOf s k = some t → t.src = s.modIdx → t.performed = false → failCause cause = true →
      exec (.remoteTxnFail k cause) s = .next (failTxn t cause s) ∧
      (t.since + 10 ^ 9 ≤ s.time → exec (.fabricResendTimeout k) s = .next (failTxn t 0x702 s))) ∧
    (∀ m, (clusterOf s cl).msgs[k]? = some m → newer (dieGen s (dOf m.core)) m.gen = true →
      (m.nacks < 63 → ∃ t, exec (.mapNackReceive cl k) s = .next t ∧
        (clusterOf t cl).msgs[k]? = some { m with gen := (clusterOf s cl).mapgen, nacks := m.nacks + 1 }) ∧
      (63 ≤ m.nacks → exec (.mapNackReceive cl k) s = .next (sendResult m 2 (modCluster cl (fun x => { x with msgs := dropAt k x.msgs }) (countAll 0xC7 1 s))))) ∧
    (∀ (seen : Nat) (u : State), p < 16 →
      u = planeCheck p (modPlane p nextSlot (if (planeOf s p).started = true then countAll 0xC1 (overrun (sendNow s) p) (sendNow s) else s)) →
      (planeOf u p).link = none ∧ (planeOf u p).slot = (nextSlot (planeOf s p)).slot ∧
      (planeOn (planeOf u p) = false ∨ peerIn (planeOf u p) (planeOf u p).slot = none → exec (.rotorSlotBoundary p seen) s = .next u) ∧
      (∀ peer, planeOn (planeOf u p) = true → peerIn (planeOf u p) (planeOf u p).slot = some peer →
        exec (.rotorSlotBoundary p seen) s = .next (if seen = peer then sendSlot p (linkSlot p peer u) else countAll 0xC4 1 u))) ∧
    ((planeOf s p).started = true → (nextSlot (planeOf s p)).slot = ((planeOf s p).slot + 1) % slotsOf (planeOf s p)) ∧
    (wlState s (wlIdx p f w) = 1 → p < 16 → f < 8 → w < 8 → ∃ t, exec (.wlRetrainDone p f w) s = .next t ∧
      AList.get 0 t.wlstat (wlIdx p f w) = wd (min (bits (AList.get 0 s.wlstat (wlIdx p f w)).toNat 61 32 + 1) (2 ^ 30 - 1) * 2 ^ 32)) ∧
    (∀ v : Word, k < 16 → ∃ t, exec (.mapPrepare cl k v) s = .next t ∧ (clusterOf t cl).diemap = (clusterOf s cl).diemap ∧
      (clusterOf t cl).mapgen = (clusterOf s cl).mapgen ∧ AList.get 0 (clusterOf t cl).mapNext k = v &&& 0xFFFC00000000FFFF) ∧
    (∀ e, (clusterOf s cl).mapNext.getLast? = some e → ∃ t, exec (.mapCommit cl) s = .next t ∧ (clusterOf t cl).mapNext = [] ∧
      (clusterOf t cl).mapgen = e.2.toNat % 65536 ∧
      (clusterOf t cl).diemap = (clusterOf s cl).mapNext.foldl (fun m x => AList.put x.1 x.2 m) (clusterOf s cl).diemap) ∧
    (p < 16 → f < 8 → w < 8 → exec (.flitCheckFailure p f w) s = .next (wlCheck p f w (countAll 0xC6 1 s))) ∧
    (p < 16 → f < 8 → ∃ t, exec (.fibreLoss p f) s = .next t ∧ f ∈ (planeOf t p).fibresLost ∧ ∀ g ∈ (planeOf s p).fibresLost, g ∈ (planeOf t p).fibresLost) ∧
    (p < 16 → ∃ t, exec (.planeLoss p) s = .next t ∧ planeOf t p = { planeOf s p with lost := true }) ∧
    (k < 992 → exec (.electricalPortDown k) s = .next (failCut { s with portsDown := insertNat k s.portsDown })) ∧
    (exec (.electricalPortUp k) s = .next { s with portsDown := removeNat k s.portsDown }) ∧
    (k < 256 → k ≠ s.modIdx → ∃ t, exec (.moduleLossVerdict k) s = .next t ∧ k ∈ t.unreach) ∧
    (k < 2 → ∃ t, exec (.serviceProcessorFailure k) s = .next t ∧ k ∈ t.spFail) ∧
    (isFailed s 8 = false → servedBy s 8 = none → AList.find? s.dead 8 = none →
      exec (.dieFailure 8) s = .next { s with dead := AList.put 8 s.time s.dead }) ∧
    (k < 9 → isFailed s k = false → servedBy s k = some d → AList.find? s.dead d = none → ∃ t, exec (.dieFailure k) s = .next t ∧ AList.find? t.dead d = some s.time ∧
      ∀ l, d * 2 ^ 30 ≤ l → l < (d + 1) * 2 ^ 30 → isPoison t l = true) ∧
    (∀ t0, AList.find? s.dead d = some t0 → t0 + 10 ^ 8 ≤ s.time → ∃ t, exec (.voteTimeout d) s = .next t ∧
      (∀ n ∈ tenantsOn s d, n ∈ t.stopped) ∧ ∀ q ∈ queuesOn s d, (qOf s q).irq < (qOf t q).irq) ∧
    (∀ (id cause i : Nat) (a b : Dom) (t : State), List.find? (fun (e : Nat × Dom) => e.2.id == id) s.doms = some (i, a) → a.err = some cause → a.state = 0 →
      t = killDom a cause s → AList.find? t.doms i = some b → allStopped t t.killed = true →
      exec (.cdRollback id cause) s = .next (requeueRoot i b cause t)) ∧
    (∀ (i cause v id : Nat) (a : Dom) (t u x : State), a.retries < 3 → readWords (whoSup s a.origin) a.origin a.root.toNat 8 s = .ok (v, t) →
      assignDom t = (id, u) → writeWords (whoSup u a.origin) a.origin (a.root.toNat + 16) (setBits (wd (dwordOf v 2)) 31 16 id).toNat 1 u = .ok x →
      AList.find? (requeueRoot i a cause s).doms i =
        some { a with id := id, retries := a.retries + 1, state := 0, err := none, opener := wd (dwordOf v 1), live := 0 }) ∧
    (d < 8 → mapValid s d = true → canVote s d = true → tenantsOn s d = [] →
      ∃ t, exec (.dieLossVerdict d) s = .next t ∧ AList.find? t.dead d = none ∧ t.live = liveDies t ∧
        (peerServed s d = false → physDie s d ∈ t.failed) ∧
        (∀ e ∈ t.doms, e.2.dies.testBit d = true → e.2.err ≠ none) ∧
        (∀ c < 128, (clusterOf t c).mapgen = nextGen s ∧
          AList.get 0 (clusterOf t c).diemap d = mapEntry d (nextGen s) (chooseSpare s)))

/-- Host queues, packets, modules, barns, preemption and hang detection. Rests on 17 R393, 17 R394, 17 R395, 17 R396, 17
R399, 17 R402, 17 R403, 17 R406, 17 R407, 17 R408, 17 R411, 18 R428. -/
def Obligations.host_queues_packets_barns_preemption_and_hangs : Prop :=
  ∀ (s : State) (q : Nat) (p : Packet),
    (∀ v : Word, q < 64 → ∃ t, exec (.hqDoorbell q v) s = .next t ∧ qOf t q = { qOf s q with tail := v }) ∧
    (∀ v : Word, q < 64 → ∃ t, exec (.hqctlWrite q v) s = .next t ∧ ∀ j < 64, (qOf t q).ctl.getLsbD j =
      if j = 63 ∨ j = 62 then v.getLsbD j else if j = 61 ∨ j = 60 then (qOf s q).ctl.getLsbD j && !(v.getLsbD j)
      else if (j < 8 ∨ 12 ≤ j ∧ j < 52) ∧ (qOf s q).ctl.getLsbD 63 = false then v.getLsbD j else (qOf s q).ctl.getLsbD j) ∧
    (queueOn s q = true → (qOf s q).cur = none → (qOf s q).waiting = none → (qOf s q).head ≠ (qOf s q).tail →
      (packetBytes s q = none → exec (.packetRead q) s = .next (raiseIrq q (ctlSet q (2 ^ 61 + 2 ^ 62) s))) ∧
      (∀ (v : Nat) (t : State) (l : List Word), packetBytes s q = some (v, t) → l = (List.range 8).map (fun i => wd (dwordOf v i)) →
        exec (.packetRead q) s = .next (bkpCheck q l (modQ q (fun y =>
          { y with head := y.head + 1, cur := some { dws := l, idx := (qOf s q).head.toNat } }) t)) ∧
        ((∀ n < 16, bkpMatches q l (AList.get (0, 0) t.bkps n) = false) → ∃ u, exec (.packetRead q) s = .next u ∧
          (qOf u q).head = (qOf t q).head + 1 ∧ (qOf u q).cur = some { dws := l, idx := (qOf s q).head.toNat, checked := true }))) ∧
    (dispatchable s q 0 = some p →
      (pdw p 0 % 2 ^ 55 = 0 → restZero p 1 = true → exec (.pktNop q) s = .next (taken q s)) ∧
      (pdw p 0 % 2 ^ 55 ≠ 0 ∨ restZero p 1 = false → exec (.pktNop q) s = .next (refuse q none 0x804 s))) ∧
    (dispatchable s q 1 = some p → bits (pdw p 0) 36 24 = 0 → bits (pdw p 3) 63 32 = 0 → launchReaches q p s = true →
      (∀ k, launchCheck q p s = some k → exec (.pktLaunch q) s = .next (taken q (hubChange q (pdw p 5)
        (fun w => (setBits (wd w) 59 48 k).toNat % 2 ^ 60 / 2 ^ 24 * 2 ^ 24 + 2 ^ 63) s))) ∧
      (∀ t, launchCheck q p s = none → t = hubChange q (pdw p 5) (fun _ => bits (pdw p 0) 23 0 * 2 ^ 24) (opened q p.idx (taken q s)) →
        exec (.pktLaunch q) s = .next (modQ q (fun y => { y with
          batches := y.batches ++ [batchOf q (qOf t q).seqNext p ((readTags q (pdw p 4) s).getD []) (((readHeader q (pdw p 6) s).map keptHdr).getD [])]
          seqNext := (qOf t q).seqNext + bits (pdw p 0) 23 0 }) t))) ∧
    (∀ r : Option (State × Option Nat), dispatchable s q 2 = some p → pdw p 0 % 2 ^ 55 = 0 → restZero p 5 = true → reaches s q .load (pdw p 1) = true →
      reaches s q .store (pdw p 2) = true → reaches s q .store (pdw p 4) = true →
      r = hubCopy q p.idx (pdw p 1) (pdw p 2) (pdw p 3) (opened q p.idx (taken q s)) →
      (r = none → exec (.pktCopy q) s = .next (finishCopies q s)) ∧
      (∀ t e, r = some (t, e) →
        exec (.pktCopy q) s = .next (finishCopies q (modQ q (fun x => { x with copies := x.copies ++ [(p.idx, wd (pdw p 4), e)] }) t)))) ∧
    (dispatchable s q 3 = some p → pdw p 0 % 2 ^ 55 = 0 → restZero p 3 = true → pdw p 1 % 8 = 0 → reaches s q .store (pdw p 1) = true →
      exec (.pktSignal q) s = .next (finishSignals q (modQ q (fun x => { x with sigs := x.sigs ++ [(p.idx, wd (pdw p 1), wd (pdw p 2))] })
        (opened q p.idx (taken q s))))) ∧
    (∀ w : State, dispatchable s q 4 = some p → pdw p 0 % 2 ^ 55 = 0 → restZero p 3 = true → pdw p 1 % 8 = 0 → reaches s q .load (pdw p 1) = true →
      w = modQ q (fun x => { x with waiting := some (wd (pdw p 1), wd (pdw p 2)) }) (opened q p.idx (taken q s)) →
      exec (.pktWait q) s = .next (pollWait q w)) ∧
    (∀ va bound : Word, (qOf s q).waiting = some (va, bound) →
      exec (.pktWaitPoll q) s = .next (pollWait q s) ∧
      (∀ v t, hubGet q va.toNat 8 s = .ok (v, t) →
        pollWait q s = if bound.toNat ≤ v then closed q ((qOf s q).head.toNat - 1) (modQ q (fun y => { y with waiting := none }) t) else t) ∧
      (∀ k, hubGet q va.toNat 8 s = .error k →
        pollWait q s = closed q ((qOf s q).head.toNat - 1) (ctlSet q (2 ^ 61 + 2 ^ 62) (modQ q (fun y => { y with waiting := none }) s)))) ∧
    (dispatchable s q 5 = some p → pdw p 0 % 2 ^ 55 = 0 → restZero p 2 = true → reaches s q .load (pdw p 1) = true →
      (loadModule q (pdw p 1) s = none → exec (.moduleLoad q) s = .next (refuse q none 0x803 s)) ∧
      (∀ t, loadModule q (pdw p 1) s = some t → exec (.moduleLoad q) s = .next (taken q t) ∧ ∃ m ∈ t.modtab, m.hdr = wd (pdw p 1) ∧ m.q = q)) ∧
    (dispatchable s q 6 = some p → pdw p 0 % 2 ^ 55 = 0 → restZero p 2 = true → reaches s q .load (pdw p 1) = true →
      (modEntryOf s (qTenant s q) (wd (pdw p 1)) = none → exec (.moduleUnload q) s = .next (finishUnloads q (refuse q none 0x803 s))) ∧
      (∀ m, modEntryOf s (qTenant s q) (wd (pdw p 1)) = some m →
        exec (.moduleUnload q) s = .next (finishUnloads q (modQ q (fun x => { x with unloads := x.unloads ++ [(p.idx, wd (pdw p 1))] })
          (opened q p.idx (taken q s)))))) ∧
    (∀ (j d : Nat) (b : Batch) (cls : List Nat), q < 64 → nextBarn s q = some (j, b, d) → barnPlace s q = some cls →
      servedNext s q = true → ∃ t, exec (.barnStart q) s = .next t ∧ (qOf t q).started = j + 1 ∧ t.served = q ∧
        (∃ a ∈ t.barns, a.q = q ∧ a.seq = j ∧ a.clusters = cls ∧ a.st = .resident ∧ a.live = cls.length * b.team) ∧
        ∀ e ∈ cls.zipIdx, ∀ f ∈ (teamCores e.1 b.level b.team).zipIdx, (coreOf t f.1).run = .running ∧ (coreOf t f.1).pc = b.entry ∧
          (coreOf t f.1).barn = some (q, j) ∧
          ∀ r, getX r (coreOf t f.1) = if r = 10 then wd (j - b.seq0) else if r = 11 then wd e.2 else if r = 12 then wd f.2 else if r = 13 then b.karg else 0) ∧
    (q < 64 → (nextBarn s q = none ∨ barnPlace s q = none) → exec (.barnStart q) s = .next (noteWait q s)) ∧
    (∀ (j : Nat) (b : Barn), s.barns.find? (fun a => a.q == q && a.seq == j) = some b → b.st = .resident → barnDone s b = true →
      exec (.barnComplete q j) s = .next (reportBarns q 256 (batchBoundary { (b.clusters.foldl (fun u cl => clearCluster cl u) s) with
        barns := (b.clusters.foldl (fun u cl => clearCluster cl u) s).barns.map (fun k => if k.q = q ∧ k.seq = j then { k with st := .complete } else k) }))) ∧
    (∀ (n : Nat) (b : Barn) (t : Batch), s.barns.find? (fun a => a.q == q && a.seq == (qOf s q).reported && a.st == .complete) = some b →
      batchAt s q (qOf s q).reported = some t → rpDirty s b.die = false → rpBusy s b.die = false → (dieOf s b.die).rpStores = [] →
      b.seq + 1 ≠ t.seq0 + t.nbarn →
      reportBarns q (n + 1) s = reportBarns q n (modQ q (fun y => { y with reported := y.reported + 1 })
        (hubChange q t.cw.toNat (arriveWord none) { s with barns := s.barns.erase b }))) ∧
    (∀ n, requested s n false false = true → exec (.preemptBatch n) s = .next (batchBoundary (stopTenant n s)) ∧ n ∈ (batchBoundary (stopTenant n s)).stopped) ∧
    (∀ (n : Nat) (u : State), requested s n true false = true →
      (forceTenant n none s = (u, true) → exec (.preemptForce n) s = .next { u with preempt := wd (bits u.preempt.toNat 7 0) }) ∧
      (forceTenant n none s = (u, false) → exec (.preemptForce n) s = .next u ∧ n ∈ u.stopped)) ∧
    (∀ n, requested s n false true = true →
      (∀ u, resumeTenant n s = some u → exec (.preemptResume n) s = .next { u with preempt := wd (bits u.preempt.toNat 7 0) }) ∧
      (resumeTenant n s = none → exec (.preemptResume n) s = .next s)) ∧
    (isHung s q = true → ∃ t, exec (.hangDetect q) s = .next t ∧ (qOf t q).ctl.getLsbD 60 = true ∧ (qOf t q).irq = (qOf s q).irq + 1 ∧
      ∀ b ∈ s.barns, b.st = .resident → b.q = q → (∀ a ∈ s.barns, a.st = .resident → a.q = q → a = b ∨ b.seq < a.seq) →
        (coreOf t (8 * b.clusters.headD 0)).hangPend = some (qOf s q).dump)

/-- Register writes, keys, clocks, bring-up and the host reach the state their rules name. Rests on 02 R29, 02 R44, 02
R46, 03 R49, 04 R78, 04 R84, 15 R367, 17 R404, 20 R463, 21 R469, 21 R473, 22 R484. -/
def Obligations.registers_power_and_bring_up_events : Prop :=
  ∀ (s : State) (c cl d k : Nat) (v : Word),
    (k < 256 → ∃ t, exec (.paddockWrite k v) s = .next t ∧ ∀ j < 64, (AList.get 0 t.paddocks k).getLsbD j =
      if bits v.toNat 15 13 + bits v.toNat 12 10 ≤ 7 ∧ bits v.toNat 9 6 + bits v.toNat 5 2 ≤ 15 ∧ hasBarn s k = false ∧
          (∀ e ∈ s.paddocks, e.1 ≠ k → e.2.getLsbD 63 = true → rectsMeet e.2.toNat v.toNat = false)
      then (if j = 63 ∨ 2 ≤ j ∧ j < 16 then v.getLsbD j else (AList.get 0 s.paddocks k).getLsbD j && !(j == 62 && v.getLsbD j))
      else (j == 62 || (AList.get 0 s.paddocks k).getLsbD j)) ∧
    (cl < 128 → d < 64 → isLive s (clDie cl) = true →
      (v.getLsbD 63 = false ∨ (((clusterOf s cl).bars.get {} d).word.getLsbD 63 = false ∧
          bits v.toNat 62 48 + bits v.toNat 47 33 * bits v.toNat 32 18 ≤ 32767 ∧ (bits v.toNat 32 18 ≠ 0 ∨ bits v.toNat 47 33 = 0)) →
        ∃ t, exec (.barrierDescriptorWrite cl d v) s = .next t ∧ (clusterOf t cl).bars.get {} d = { word := v &&& 0xFFFFFFFFFFFFFC00, parts := [] }) ∧
      (v.getLsbD 63 = true → ((clusterOf s cl).bars.get {} d).word.getLsbD 63 = true →
        ∃ t, exec (.barrierDescriptorWrite cl d v) s = .next t ∧ (clusterOf t cl).bars = (clusterOf s cl).bars)) ∧
    (c < 1024 → ∃ t, exec (.vmrootWrite c v) s = .next t ∧ OnlyCore c s t ∧
      (coreOf t c).vmroot = ((coreOf s c).vmroot &&& ~~~0xFF0FFFFFFFFFF001) ||| (v &&& 0xFF0FFFFFFFFFF001)) ∧
    (c < 1024 → 4 ≤ v.toNat % 16 → v.toNat % 16 ≤ 8 → v.toNat % 16 ≠ (coreOf s c).spcfg.toNat % 16 → splitRefused (coreOf s c) (v.toNat % 16) = false →
      ∃ t, exec (.spcfgWrite c v) s = .next t ∧ OnlyCore c s t ∧ (coreOf t c).spcfg.getLsbD 63 = true ∧ (coreOf t c).spNew = v.toNat % 16 ∧
        (coreOf t c).spcfg.toNat % 16 = (coreOf s c).spcfg.toNat % 16) ∧
    (c < 1024 → (v.toNat % 16 < 4 ∨ 8 < v.toNat % 16 ∨ (v.toNat % 16 ≠ (coreOf s c).spcfg.toNat % 16 ∧ splitRefused (coreOf s c) (v.toNat % 16) = true)) →
      ∃ t, exec (.spcfgWrite c v) s = .next t ∧ OnlyCore c s t ∧ (coreOf t c).spcfg = (coreOf s c).spcfg ||| 0x4000000000000000) ∧
    (c < 1024 → ∃ t, exec (.migcfgFlush c) s = .next t ∧ OnlyCore c s t ∧ (coreOf t c).pred = []) ∧
    (d < 8 → (dieOf s d).l2cfg.getLsbD 63 = true → exec (.l2cfgWrite d v) s = .next s) ∧
    (d < 8 → (dieOf s d).l2cfg.getLsbD 63 = false → bits v.toNat 13 8 ≤ 32 → bits v.toNat 5 0 ≤ 32 →
      (bits v.toNat 13 8 ≠ bits (dieOf s d).l2cfg.toNat 13 8 ∨ bits v.toNat 5 0 ≠ bits (dieOf s d).l2cfg.toNat 5 0) →
      ∃ t, exec (.l2cfgWrite d v) s = .next t ∧ (dieOf t d).l2cfg = wd (2 ^ 63 + bits v.toNat 13 8 * 256 + bits v.toNat 5 0) ∧ (dieOf t d).rp = []) ∧
    (∀ (i : Instr) (op : Nat), i = .keycmdNone v ∧ op = 0 ∨ i = .keycmdLoad v ∧ op = 1 ∨ i = .keycmdErase v ∧ op = 2 → v.toNat % 8 = op →
      (s.keycmd.getLsbD 63 = false → ∃ t, exec i s = .next t ∧ bits t.keycmd.toNat 15 8 = bits v.toNat 15 8 ∧
        t.keycmd.getLsbD 63 = decide (op ≠ 0) ∧ t.keycmd.getLsbD 62 = (s.keycmd.getLsbD 62 && !(v.getLsbD 62)) ∧ (op ≠ 0 → t.keyOp = op + 8 * bits v.toNat 15 8)) ∧
      (s.keycmd.getLsbD 63 = true → ∃ t, exec i s = .next t ∧ bits t.keycmd.toNat 15 8 = bits v.toNat 15 8 ∧ t.keyOp = s.keyOp ∧
        (op ≠ 0 → t.keycmd.getLsbD 62 = true))) ∧
    (s.keycmd.getLsbD 63 = true → ∃ t, exec .keyCommandComplete s = .next t ∧ t.keycmd.getLsbD 63 = false ∧
      (AList.find? t.keys (s.keyOp / 8) = if s.keyOp % 8 = 1 then some (keyPair s) else none) ∧ (s.keyOp % 8 = 1 → t.keydata = [])) ∧
    (hubQuiet s = false → exec (.ivsetWrite v) s = .next s ∧ exec (.pvsetWrite v) s = .next s ∧ exec (.ygsetWrite v) s = .next s ∧
      exec (.hdmcfgWrite v) s = .next s) ∧
    (hubQuiet s = true →
      (v.toNat % 128 ≤ 64 → v.toNat % 128 + ppsize s ≤ 128 → bits s.hdmcfg.toNat 8 0 ≤ s.live.length * (v.toNat % 128) → ∃ t, exec (.ivsetWrite v) s = .next t ∧
        (ipsize s = v.toNat % 128 → t = s) ∧ (ipsize s ≠ v.toNat % 128 → t.ivset = wd (v.toNat % 128))) ∧
      (bits v.toNat 23 16 ≤ 128 → bits v.toNat 23 16 % 4 = 0 → bits v.toNat 10 8 ≤ 5 → v.toNat % 64 ≤ 48 → v.toNat % 64 % 3 = 0 →
        v.toNat % 64 + ipsize s ≤ 128 → ∃ t, exec (.pvsetWrite v) s = .next t ∧ t.pvset = v &&& 0xFF073F) ∧
      (∃ t, exec (.ygsetWrite v) s = .next t ∧ t.ygset = v &&& 0xFF00FFFFFFFFFFFF) ∧
      (v.toNat % 512 ≤ 256 → v.toNat % 512 ≤ s.live.length * ipsize s → exec (.hdmcfgWrite v) s = .next { s with hdmcfg := wd (v.toNat % 512) })) ∧
    (v.toNat % 1024 = c → v.getLsbD 63 = true → isLive s (dOf c) = true → AList.find? s.dead (dOf c) = none →
      ((coreOf s c).run = .halted ∨ (coreOf s c).run = .stopped) → exec (.dbgresumeGo v) s = .next (setRun c .running s)) ∧
    (∀ host, exec (.registerWrite host d k v) s = .next (if writeFits host d k then mmioStore d k v.toNat s else s)) ∧
    (s.spFail.length ≠ 2 → ∃ t, exec .lifetimeUpdate s = .next t ∧ t.ceRing = [] ∧ ∀ r < 2 ^ 31, AList.get 0 s.lifetime.ce r < 2 ^ 32 →
      AList.get 0 t.lifetime.ce r = min (AList.get 0 s.lifetime.ce r + (s.ceRing.filter (fun e => bits e.2.toNat 63 33 == r)).length) (2 ^ 32 - 1)) ∧
    (∃ t, exec .ckptIntervalUpdate s = .next t ∧ bits t.ckptcfg.toNat 23 12 = bits s.ckptcfg.toNat 23 12 ∧
      (∀ m, m = bits t.ckptcfg.toNat 43 24 →
        (s.lifetime.escalations = 0 → m = 0) ∧ (0 < s.lifetime.escalations → m = min (2 ^ 20 - 1) (s.time / 60000000000 / s.lifetime.escalations)) ∧
        (∀ e, e = bits t.ckptcfg.toNat 11 0 → (bits s.ckptcfg.toNat 23 12 = 0 ∨ m = 0 → e = 0) ∧
          (0 < bits s.ckptcfg.toNat 23 12 → 0 < m → e = max 1 (min 4095 (Nat.sqrt (120 * bits s.ckptcfg.toNat 23 12 * m) / 60)))))) ∧
    (d < 8 → overLimit s d = true → stepDue s d = true → 1200 < (dieOf s d).mhz → ∃ t, exec (.powerCapStep d) s = .next t ∧
      dieOf t d = { dieOf s d with mhz := max 1200 ((dieOf s d).mhz - 100), stepAt := some s.time }) ∧
    (d < 8 → overLimit s d = false → stepDue s d = true → (dieOf s d).mhz < topClock s → ∃ t, exec (.clockStepUp d) s = .next t ∧
      dieOf t d = { dieOf s d with mhz := min (topClock s) ((dieOf s d).mhz + 100), stepAt := some s.time }) ∧
    ((s.flowLow = true ∨ ∃ x < 8, (dieOf s x).melt = true) → residentTenants s = [] → ∃ t, exec .thermalShutdown s = .next t ∧
      t.platstat.toNat % 4 = 0 ∧ t.hostIrq = s.hostIrq + 1 ∧ ∀ q < 64, (AList.find? s.queues q).isSome = true → (qOf t q).ctl.getLsbD 62 = true) ∧
    (∀ (ok : Bool) (i : Instr), i = .coldReset ok ∨ i = .fwMailboxLoad ok ∧ s.platstat.toNat % 4 = 3 → ∃ t, exec i s = .next t ∧
      t.platstat = (if ok then 1 else 0x203) ∧ (∀ x ∈ t.live, x = 0) ∧ (0 ∉ s.harvested → t.live = [0]) ∧ (∀ x, coreOf t x = {}) ∧
      t.mem = s.mem ∧ t.lifetime = s.lifetime ∧ t.queues = [] ∧ t.barns = []) ∧
    (c < 1024 → ∃ t, exec (.coreReset c) s = .next t ∧ (coreOf t c).run = .idle ∧ (coreOf t c).haveTask = false ∧
      (∀ r, getX r (coreOf t c) = 0) ∧ isSup (coreOf t c) = true) ∧
    (exec .linkTrainingDone s = .next { s with platstat := s.platstat ||| 0x80 } ∧ exec .hbmTrainingDone s = .next { s with platstat := s.platstat ||| 0x40 } ∧
      exec .dieSelfTestDone s = .next { s with platstat := s.platstat ||| 0x100 }) ∧
    (s.platstat.toNat % 4 = 1 → bits s.platstat.toNat 8 6 = 7 → (∀ b ∈ s.barns, b.st ≠ .resident) → ∃ t, exec .enterFullService s = .next t ∧
      t.platstat.toNat % 4 = 2 ∧ t.live = liveDies t ∧ t.pl = t.live.length ∧ ∀ x ∈ t.live, (dieOf t x).mhz = 2100) ∧
    (∀ (wr : Bool) (addr n : Nat), 1 ≤ n → n ≤ 8 → addr % 128 + n ≤ 128 → addr + n ≤ bits s.hdmcfg.toNat 8 0 * 2 ^ 30 →
      (s.platstat.toNat % 4 = 1 ∨ s.platstat.toNat % 4 = 2) → populated s 1 (ilBase + addr + n - 1) = true →
      exec (.hostMemoryAccess wr addr n v) s = .next (if wr
        then breakResv none ((ilBase + addr) / 128) (writeLine 1 ((ilBase + addr) / 128) (gen0 s)
          (lineBytes (ilBase + addr) ((ilBase + addr) / 128) (bytesOf 0 v.toNat n)) (recallLine ((ilBase + addr) / 128) s))
        else touchLine 1 ((ilBase + addr) / 128 * 128) (recallLine ((ilBase + addr) / 128) s))) ∧
    (∀ off n, ∃ t, exec (.hostSnoop k true off n v) s = .next t ∧ (∀ l ∈ t.hlc, l.line ≠ k) ∧ (n = 0 → t.hostMem = s.hostMem)) ∧
    (∀ off n, ∃ t, exec (.hostSnoop k false off n v) s = .next t ∧ (∀ l ∈ t.hlc, l.line = k → l.dirty = false) ∧ t.hostMem = s.hostMem)

/-- Cold reset gives every register the value its field table states, and the memories are canonical. Rests on 18 R413, 03
R48, 04 R78, 13 R289, 22 R474, 22 R480, 04 R84, 19 R445, 19 R441, 20 R459, 17 R410, 05 R106. -/
def Obligations.reset_holds_the_stated_values : Prop :=
  MemoriesOk State.reset ∧
  (∀ c, (coreOf State.reset c).status = 1 ∧ isSup (coreOf State.reset c) = true ∧ (coreOf State.reset c).cause = 0 ∧ (coreOf State.reset c).epc = 0 ∧
    (coreOf State.reset c).tval = 0 ∧ (coreOf State.reset c).tvec = 0 ∧ (coreOf State.reset c).sscratch = 0 ∧ (coreOf State.reset c).law0 = 0 ∧
    (coreOf State.reset c).law1 = 0 ∧ (coreOf State.reset c).law2 = 0 ∧ (coreOf State.reset c).law3 = 0 ∧ (coreOf State.reset c).dbgctl = 0 ∧
    (coreOf State.reset c).vmroot = 0 ∧ (coreOf State.reset c).spcfg = 4 ∧ (coreOf State.reset c).migcfg = 1 ∧ (coreOf State.reset c).rqspill = 0 ∧
    (coreOf State.reset c).trec = 0 ∧ (coreOf State.reset c).fcsr = 0 ∧ (coreOf State.reset c).tshape = 0x3F ∧ (coreOf State.reset c).rngkey = 0 ∧
    (coreOf State.reset c).rngcnt = 0 ∧ (coreOf State.reset c).trcbase = 0 ∧ (coreOf State.reset c).trcctl = 0 ∧ (coreOf State.reset c).trchead = 0 ∧
    (coreOf State.reset c).trcread = 0 ∧ (∀ k, (coreOf State.reset c).cnt.get 0 k = 0 ∧ (coreOf State.reset c).evsel.get 0 k = 0) ∧
    (∀ off, byteOf State.reset (.pad c off) = 0) ∧ (coreOf State.reset c).full = [] ∧ (coreOf State.reset c).owner = [] ∧
    (∀ k, AList.get [] (coreOf State.reset c).links k = [] ∧ (coreOf State.reset c).ports.get {} k = {}) ∧ (coreOf State.reset c).trapQ = []) ∧
  (∀ d, (dieOf State.reset d).cyc = 0 ∧ (dieOf State.reset d).ilbase = 0 ∧ (dieOf State.reset d).ilhead = 0 ∧ (dieOf State.reset d).ildone = 0 ∧
    bits (dieOf State.reset d).l2cfg.toNat 5 0 = 16 ∧ bits (dieOf State.reset d).l2cfg.toNat 13 8 = 16 ∧ (dieOf State.reset d).l2cfg.getLsbD 63 = false) ∧
  (∀ cl, (clusterOf State.reset cl).nodes = [] ∧ (∀ k, (clusterOf State.reset cl).hcount.get 0 k = 0 ∧ (clusterOf State.reset cl).latch.get 0 k = 0 ∧
      ((clusterOf State.reset cl).bars.get {} k).word = 0) ∧ (clusterOf State.reset cl).outr = 0 ∧ (clusterOf State.reset cl).mapgen = 0 ∧
    ∀ d < 8, dieMapOf (clusterOf State.reset cl) d = wd (2 ^ 63 + 2 ^ 62 + d * 2 ^ 53 + d * 2 ^ 50)) ∧
  State.reset.time = 0 ∧ State.reset.ivset = 0 ∧ State.reset.pvset = 0 ∧ State.reset.ygset = 0 ∧ State.reset.hdmcfg = 0 ∧ State.reset.hbmcfg = 2048 ∧
  State.reset.platstat = 0 ∧ State.reset.ckptcfg = 0 ∧ State.reset.hangcfg = 10000 ∧ State.reset.wlthr = 4096 ∧ State.reset.relaycfg = 0x8000001000000000 ∧
  State.reset.votecfg.getLsbD 5 = true ∧ State.reset.preempt = 0 ∧ State.reset.bkphit = 0 ∧ State.reset.keycmd = 0 ∧
  (∀ k, AList.get 0 State.reset.keydata k = 0 ∧ (AList.find? State.reset.keys k).isSome = decide (k = 0) ∧ AList.get 0 State.reset.paddocks k = 0 ∧
    AList.get (0, 0) State.reset.bkps k = (0, 0) ∧ (qOf State.reset k).ctl = 0 ∧ (qOf State.reset k).head = 0 ∧ (qOf State.reset k).tail = 0 ∧
    (qOf State.reset k).base = 0 ∧ (qOf State.reset k).tvec = 0 ∧ (qOf State.reset k).dump = 0 ∧ AList.get 0 State.reset.wlstat k = 0) ∧
  State.reset.doms = [] ∧ ∀ p, (planeOf State.reset p).cfg = 0x3F4001FFFF ∧ ∀ k, (planeOf State.reset p).cal.get 0 k = 0

/-- Every step keeps every memory in its canonical form. Rests on 00 R3, 02 R22, 03 R47, 04 R85, 15 R361, 17 R407, 17
R408, 20 R460. -/
def Obligations.every_step_keeps_the_memories_canonical : Prop :=
  ∀ s t : State, MemoriesOk s → step s = .next t → MemoriesOk t

end
end

