-- ==== Sys2Proof/Laws/State.lean ====
section
/-!
SUPPORT. What the updates of State leave in each field, and reading a finite map after writing it.
-/

namespace Sys2Proof.Laws

open Sys2Proof Sys2Proof.Machine

set_option linter.all false

/-! Finite maps. -/

@[simp] theorem get_put_same {α : Type} (d x : α) (i : Nat) (m : AList α) : AList.get d (AList.put i x m) i = x := by
  induction m with
  | nil => simp [AList.put, AList.get]
  | cons e m ih =>
    obtain ⟨k, v⟩ := e
    simp only [AList.put]
    split
    · simp [AList.get]
    · split
      · simp [AList.get]
      · rename_i _ h; simp [AList.get, h, ih]

theorem get_put_other {α : Type} (d x : α) (i j : Nat) (m : AList α) (h : i ≠ j) :
    AList.get d (AList.put i x m) j = AList.get d m j := by
  induction m with
  | nil => simp [AList.put, AList.get, h]
  | cons e m ih =>
    obtain ⟨k, v⟩ := e
    simp only [AList.put]
    split
    · simp [AList.get, h]
    · split
      · rename_i _ hk; subst hk; simp [AList.get, h]
      · simp [AList.get, ih]

@[simp] theorem put_put {α : Type} (x y : α) (i : Nat) (m : AList α) : AList.put i x (AList.put i y m) = AList.put i x m := by
  induction m with
  | nil => simp [AList.put]
  | cons e m ih =>
    obtain ⟨k, v⟩ := e
    simp only [AList.put]
    split
    · simp [AList.put]
    · split
      · simp [AList.put]
      · rename_i h1 h2; simp [AList.put, h1, h2, ih]

/-! Cores, clusters and dies. -/

@[simp] theorem coreOf_setCore (c : Nat) (x : CoreSt) (s : State) : coreOf (setCore c x s) c = x := get_put_same _ _ _ _
theorem coreOf_setCore_other (c k : Nat) (x : CoreSt) (s : State) (h : c ≠ k) : coreOf (setCore c x s) k = coreOf s k :=
  get_put_other _ _ _ _ _ h
@[simp] theorem coreOf_modCore (c : Nat) (f : CoreSt → CoreSt) (s : State) : coreOf (modCore c f s) c = f (coreOf s c) := get_put_same _ _ _ _
theorem coreOf_modCore_other (c k : Nat) (f : CoreSt → CoreSt) (s : State) (h : c ≠ k) : coreOf (modCore c f s) k = coreOf s k :=
  get_put_other _ _ _ _ _ h
@[simp] theorem setCore_setCore (c : Nat) (x y : CoreSt) (s : State) : setCore c x (setCore c y s) = setCore c x s := by
  simp [setCore]
@[simp] theorem modCore_setCore (c : Nat) (f : CoreSt → CoreSt) (y : CoreSt) (s : State) : modCore c f (setCore c y s) = setCore c (f y) s := by
  simp [modCore]
@[simp] theorem modCore_modCore (c : Nat) (f g : CoreSt → CoreSt) (s : State) : modCore c f (modCore c g s) = modCore c (fun x => f (g x)) s := by
  simp [modCore]

@[simp] theorem clusterOf_setCluster (c : Nat) (x : ClusterSt) (s : State) : clusterOf (setCluster c x s) c = x := get_put_same _ _ _ _
theorem clusterOf_setCluster_other (c k : Nat) (x : ClusterSt) (s : State) (h : c ≠ k) : clusterOf (setCluster c x s) k = clusterOf s k :=
  get_put_other _ _ _ _ _ h
@[simp] theorem clusterOf_modCluster (c : Nat) (f : ClusterSt → ClusterSt) (s : State) : clusterOf (modCluster c f s) c = f (clusterOf s c) := get_put_same _ _ _ _
theorem clusterOf_modCluster_other (c k : Nat) (f : ClusterSt → ClusterSt) (s : State) (h : c ≠ k) : clusterOf (modCluster c f s) k = clusterOf s k :=
  get_put_other _ _ _ _ _ h
@[simp] theorem setCluster_setCluster (c : Nat) (x y : ClusterSt) (s : State) : setCluster c x (setCluster c y s) = setCluster c x s := by
  simp [setCluster]
@[simp] theorem modCluster_setCluster (c : Nat) (f : ClusterSt → ClusterSt) (y : ClusterSt) (s : State) : modCluster c f (setCluster c y s) = setCluster c (f y) s := by
  simp [modCluster]
@[simp] theorem modCluster_modCluster (c : Nat) (f g : ClusterSt → ClusterSt) (s : State) : modCluster c f (modCluster c g s) = modCluster c (fun x => f (g x)) s := by
  simp [modCluster]

@[simp] theorem dieOf_setDie (c : Nat) (x : DieSt) (s : State) : dieOf (setDie c x s) c = x := get_put_same _ _ _ _
theorem dieOf_setDie_other (c k : Nat) (x : DieSt) (s : State) (h : c ≠ k) : dieOf (setDie c x s) k = dieOf s k :=
  get_put_other _ _ _ _ _ h
@[simp] theorem dieOf_modDie (c : Nat) (f : DieSt → DieSt) (s : State) : dieOf (modDie c f s) c = f (dieOf s c) := get_put_same _ _ _ _
theorem dieOf_modDie_other (c k : Nat) (f : DieSt → DieSt) (s : State) (h : c ≠ k) : dieOf (modDie c f s) k = dieOf s k :=
  get_put_other _ _ _ _ _ h
@[simp] theorem setDie_setDie (c : Nat) (x y : DieSt) (s : State) : setDie c x (setDie c y s) = setDie c x s := by
  simp [setDie]
@[simp] theorem modDie_setDie (c : Nat) (f : DieSt → DieSt) (y : DieSt) (s : State) : modDie c f (setDie c y s) = setDie c (f y) s := by
  simp [modDie]
@[simp] theorem modDie_modDie (c : Nat) (f g : DieSt → DieSt) (s : State) : modDie c f (modDie c g s) = modDie c (fun x => f (g x)) s := by
  simp [modDie]

@[simp] theorem clusterOf_setCore (c k : Nat) (x : CoreSt) (s : State) : clusterOf (setCore c x s) k = clusterOf s k := rfl
@[simp] theorem clusterOf_modCore (c k : Nat) (f : CoreSt → CoreSt) (s : State) : clusterOf (modCore c f s) k = clusterOf s k := rfl
@[simp] theorem dieOf_setCore (c k : Nat) (x : CoreSt) (s : State) : dieOf (setCore c x s) k = dieOf s k := rfl
@[simp] theorem dieOf_modCore (c k : Nat) (f : CoreSt → CoreSt) (s : State) : dieOf (modCore c f s) k = dieOf s k := rfl
@[simp] theorem setCore_sched (c : Nat) (x : CoreSt) (s : State) : (setCore c x s).sched = s.sched := rfl
@[simp] theorem modCore_sched (c : Nat) (f : CoreSt → CoreSt) (s : State) : (modCore c f s).sched = s.sched := rfl
@[simp] theorem setCore_cur (c : Nat) (x : CoreSt) (s : State) : (setCore c x s).cur = s.cur := rfl
@[simp] theorem modCore_cur (c : Nat) (f : CoreSt → CoreSt) (s : State) : (modCore c f s).cur = s.cur := rfl
@[simp] theorem setCore_curNode (c : Nat) (x : CoreSt) (s : State) : (setCore c x s).curNode = s.curNode := rfl
@[simp] theorem modCore_curNode (c : Nat) (f : CoreSt → CoreSt) (s : State) : (modCore c f s).curNode = s.curNode := rfl
@[simp] theorem setCore_free (c : Nat) (x : CoreSt) (s : State) : (setCore c x s).free = s.free := rfl
@[simp] theorem modCore_free (c : Nat) (f : CoreSt → CoreSt) (s : State) : (modCore c f s).free = s.free := rfl
@[simp] theorem setCore_time (c : Nat) (x : CoreSt) (s : State) : (setCore c x s).time = s.time := rfl
@[simp] theorem modCore_time (c : Nat) (f : CoreSt → CoreSt) (s : State) : (modCore c f s).time = s.time := rfl
@[simp] theorem setCore_clusters (c : Nat) (x : CoreSt) (s : State) : (setCore c x s).clusters = s.clusters := rfl
@[simp] theorem modCore_clusters (c : Nat) (f : CoreSt → CoreSt) (s : State) : (modCore c f s).clusters = s.clusters := rfl
@[simp] theorem setCore_dies (c : Nat) (x : CoreSt) (s : State) : (setCore c x s).dies = s.dies := rfl
@[simp] theorem modCore_dies (c : Nat) (f : CoreSt → CoreSt) (s : State) : (modCore c f s).dies = s.dies := rfl
@[simp] theorem setCore_mem (c : Nat) (x : CoreSt) (s : State) : (setCore c x s).mem = s.mem := rfl
@[simp] theorem modCore_mem (c : Nat) (f : CoreSt → CoreSt) (s : State) : (modCore c f s).mem = s.mem := rfl
@[simp] theorem setCore_lineKey (c : Nat) (x : CoreSt) (s : State) : (setCore c x s).lineKey = s.lineKey := rfl
@[simp] theorem modCore_lineKey (c : Nat) (f : CoreSt → CoreSt) (s : State) : (modCore c f s).lineKey = s.lineKey := rfl
@[simp] theorem setCore_poison (c : Nat) (x : CoreSt) (s : State) : (setCore c x s).poison = s.poison := rfl
@[simp] theorem modCore_poison (c : Nat) (f : CoreSt → CoreSt) (s : State) : (modCore c f s).poison = s.poison := rfl
@[simp] theorem setCore_hostMem (c : Nat) (x : CoreSt) (s : State) : (setCore c x s).hostMem = s.hostMem := rfl
@[simp] theorem modCore_hostMem (c : Nat) (f : CoreSt → CoreSt) (s : State) : (modCore c f s).hostMem = s.hostMem := rfl
@[simp] theorem setCore_hlc (c : Nat) (x : CoreSt) (s : State) : (setCore c x s).hlc = s.hlc := rfl
@[simp] theorem modCore_hlc (c : Nat) (f : CoreSt → CoreSt) (s : State) : (modCore c f s).hlc = s.hlc := rfl
@[simp] theorem setCore_remMem (c : Nat) (x : CoreSt) (s : State) : (setCore c x s).remMem = s.remMem := rfl
@[simp] theorem modCore_remMem (c : Nat) (f : CoreSt → CoreSt) (s : State) : (modCore c f s).remMem = s.remMem := rfl
@[simp] theorem setCore_remBad (c : Nat) (x : CoreSt) (s : State) : (setCore c x s).remBad = s.remBad := rfl
@[simp] theorem modCore_remBad (c : Nat) (f : CoreSt → CoreSt) (s : State) : (modCore c f s).remBad = s.remBad := rfl
@[simp] theorem setCore_ivset (c : Nat) (x : CoreSt) (s : State) : (setCore c x s).ivset = s.ivset := rfl
@[simp] theorem modCore_ivset (c : Nat) (f : CoreSt → CoreSt) (s : State) : (modCore c f s).ivset = s.ivset := rfl
@[simp] theorem setCore_pvset (c : Nat) (x : CoreSt) (s : State) : (setCore c x s).pvset = s.pvset := rfl
@[simp] theorem modCore_pvset (c : Nat) (f : CoreSt → CoreSt) (s : State) : (modCore c f s).pvset = s.pvset := rfl
@[simp] theorem setCore_ygset (c : Nat) (x : CoreSt) (s : State) : (setCore c x s).ygset = s.ygset := rfl
@[simp] theorem modCore_ygset (c : Nat) (f : CoreSt → CoreSt) (s : State) : (modCore c f s).ygset = s.ygset := rfl
@[simp] theorem setCore_hdmcfg (c : Nat) (x : CoreSt) (s : State) : (setCore c x s).hdmcfg = s.hdmcfg := rfl
@[simp] theorem modCore_hdmcfg (c : Nat) (f : CoreSt → CoreSt) (s : State) : (modCore c f s).hdmcfg = s.hdmcfg := rfl
@[simp] theorem setCore_plive (c : Nat) (x : CoreSt) (s : State) : (setCore c x s).plive = s.plive := rfl
@[simp] theorem modCore_plive (c : Nat) (f : CoreSt → CoreSt) (s : State) : (modCore c f s).plive = s.plive := rfl
@[simp] theorem setCore_pl (c : Nat) (x : CoreSt) (s : State) : (setCore c x s).pl = s.pl := rfl
@[simp] theorem modCore_pl (c : Nat) (f : CoreSt → CoreSt) (s : State) : (modCore c f s).pl = s.pl := rfl
@[simp] theorem setCore_hbmcfg (c : Nat) (x : CoreSt) (s : State) : (setCore c x s).hbmcfg = s.hbmcfg := rfl
@[simp] theorem modCore_hbmcfg (c : Nat) (f : CoreSt → CoreSt) (s : State) : (modCore c f s).hbmcfg = s.hbmcfg := rfl
@[simp] theorem setCore_hbmNext (c : Nat) (x : CoreSt) (s : State) : (setCore c x s).hbmNext = s.hbmNext := rfl
@[simp] theorem modCore_hbmNext (c : Nat) (f : CoreSt → CoreSt) (s : State) : (modCore c f s).hbmNext = s.hbmNext := rfl
@[simp] theorem setCore_ceRing (c : Nat) (x : CoreSt) (s : State) : (setCore c x s).ceRing = s.ceRing := rfl
@[simp] theorem modCore_ceRing (c : Nat) (f : CoreSt → CoreSt) (s : State) : (modCore c f s).ceRing = s.ceRing := rfl
@[simp] theorem setCore_platstat (c : Nat) (x : CoreSt) (s : State) : (setCore c x s).platstat = s.platstat := rfl
@[simp] theorem modCore_platstat (c : Nat) (f : CoreSt → CoreSt) (s : State) : (modCore c f s).platstat = s.platstat := rfl
@[simp] theorem setCore_live (c : Nat) (x : CoreSt) (s : State) : (setCore c x s).live = s.live := rfl
@[simp] theorem modCore_live (c : Nat) (f : CoreSt → CoreSt) (s : State) : (modCore c f s).live = s.live := rfl
@[simp] theorem setCore_votecfg (c : Nat) (x : CoreSt) (s : State) : (setCore c x s).votecfg = s.votecfg := rfl
@[simp] theorem modCore_votecfg (c : Nat) (f : CoreSt → CoreSt) (s : State) : (modCore c f s).votecfg = s.votecfg := rfl
@[simp] theorem setCore_ckptcfg (c : Nat) (x : CoreSt) (s : State) : (setCore c x s).ckptcfg = s.ckptcfg := rfl
@[simp] theorem modCore_ckptcfg (c : Nat) (f : CoreSt → CoreSt) (s : State) : (modCore c f s).ckptcfg = s.ckptcfg := rfl
@[simp] theorem setCore_relaycfg (c : Nat) (x : CoreSt) (s : State) : (setCore c x s).relaycfg = s.relaycfg := rfl
@[simp] theorem modCore_relaycfg (c : Nat) (f : CoreSt → CoreSt) (s : State) : (modCore c f s).relaycfg = s.relaycfg := rfl
@[simp] theorem setCore_wlthr (c : Nat) (x : CoreSt) (s : State) : (setCore c x s).wlthr = s.wlthr := rfl
@[simp] theorem modCore_wlthr (c : Nat) (f : CoreSt → CoreSt) (s : State) : (modCore c f s).wlthr = s.wlthr := rfl
@[simp] theorem setCore_hangcfg (c : Nat) (x : CoreSt) (s : State) : (setCore c x s).hangcfg = s.hangcfg := rfl
@[simp] theorem modCore_hangcfg (c : Nat) (f : CoreSt → CoreSt) (s : State) : (modCore c f s).hangcfg = s.hangcfg := rfl
@[simp] theorem setCore_preempt (c : Nat) (x : CoreSt) (s : State) : (setCore c x s).preempt = s.preempt := rfl
@[simp] theorem modCore_preempt (c : Nat) (f : CoreSt → CoreSt) (s : State) : (modCore c f s).preempt = s.preempt := rfl
@[simp] theorem setCore_bkphit (c : Nat) (x : CoreSt) (s : State) : (setCore c x s).bkphit = s.bkphit := rfl
@[simp] theorem modCore_bkphit (c : Nat) (f : CoreSt → CoreSt) (s : State) : (modCore c f s).bkphit = s.bkphit := rfl
@[simp] theorem setCore_keydata (c : Nat) (x : CoreSt) (s : State) : (setCore c x s).keydata = s.keydata := rfl
@[simp] theorem modCore_keydata (c : Nat) (f : CoreSt → CoreSt) (s : State) : (modCore c f s).keydata = s.keydata := rfl
@[simp] theorem setCore_keycmd (c : Nat) (x : CoreSt) (s : State) : (setCore c x s).keycmd = s.keycmd := rfl
@[simp] theorem modCore_keycmd (c : Nat) (f : CoreSt → CoreSt) (s : State) : (modCore c f s).keycmd = s.keycmd := rfl
@[simp] theorem setCore_keyOp (c : Nat) (x : CoreSt) (s : State) : (setCore c x s).keyOp = s.keyOp := rfl
@[simp] theorem modCore_keyOp (c : Nat) (f : CoreSt → CoreSt) (s : State) : (modCore c f s).keyOp = s.keyOp := rfl
@[simp] theorem setCore_keys (c : Nat) (x : CoreSt) (s : State) : (setCore c x s).keys = s.keys := rfl
@[simp] theorem modCore_keys (c : Nat) (f : CoreSt → CoreSt) (s : State) : (modCore c f s).keys = s.keys := rfl
@[simp] theorem setCore_keyGen (c : Nat) (x : CoreSt) (s : State) : (setCore c x s).keyGen = s.keyGen := rfl
@[simp] theorem modCore_keyGen (c : Nat) (f : CoreSt → CoreSt) (s : State) : (modCore c f s).keyGen = s.keyGen := rfl
@[simp] theorem setCore_queues (c : Nat) (x : CoreSt) (s : State) : (setCore c x s).queues = s.queues := rfl
@[simp] theorem modCore_queues (c : Nat) (f : CoreSt → CoreSt) (s : State) : (modCore c f s).queues = s.queues := rfl
@[simp] theorem setCore_paddocks (c : Nat) (x : CoreSt) (s : State) : (setCore c x s).paddocks = s.paddocks := rfl
@[simp] theorem modCore_paddocks (c : Nat) (f : CoreSt → CoreSt) (s : State) : (modCore c f s).paddocks = s.paddocks := rfl
@[simp] theorem setCore_bkps (c : Nat) (x : CoreSt) (s : State) : (setCore c x s).bkps = s.bkps := rfl
@[simp] theorem modCore_bkps (c : Nat) (f : CoreSt → CoreSt) (s : State) : (modCore c f s).bkps = s.bkps := rfl
@[simp] theorem setCore_barns (c : Nat) (x : CoreSt) (s : State) : (setCore c x s).barns = s.barns := rfl
@[simp] theorem modCore_barns (c : Nat) (f : CoreSt → CoreSt) (s : State) : (modCore c f s).barns = s.barns := rfl
@[simp] theorem setCore_served (c : Nat) (x : CoreSt) (s : State) : (setCore c x s).served = s.served := rfl
@[simp] theorem modCore_served (c : Nat) (f : CoreSt → CoreSt) (s : State) : (modCore c f s).served = s.served := rfl
@[simp] theorem setCore_stopped (c : Nat) (x : CoreSt) (s : State) : (setCore c x s).stopped = s.stopped := rfl
@[simp] theorem modCore_stopped (c : Nat) (f : CoreSt → CoreSt) (s : State) : (modCore c f s).stopped = s.stopped := rfl
@[simp] theorem setCore_saves (c : Nat) (x : CoreSt) (s : State) : (setCore c x s).saves = s.saves := rfl
@[simp] theorem modCore_saves (c : Nat) (f : CoreSt → CoreSt) (s : State) : (modCore c f s).saves = s.saves := rfl
@[simp] theorem setCore_modtab (c : Nat) (x : CoreSt) (s : State) : (setCore c x s).modtab = s.modtab := rfl
@[simp] theorem modCore_modtab (c : Nat) (f : CoreSt → CoreSt) (s : State) : (modCore c f s).modtab = s.modtab := rfl
@[simp] theorem setCore_unloaded (c : Nat) (x : CoreSt) (s : State) : (setCore c x s).unloaded = s.unloaded := rfl
@[simp] theorem modCore_unloaded (c : Nat) (f : CoreSt → CoreSt) (s : State) : (modCore c f s).unloaded = s.unloaded := rfl
@[simp] theorem setCore_doms (c : Nat) (x : CoreSt) (s : State) : (setCore c x s).doms = s.doms := rfl
@[simp] theorem modCore_doms (c : Nat) (f : CoreSt → CoreSt) (s : State) : (modCore c f s).doms = s.doms := rfl
@[simp] theorem setCore_domNext (c : Nat) (x : CoreSt) (s : State) : (setCore c x s).domNext = s.domNext := rfl
@[simp] theorem modCore_domNext (c : Nat) (f : CoreSt → CoreSt) (s : State) : (modCore c f s).domNext = s.domNext := rfl
@[simp] theorem setCore_domTurn (c : Nat) (x : CoreSt) (s : State) : (setCore c x s).domTurn = s.domTurn := rfl
@[simp] theorem modCore_domTurn (c : Nat) (f : CoreSt → CoreSt) (s : State) : (modCore c f s).domTurn = s.domTurn := rfl
@[simp] theorem setCore_killed (c : Nat) (x : CoreSt) (s : State) : (setCore c x s).killed = s.killed := rfl
@[simp] theorem modCore_killed (c : Nat) (f : CoreSt → CoreSt) (s : State) : (modCore c f s).killed = s.killed := rfl
@[simp] theorem setCore_planes (c : Nat) (x : CoreSt) (s : State) : (setCore c x s).planes = s.planes := rfl
@[simp] theorem modCore_planes (c : Nat) (f : CoreSt → CoreSt) (s : State) : (modCore c f s).planes = s.planes := rfl
@[simp] theorem setCore_wlstat (c : Nat) (x : CoreSt) (s : State) : (setCore c x s).wlstat = s.wlstat := rfl
@[simp] theorem modCore_wlstat (c : Nat) (f : CoreSt → CoreSt) (s : State) : (modCore c f s).wlstat = s.wlstat := rfl
@[simp] theorem setCore_txns (c : Nat) (x : CoreSt) (s : State) : (setCore c x s).txns = s.txns := rfl
@[simp] theorem modCore_txns (c : Nat) (f : CoreSt → CoreSt) (s : State) : (modCore c f s).txns = s.txns := rfl
@[simp] theorem setCore_txnId (c : Nat) (x : CoreSt) (s : State) : (setCore c x s).txnId = s.txnId := rfl
@[simp] theorem modCore_txnId (c : Nat) (f : CoreSt → CoreSt) (s : State) : (modCore c f s).txnId = s.txnId := rfl
@[simp] theorem setCore_lastDie (c : Nat) (x : CoreSt) (s : State) : (setCore c x s).lastDie = s.lastDie := rfl
@[simp] theorem modCore_lastDie (c : Nat) (f : CoreSt → CoreSt) (s : State) : (modCore c f s).lastDie = s.lastDie := rfl
@[simp] theorem setCore_relayCredit (c : Nat) (x : CoreSt) (s : State) : (setCore c x s).relayCredit = s.relayCredit := rfl
@[simp] theorem modCore_relayCredit (c : Nat) (f : CoreSt → CoreSt) (s : State) : (modCore c f s).relayCredit = s.relayCredit := rfl
@[simp] theorem setCore_relayBuf (c : Nat) (x : CoreSt) (s : State) : (setCore c x s).relayBuf = s.relayBuf := rfl
@[simp] theorem modCore_relayBuf (c : Nat) (f : CoreSt → CoreSt) (s : State) : (modCore c f s).relayBuf = s.relayBuf := rfl
@[simp] theorem setCore_portsDown (c : Nat) (x : CoreSt) (s : State) : (setCore c x s).portsDown = s.portsDown := rfl
@[simp] theorem modCore_portsDown (c : Nat) (f : CoreSt → CoreSt) (s : State) : (modCore c f s).portsDown = s.portsDown := rfl
@[simp] theorem setCore_unreach (c : Nat) (x : CoreSt) (s : State) : (setCore c x s).unreach = s.unreach := rfl
@[simp] theorem modCore_unreach (c : Nat) (f : CoreSt → CoreSt) (s : State) : (modCore c f s).unreach = s.unreach := rfl
@[simp] theorem setCore_modIdx (c : Nat) (x : CoreSt) (s : State) : (setCore c x s).modIdx = s.modIdx := rfl
@[simp] theorem modCore_modIdx (c : Nat) (f : CoreSt → CoreSt) (s : State) : (modCore c f s).modIdx = s.modIdx := rfl
@[simp] theorem setCore_failed (c : Nat) (x : CoreSt) (s : State) : (setCore c x s).failed = s.failed := rfl
@[simp] theorem modCore_failed (c : Nat) (f : CoreSt → CoreSt) (s : State) : (modCore c f s).failed = s.failed := rfl
@[simp] theorem setCore_harvested (c : Nat) (x : CoreSt) (s : State) : (setCore c x s).harvested = s.harvested := rfl
@[simp] theorem modCore_harvested (c : Nat) (f : CoreSt → CoreSt) (s : State) : (modCore c f s).harvested = s.harvested := rfl
@[simp] theorem setCore_dead (c : Nat) (x : CoreSt) (s : State) : (setCore c x s).dead = s.dead := rfl
@[simp] theorem modCore_dead (c : Nat) (f : CoreSt → CoreSt) (s : State) : (modCore c f s).dead = s.dead := rfl
@[simp] theorem setCore_spFail (c : Nat) (x : CoreSt) (s : State) : (setCore c x s).spFail = s.spFail := rfl
@[simp] theorem modCore_spFail (c : Nat) (f : CoreSt → CoreSt) (s : State) : (modCore c f s).spFail = s.spFail := rfl
@[simp] theorem setCore_lifetime (c : Nat) (x : CoreSt) (s : State) : (setCore c x s).lifetime = s.lifetime := rfl
@[simp] theorem modCore_lifetime (c : Nat) (f : CoreSt → CoreSt) (s : State) : (modCore c f s).lifetime = s.lifetime := rfl
@[simp] theorem setCore_overPower (c : Nat) (x : CoreSt) (s : State) : (setCore c x s).overPower = s.overPower := rfl
@[simp] theorem modCore_overPower (c : Nat) (f : CoreSt → CoreSt) (s : State) : (modCore c f s).overPower = s.overPower := rfl
@[simp] theorem setCore_flowLow (c : Nat) (x : CoreSt) (s : State) : (setCore c x s).flowLow = s.flowLow := rfl
@[simp] theorem modCore_flowLow (c : Nat) (f : CoreSt → CoreSt) (s : State) : (modCore c f s).flowLow = s.flowLow := rfl
@[simp] theorem setCore_hostIrq (c : Nat) (x : CoreSt) (s : State) : (setCore c x s).hostIrq = s.hostIrq := rfl
@[simp] theorem modCore_hostIrq (c : Nat) (f : CoreSt → CoreSt) (s : State) : (modCore c f s).hostIrq = s.hostIrq := rfl
@[simp] theorem setCore_banks (c : Nat) (x : CoreSt) (s : State) : (setCore c x s).banks = s.banks := rfl
@[simp] theorem modCore_banks (c : Nat) (f : CoreSt → CoreSt) (s : State) : (modCore c f s).banks = s.banks := rfl
@[simp] theorem setCore_refWin (c : Nat) (x : CoreSt) (s : State) : (setCore c x s).refWin = s.refWin := rfl
@[simp] theorem modCore_refWin (c : Nat) (f : CoreSt → CoreSt) (s : State) : (modCore c f s).refWin = s.refWin := rfl
@[simp] theorem setCore_ceDay (c : Nat) (x : CoreSt) (s : State) : (setCore c x s).ceDay = s.ceDay := rfl
@[simp] theorem modCore_ceDay (c : Nat) (f : CoreSt → CoreSt) (s : State) : (modCore c f s).ceDay = s.ceDay := rfl
@[simp] theorem coreOf_setCluster (c k : Nat) (x : ClusterSt) (s : State) : coreOf (setCluster c x s) k = coreOf s k := rfl
@[simp] theorem coreOf_modCluster (c k : Nat) (f : ClusterSt → ClusterSt) (s : State) : coreOf (modCluster c f s) k = coreOf s k := rfl
@[simp] theorem dieOf_setCluster (c k : Nat) (x : ClusterSt) (s : State) : dieOf (setCluster c x s) k = dieOf s k := rfl
@[simp] theorem dieOf_modCluster (c k : Nat) (f : ClusterSt → ClusterSt) (s : State) : dieOf (modCluster c f s) k = dieOf s k := rfl
@[simp] theorem setCluster_sched (c : Nat) (x : ClusterSt) (s : State) : (setCluster c x s).sched = s.sched := rfl
@[simp] theorem modCluster_sched (c : Nat) (f : ClusterSt → ClusterSt) (s : State) : (modCluster c f s).sched = s.sched := rfl
@[simp] theorem setCluster_cur (c : Nat) (x : ClusterSt) (s : State) : (setCluster c x s).cur = s.cur := rfl
@[simp] theorem modCluster_cur (c : Nat) (f : ClusterSt → ClusterSt) (s : State) : (modCluster c f s).cur = s.cur := rfl
@[simp] theorem setCluster_curNode (c : Nat) (x : ClusterSt) (s : State) : (setCluster c x s).curNode = s.curNode := rfl
@[simp] theorem modCluster_curNode (c : Nat) (f : ClusterSt → ClusterSt) (s : State) : (modCluster c f s).curNode = s.curNode := rfl
@[simp] theorem setCluster_free (c : Nat) (x : ClusterSt) (s : State) : (setCluster c x s).free = s.free := rfl
@[simp] theorem modCluster_free (c : Nat) (f : ClusterSt → ClusterSt) (s : State) : (modCluster c f s).free = s.free := rfl
@[simp] theorem setCluster_time (c : Nat) (x : ClusterSt) (s : State) : (setCluster c x s).time = s.time := rfl
@[simp] theorem modCluster_time (c : Nat) (f : ClusterSt → ClusterSt) (s : State) : (modCluster c f s).time = s.time := rfl
@[simp] theorem setCluster_cores (c : Nat) (x : ClusterSt) (s : State) : (setCluster c x s).cores = s.cores := rfl
@[simp] theorem modCluster_cores (c : Nat) (f : ClusterSt → ClusterSt) (s : State) : (modCluster c f s).cores = s.cores := rfl
@[simp] theorem setCluster_dies (c : Nat) (x : ClusterSt) (s : State) : (setCluster c x s).dies = s.dies := rfl
@[simp] theorem modCluster_dies (c : Nat) (f : ClusterSt → ClusterSt) (s : State) : (modCluster c f s).dies = s.dies := rfl
@[simp] theorem setCluster_mem (c : Nat) (x : ClusterSt) (s : State) : (setCluster c x s).mem = s.mem := rfl
@[simp] theorem modCluster_mem (c : Nat) (f : ClusterSt → ClusterSt) (s : State) : (modCluster c f s).mem = s.mem := rfl
@[simp] theorem setCluster_lineKey (c : Nat) (x : ClusterSt) (s : State) : (setCluster c x s).lineKey = s.lineKey := rfl
@[simp] theorem modCluster_lineKey (c : Nat) (f : ClusterSt → ClusterSt) (s : State) : (modCluster c f s).lineKey = s.lineKey := rfl
@[simp] theorem setCluster_poison (c : Nat) (x : ClusterSt) (s : State) : (setCluster c x s).poison = s.poison := rfl
@[simp] theorem modCluster_poison (c : Nat) (f : ClusterSt → ClusterSt) (s : State) : (modCluster c f s).poison = s.poison := rfl
@[simp] theorem setCluster_hostMem (c : Nat) (x : ClusterSt) (s : State) : (setCluster c x s).hostMem = s.hostMem := rfl
@[simp] theorem modCluster_hostMem (c : Nat) (f : ClusterSt → ClusterSt) (s : State) : (modCluster c f s).hostMem = s.hostMem := rfl
@[simp] theorem setCluster_hlc (c : Nat) (x : ClusterSt) (s : State) : (setCluster c x s).hlc = s.hlc := rfl
@[simp] theorem modCluster_hlc (c : Nat) (f : ClusterSt → ClusterSt) (s : State) : (modCluster c f s).hlc = s.hlc := rfl
@[simp] theorem setCluster_remMem (c : Nat) (x : ClusterSt) (s : State) : (setCluster c x s).remMem = s.remMem := rfl
@[simp] theorem modCluster_remMem (c : Nat) (f : ClusterSt → ClusterSt) (s : State) : (modCluster c f s).remMem = s.remMem := rfl
@[simp] theorem setCluster_remBad (c : Nat) (x : ClusterSt) (s : State) : (setCluster c x s).remBad = s.remBad := rfl
@[simp] theorem modCluster_remBad (c : Nat) (f : ClusterSt → ClusterSt) (s : State) : (modCluster c f s).remBad = s.remBad := rfl
@[simp] theorem setCluster_ivset (c : Nat) (x : ClusterSt) (s : State) : (setCluster c x s).ivset = s.ivset := rfl
@[simp] theorem modCluster_ivset (c : Nat) (f : ClusterSt → ClusterSt) (s : State) : (modCluster c f s).ivset = s.ivset := rfl
@[simp] theorem setCluster_pvset (c : Nat) (x : ClusterSt) (s : State) : (setCluster c x s).pvset = s.pvset := rfl
@[simp] theorem modCluster_pvset (c : Nat) (f : ClusterSt → ClusterSt) (s : State) : (modCluster c f s).pvset = s.pvset := rfl
@[simp] theorem setCluster_ygset (c : Nat) (x : ClusterSt) (s : State) : (setCluster c x s).ygset = s.ygset := rfl
@[simp] theorem modCluster_ygset (c : Nat) (f : ClusterSt → ClusterSt) (s : State) : (modCluster c f s).ygset = s.ygset := rfl
@[simp] theorem setCluster_hdmcfg (c : Nat) (x : ClusterSt) (s : State) : (setCluster c x s).hdmcfg = s.hdmcfg := rfl
@[simp] theorem modCluster_hdmcfg (c : Nat) (f : ClusterSt → ClusterSt) (s : State) : (modCluster c f s).hdmcfg = s.hdmcfg := rfl
@[simp] theorem setCluster_plive (c : Nat) (x : ClusterSt) (s : State) : (setCluster c x s).plive = s.plive := rfl
@[simp] theorem modCluster_plive (c : Nat) (f : ClusterSt → ClusterSt) (s : State) : (modCluster c f s).plive = s.plive := rfl
@[simp] theorem setCluster_pl (c : Nat) (x : ClusterSt) (s : State) : (setCluster c x s).pl = s.pl := rfl
@[simp] theorem modCluster_pl (c : Nat) (f : ClusterSt → ClusterSt) (s : State) : (modCluster c f s).pl = s.pl := rfl
@[simp] theorem setCluster_hbmcfg (c : Nat) (x : ClusterSt) (s : State) : (setCluster c x s).hbmcfg = s.hbmcfg := rfl
@[simp] theorem modCluster_hbmcfg (c : Nat) (f : ClusterSt → ClusterSt) (s : State) : (modCluster c f s).hbmcfg = s.hbmcfg := rfl
@[simp] theorem setCluster_hbmNext (c : Nat) (x : ClusterSt) (s : State) : (setCluster c x s).hbmNext = s.hbmNext := rfl
@[simp] theorem modCluster_hbmNext (c : Nat) (f : ClusterSt → ClusterSt) (s : State) : (modCluster c f s).hbmNext = s.hbmNext := rfl
@[simp] theorem setCluster_ceRing (c : Nat) (x : ClusterSt) (s : State) : (setCluster c x s).ceRing = s.ceRing := rfl
@[simp] theorem modCluster_ceRing (c : Nat) (f : ClusterSt → ClusterSt) (s : State) : (modCluster c f s).ceRing = s.ceRing := rfl
@[simp] theorem setCluster_platstat (c : Nat) (x : ClusterSt) (s : State) : (setCluster c x s).platstat = s.platstat := rfl
@[simp] theorem modCluster_platstat (c : Nat) (f : ClusterSt → ClusterSt) (s : State) : (modCluster c f s).platstat = s.platstat := rfl
@[simp] theorem setCluster_live (c : Nat) (x : ClusterSt) (s : State) : (setCluster c x s).live = s.live := rfl
@[simp] theorem modCluster_live (c : Nat) (f : ClusterSt → ClusterSt) (s : State) : (modCluster c f s).live = s.live := rfl
@[simp] theorem setCluster_votecfg (c : Nat) (x : ClusterSt) (s : State) : (setCluster c x s).votecfg = s.votecfg := rfl
@[simp] theorem modCluster_votecfg (c : Nat) (f : ClusterSt → ClusterSt) (s : State) : (modCluster c f s).votecfg = s.votecfg := rfl
@[simp] theorem setCluster_ckptcfg (c : Nat) (x : ClusterSt) (s : State) : (setCluster c x s).ckptcfg = s.ckptcfg := rfl
@[simp] theorem modCluster_ckptcfg (c : Nat) (f : ClusterSt → ClusterSt) (s : State) : (modCluster c f s).ckptcfg = s.ckptcfg := rfl
@[simp] theorem setCluster_relaycfg (c : Nat) (x : ClusterSt) (s : State) : (setCluster c x s).relaycfg = s.relaycfg := rfl
@[simp] theorem modCluster_relaycfg (c : Nat) (f : ClusterSt → ClusterSt) (s : State) : (modCluster c f s).relaycfg = s.relaycfg := rfl
@[simp] theorem setCluster_wlthr (c : Nat) (x : ClusterSt) (s : State) : (setCluster c x s).wlthr = s.wlthr := rfl
@[simp] theorem modCluster_wlthr (c : Nat) (f : ClusterSt → ClusterSt) (s : State) : (modCluster c f s).wlthr = s.wlthr := rfl
@[simp] theorem setCluster_hangcfg (c : Nat) (x : ClusterSt) (s : State) : (setCluster c x s).hangcfg = s.hangcfg := rfl
@[simp] theorem modCluster_hangcfg (c : Nat) (f : ClusterSt → ClusterSt) (s : State) : (modCluster c f s).hangcfg = s.hangcfg := rfl
@[simp] theorem setCluster_preempt (c : Nat) (x : ClusterSt) (s : State) : (setCluster c x s).preempt = s.preempt := rfl
@[simp] theorem modCluster_preempt (c : Nat) (f : ClusterSt → ClusterSt) (s : State) : (modCluster c f s).preempt = s.preempt := rfl
@[simp] theorem setCluster_bkphit (c : Nat) (x : ClusterSt) (s : State) : (setCluster c x s).bkphit = s.bkphit := rfl
@[simp] theorem modCluster_bkphit (c : Nat) (f : ClusterSt → ClusterSt) (s : State) : (modCluster c f s).bkphit = s.bkphit := rfl
@[simp] theorem setCluster_keydata (c : Nat) (x : ClusterSt) (s : State) : (setCluster c x s).keydata = s.keydata := rfl
@[simp] theorem modCluster_keydata (c : Nat) (f : ClusterSt → ClusterSt) (s : State) : (modCluster c f s).keydata = s.keydata := rfl
@[simp] theorem setCluster_keycmd (c : Nat) (x : ClusterSt) (s : State) : (setCluster c x s).keycmd = s.keycmd := rfl
@[simp] theorem modCluster_keycmd (c : Nat) (f : ClusterSt → ClusterSt) (s : State) : (modCluster c f s).keycmd = s.keycmd := rfl
@[simp] theorem setCluster_keyOp (c : Nat) (x : ClusterSt) (s : State) : (setCluster c x s).keyOp = s.keyOp := rfl
@[simp] theorem modCluster_keyOp (c : Nat) (f : ClusterSt → ClusterSt) (s : State) : (modCluster c f s).keyOp = s.keyOp := rfl
@[simp] theorem setCluster_keys (c : Nat) (x : ClusterSt) (s : State) : (setCluster c x s).keys = s.keys := rfl
@[simp] theorem modCluster_keys (c : Nat) (f : ClusterSt → ClusterSt) (s : State) : (modCluster c f s).keys = s.keys := rfl
@[simp] theorem setCluster_keyGen (c : Nat) (x : ClusterSt) (s : State) : (setCluster c x s).keyGen = s.keyGen := rfl
@[simp] theorem modCluster_keyGen (c : Nat) (f : ClusterSt → ClusterSt) (s : State) : (modCluster c f s).keyGen = s.keyGen := rfl
@[simp] theorem setCluster_queues (c : Nat) (x : ClusterSt) (s : State) : (setCluster c x s).queues = s.queues := rfl
@[simp] theorem modCluster_queues (c : Nat) (f : ClusterSt → ClusterSt) (s : State) : (modCluster c f s).queues = s.queues := rfl
@[simp] theorem setCluster_paddocks (c : Nat) (x : ClusterSt) (s : State) : (setCluster c x s).paddocks = s.paddocks := rfl
@[simp] theorem modCluster_paddocks (c : Nat) (f : ClusterSt → ClusterSt) (s : State) : (modCluster c f s).paddocks = s.paddocks := rfl
@[simp] theorem setCluster_bkps (c : Nat) (x : ClusterSt) (s : State) : (setCluster c x s).bkps = s.bkps := rfl
@[simp] theorem modCluster_bkps (c : Nat) (f : ClusterSt → ClusterSt) (s : State) : (modCluster c f s).bkps = s.bkps := rfl
@[simp] theorem setCluster_barns (c : Nat) (x : ClusterSt) (s : State) : (setCluster c x s).barns = s.barns := rfl
@[simp] theorem modCluster_barns (c : Nat) (f : ClusterSt → ClusterSt) (s : State) : (modCluster c f s).barns = s.barns := rfl
@[simp] theorem setCluster_served (c : Nat) (x : ClusterSt) (s : State) : (setCluster c x s).served = s.served := rfl
@[simp] theorem modCluster_served (c : Nat) (f : ClusterSt → ClusterSt) (s : State) : (modCluster c f s).served = s.served := rfl
@[simp] theorem setCluster_stopped (c : Nat) (x : ClusterSt) (s : State) : (setCluster c x s).stopped = s.stopped := rfl
@[simp] theorem modCluster_stopped (c : Nat) (f : ClusterSt → ClusterSt) (s : State) : (modCluster c f s).stopped = s.stopped := rfl
@[simp] theorem setCluster_saves (c : Nat) (x : ClusterSt) (s : State) : (setCluster c x s).saves = s.saves := rfl
@[simp] theorem modCluster_saves (c : Nat) (f : ClusterSt → ClusterSt) (s : State) : (modCluster c f s).saves = s.saves := rfl
@[simp] theorem setCluster_modtab (c : Nat) (x : ClusterSt) (s : State) : (setCluster c x s).modtab = s.modtab := rfl
@[simp] theorem modCluster_modtab (c : Nat) (f : ClusterSt → ClusterSt) (s : State) : (modCluster c f s).modtab = s.modtab := rfl
@[simp] theorem setCluster_unloaded (c : Nat) (x : ClusterSt) (s : State) : (setCluster c x s).unloaded = s.unloaded := rfl
@[simp] theorem modCluster_unloaded (c : Nat) (f : ClusterSt → ClusterSt) (s : State) : (modCluster c f s).unloaded = s.unloaded := rfl
@[simp] theorem setCluster_doms (c : Nat) (x : ClusterSt) (s : State) : (setCluster c x s).doms = s.doms := rfl
@[simp] theorem modCluster_doms (c : Nat) (f : ClusterSt → ClusterSt) (s : State) : (modCluster c f s).doms = s.doms := rfl
@[simp] theorem setCluster_domNext (c : Nat) (x : ClusterSt) (s : State) : (setCluster c x s).domNext = s.domNext := rfl
@[simp] theorem modCluster_domNext (c : Nat) (f : ClusterSt → ClusterSt) (s : State) : (modCluster c f s).domNext = s.domNext := rfl
@[simp] theorem setCluster_domTurn (c : Nat) (x : ClusterSt) (s : State) : (setCluster c x s).domTurn = s.domTurn := rfl
@[simp] theorem modCluster_domTurn (c : Nat) (f : ClusterSt → ClusterSt) (s : State) : (modCluster c f s).domTurn = s.domTurn := rfl
@[simp] theorem setCluster_killed (c : Nat) (x : ClusterSt) (s : State) : (setCluster c x s).killed = s.killed := rfl
@[simp] theorem modCluster_killed (c : Nat) (f : ClusterSt → ClusterSt) (s : State) : (modCluster c f s).killed = s.killed := rfl
@[simp] theorem setCluster_planes (c : Nat) (x : ClusterSt) (s : State) : (setCluster c x s).planes = s.planes := rfl
@[simp] theorem modCluster_planes (c : Nat) (f : ClusterSt → ClusterSt) (s : State) : (modCluster c f s).planes = s.planes := rfl
@[simp] theorem setCluster_wlstat (c : Nat) (x : ClusterSt) (s : State) : (setCluster c x s).wlstat = s.wlstat := rfl
@[simp] theorem modCluster_wlstat (c : Nat) (f : ClusterSt → ClusterSt) (s : State) : (modCluster c f s).wlstat = s.wlstat := rfl
@[simp] theorem setCluster_txns (c : Nat) (x : ClusterSt) (s : State) : (setCluster c x s).txns = s.txns := rfl
@[simp] theorem modCluster_txns (c : Nat) (f : ClusterSt → ClusterSt) (s : State) : (modCluster c f s).txns = s.txns := rfl
@[simp] theorem setCluster_txnId (c : Nat) (x : ClusterSt) (s : State) : (setCluster c x s).txnId = s.txnId := rfl
@[simp] theorem modCluster_txnId (c : Nat) (f : ClusterSt → ClusterSt) (s : State) : (modCluster c f s).txnId = s.txnId := rfl
@[simp] theorem setCluster_lastDie (c : Nat) (x : ClusterSt) (s : State) : (setCluster c x s).lastDie = s.lastDie := rfl
@[simp] theorem modCluster_lastDie (c : Nat) (f : ClusterSt → ClusterSt) (s : State) : (modCluster c f s).lastDie = s.lastDie := rfl
@[simp] theorem setCluster_relayCredit (c : Nat) (x : ClusterSt) (s : State) : (setCluster c x s).relayCredit = s.relayCredit := rfl
@[simp] theorem modCluster_relayCredit (c : Nat) (f : ClusterSt → ClusterSt) (s : State) : (modCluster c f s).relayCredit = s.relayCredit := rfl
@[simp] theorem setCluster_relayBuf (c : Nat) (x : ClusterSt) (s : State) : (setCluster c x s).relayBuf = s.relayBuf := rfl
@[simp] theorem modCluster_relayBuf (c : Nat) (f : ClusterSt → ClusterSt) (s : State) : (modCluster c f s).relayBuf = s.relayBuf := rfl
@[simp] theorem setCluster_portsDown (c : Nat) (x : ClusterSt) (s : State) : (setCluster c x s).portsDown = s.portsDown := rfl
@[simp] theorem modCluster_portsDown (c : Nat) (f : ClusterSt → ClusterSt) (s : State) : (modCluster c f s).portsDown = s.portsDown := rfl
@[simp] theorem setCluster_unreach (c : Nat) (x : ClusterSt) (s : State) : (setCluster c x s).unreach = s.unreach := rfl
@[simp] theorem modCluster_unreach (c : Nat) (f : ClusterSt → ClusterSt) (s : State) : (modCluster c f s).unreach = s.unreach := rfl
@[simp] theorem setCluster_modIdx (c : Nat) (x : ClusterSt) (s : State) : (setCluster c x s).modIdx = s.modIdx := rfl
@[simp] theorem modCluster_modIdx (c : Nat) (f : ClusterSt → ClusterSt) (s : State) : (modCluster c f s).modIdx = s.modIdx := rfl
@[simp] theorem setCluster_failed (c : Nat) (x : ClusterSt) (s : State) : (setCluster c x s).failed = s.failed := rfl
@[simp] theorem modCluster_failed (c : Nat) (f : ClusterSt → ClusterSt) (s : State) : (modCluster c f s).failed = s.failed := rfl
@[simp] theorem setCluster_harvested (c : Nat) (x : ClusterSt) (s : State) : (setCluster c x s).harvested = s.harvested := rfl
@[simp] theorem modCluster_harvested (c : Nat) (f : ClusterSt → ClusterSt) (s : State) : (modCluster c f s).harvested = s.harvested := rfl
@[simp] theorem setCluster_dead (c : Nat) (x : ClusterSt) (s : State) : (setCluster c x s).dead = s.dead := rfl
@[simp] theorem modCluster_dead (c : Nat) (f : ClusterSt → ClusterSt) (s : State) : (modCluster c f s).dead = s.dead := rfl
@[simp] theorem setCluster_spFail (c : Nat) (x : ClusterSt) (s : State) : (setCluster c x s).spFail = s.spFail := rfl
@[simp] theorem modCluster_spFail (c : Nat) (f : ClusterSt → ClusterSt) (s : State) : (modCluster c f s).spFail = s.spFail := rfl
@[simp] theorem setCluster_lifetime (c : Nat) (x : ClusterSt) (s : State) : (setCluster c x s).lifetime = s.lifetime := rfl
@[simp] theorem modCluster_lifetime (c : Nat) (f : ClusterSt → ClusterSt) (s : State) : (modCluster c f s).lifetime = s.lifetime := rfl
@[simp] theorem setCluster_overPower (c : Nat) (x : ClusterSt) (s : State) : (setCluster c x s).overPower = s.overPower := rfl
@[simp] theorem modCluster_overPower (c : Nat) (f : ClusterSt → ClusterSt) (s : State) : (modCluster c f s).overPower = s.overPower := rfl
@[simp] theorem setCluster_flowLow (c : Nat) (x : ClusterSt) (s : State) : (setCluster c x s).flowLow = s.flowLow := rfl
@[simp] theorem modCluster_flowLow (c : Nat) (f : ClusterSt → ClusterSt) (s : State) : (modCluster c f s).flowLow = s.flowLow := rfl
@[simp] theorem setCluster_hostIrq (c : Nat) (x : ClusterSt) (s : State) : (setCluster c x s).hostIrq = s.hostIrq := rfl
@[simp] theorem modCluster_hostIrq (c : Nat) (f : ClusterSt → ClusterSt) (s : State) : (modCluster c f s).hostIrq = s.hostIrq := rfl
@[simp] theorem setCluster_banks (c : Nat) (x : ClusterSt) (s : State) : (setCluster c x s).banks = s.banks := rfl
@[simp] theorem modCluster_banks (c : Nat) (f : ClusterSt → ClusterSt) (s : State) : (modCluster c f s).banks = s.banks := rfl
@[simp] theorem setCluster_refWin (c : Nat) (x : ClusterSt) (s : State) : (setCluster c x s).refWin = s.refWin := rfl
@[simp] theorem modCluster_refWin (c : Nat) (f : ClusterSt → ClusterSt) (s : State) : (modCluster c f s).refWin = s.refWin := rfl
@[simp] theorem setCluster_ceDay (c : Nat) (x : ClusterSt) (s : State) : (setCluster c x s).ceDay = s.ceDay := rfl
@[simp] theorem modCluster_ceDay (c : Nat) (f : ClusterSt → ClusterSt) (s : State) : (modCluster c f s).ceDay = s.ceDay := rfl
@[simp] theorem coreOf_setDie (c k : Nat) (x : DieSt) (s : State) : coreOf (setDie c x s) k = coreOf s k := rfl
@[simp] theorem coreOf_modDie (c k : Nat) (f : DieSt → DieSt) (s : State) : coreOf (modDie c f s) k = coreOf s k := rfl
@[simp] theorem clusterOf_setDie (c k : Nat) (x : DieSt) (s : State) : clusterOf (setDie c x s) k = clusterOf s k := rfl
@[simp] theorem clusterOf_modDie (c k : Nat) (f : DieSt → DieSt) (s : State) : clusterOf (modDie c f s) k = clusterOf s k := rfl
@[simp] theorem setDie_sched (c : Nat) (x : DieSt) (s : State) : (setDie c x s).sched = s.sched := rfl
@[simp] theorem modDie_sched (c : Nat) (f : DieSt → DieSt) (s : State) : (modDie c f s).sched = s.sched := rfl
@[simp] theorem setDie_cur (c : Nat) (x : DieSt) (s : State) : (setDie c x s).cur = s.cur := rfl
@[simp] theorem modDie_cur (c : Nat) (f : DieSt → DieSt) (s : State) : (modDie c f s).cur = s.cur := rfl
@[simp] theorem setDie_curNode (c : Nat) (x : DieSt) (s : State) : (setDie c x s).curNode = s.curNode := rfl
@[simp] theorem modDie_curNode (c : Nat) (f : DieSt → DieSt) (s : State) : (modDie c f s).curNode = s.curNode := rfl
@[simp] theorem setDie_free (c : Nat) (x : DieSt) (s : State) : (setDie c x s).free = s.free := rfl
@[simp] theorem modDie_free (c : Nat) (f : DieSt → DieSt) (s : State) : (modDie c f s).free = s.free := rfl
@[simp] theorem setDie_time (c : Nat) (x : DieSt) (s : State) : (setDie c x s).time = s.time := rfl
@[simp] theorem modDie_time (c : Nat) (f : DieSt → DieSt) (s : State) : (modDie c f s).time = s.time := rfl
@[simp] theorem setDie_cores (c : Nat) (x : DieSt) (s : State) : (setDie c x s).cores = s.cores := rfl
@[simp] theorem modDie_cores (c : Nat) (f : DieSt → DieSt) (s : State) : (modDie c f s).cores = s.cores := rfl
@[simp] theorem setDie_clusters (c : Nat) (x : DieSt) (s : State) : (setDie c x s).clusters = s.clusters := rfl
@[simp] theorem modDie_clusters (c : Nat) (f : DieSt → DieSt) (s : State) : (modDie c f s).clusters = s.clusters := rfl
@[simp] theorem setDie_mem (c : Nat) (x : DieSt) (s : State) : (setDie c x s).mem = s.mem := rfl
@[simp] theorem modDie_mem (c : Nat) (f : DieSt → DieSt) (s : State) : (modDie c f s).mem = s.mem := rfl
@[simp] theorem setDie_lineKey (c : Nat) (x : DieSt) (s : State) : (setDie c x s).lineKey = s.lineKey := rfl
@[simp] theorem modDie_lineKey (c : Nat) (f : DieSt → DieSt) (s : State) : (modDie c f s).lineKey = s.lineKey := rfl
@[simp] theorem setDie_poison (c : Nat) (x : DieSt) (s : State) : (setDie c x s).poison = s.poison := rfl
@[simp] theorem modDie_poison (c : Nat) (f : DieSt → DieSt) (s : State) : (modDie c f s).poison = s.poison := rfl
@[simp] theorem setDie_hostMem (c : Nat) (x : DieSt) (s : State) : (setDie c x s).hostMem = s.hostMem := rfl
@[simp] theorem modDie_hostMem (c : Nat) (f : DieSt → DieSt) (s : State) : (modDie c f s).hostMem = s.hostMem := rfl
@[simp] theorem setDie_hlc (c : Nat) (x : DieSt) (s : State) : (setDie c x s).hlc = s.hlc := rfl
@[simp] theorem modDie_hlc (c : Nat) (f : DieSt → DieSt) (s : State) : (modDie c f s).hlc = s.hlc := rfl
@[simp] theorem setDie_remMem (c : Nat) (x : DieSt) (s : State) : (setDie c x s).remMem = s.remMem := rfl
@[simp] theorem modDie_remMem (c : Nat) (f : DieSt → DieSt) (s : State) : (modDie c f s).remMem = s.remMem := rfl
@[simp] theorem setDie_remBad (c : Nat) (x : DieSt) (s : State) : (setDie c x s).remBad = s.remBad := rfl
@[simp] theorem modDie_remBad (c : Nat) (f : DieSt → DieSt) (s : State) : (modDie c f s).remBad = s.remBad := rfl
@[simp] theorem setDie_ivset (c : Nat) (x : DieSt) (s : State) : (setDie c x s).ivset = s.ivset := rfl
@[simp] theorem modDie_ivset (c : Nat) (f : DieSt → DieSt) (s : State) : (modDie c f s).ivset = s.ivset := rfl
@[simp] theorem setDie_pvset (c : Nat) (x : DieSt) (s : State) : (setDie c x s).pvset = s.pvset := rfl
@[simp] theorem modDie_pvset (c : Nat) (f : DieSt → DieSt) (s : State) : (modDie c f s).pvset = s.pvset := rfl
@[simp] theorem setDie_ygset (c : Nat) (x : DieSt) (s : State) : (setDie c x s).ygset = s.ygset := rfl
@[simp] theorem modDie_ygset (c : Nat) (f : DieSt → DieSt) (s : State) : (modDie c f s).ygset = s.ygset := rfl
@[simp] theorem setDie_hdmcfg (c : Nat) (x : DieSt) (s : State) : (setDie c x s).hdmcfg = s.hdmcfg := rfl
@[simp] theorem modDie_hdmcfg (c : Nat) (f : DieSt → DieSt) (s : State) : (modDie c f s).hdmcfg = s.hdmcfg := rfl
@[simp] theorem setDie_plive (c : Nat) (x : DieSt) (s : State) : (setDie c x s).plive = s.plive := rfl
@[simp] theorem modDie_plive (c : Nat) (f : DieSt → DieSt) (s : State) : (modDie c f s).plive = s.plive := rfl
@[simp] theorem setDie_pl (c : Nat) (x : DieSt) (s : State) : (setDie c x s).pl = s.pl := rfl
@[simp] theorem modDie_pl (c : Nat) (f : DieSt → DieSt) (s : State) : (modDie c f s).pl = s.pl := rfl
@[simp] theorem setDie_hbmcfg (c : Nat) (x : DieSt) (s : State) : (setDie c x s).hbmcfg = s.hbmcfg := rfl
@[simp] theorem modDie_hbmcfg (c : Nat) (f : DieSt → DieSt) (s : State) : (modDie c f s).hbmcfg = s.hbmcfg := rfl
@[simp] theorem setDie_hbmNext (c : Nat) (x : DieSt) (s : State) : (setDie c x s).hbmNext = s.hbmNext := rfl
@[simp] theorem modDie_hbmNext (c : Nat) (f : DieSt → DieSt) (s : State) : (modDie c f s).hbmNext = s.hbmNext := rfl
@[simp] theorem setDie_ceRing (c : Nat) (x : DieSt) (s : State) : (setDie c x s).ceRing = s.ceRing := rfl
@[simp] theorem modDie_ceRing (c : Nat) (f : DieSt → DieSt) (s : State) : (modDie c f s).ceRing = s.ceRing := rfl
@[simp] theorem setDie_platstat (c : Nat) (x : DieSt) (s : State) : (setDie c x s).platstat = s.platstat := rfl
@[simp] theorem modDie_platstat (c : Nat) (f : DieSt → DieSt) (s : State) : (modDie c f s).platstat = s.platstat := rfl
@[simp] theorem setDie_live (c : Nat) (x : DieSt) (s : State) : (setDie c x s).live = s.live := rfl
@[simp] theorem modDie_live (c : Nat) (f : DieSt → DieSt) (s : State) : (modDie c f s).live = s.live := rfl
@[simp] theorem setDie_votecfg (c : Nat) (x : DieSt) (s : State) : (setDie c x s).votecfg = s.votecfg := rfl
@[simp] theorem modDie_votecfg (c : Nat) (f : DieSt → DieSt) (s : State) : (modDie c f s).votecfg = s.votecfg := rfl
@[simp] theorem setDie_ckptcfg (c : Nat) (x : DieSt) (s : State) : (setDie c x s).ckptcfg = s.ckptcfg := rfl
@[simp] theorem modDie_ckptcfg (c : Nat) (f : DieSt → DieSt) (s : State) : (modDie c f s).ckptcfg = s.ckptcfg := rfl
@[simp] theorem setDie_relaycfg (c : Nat) (x : DieSt) (s : State) : (setDie c x s).relaycfg = s.relaycfg := rfl
@[simp] theorem modDie_relaycfg (c : Nat) (f : DieSt → DieSt) (s : State) : (modDie c f s).relaycfg = s.relaycfg := rfl
@[simp] theorem setDie_wlthr (c : Nat) (x : DieSt) (s : State) : (setDie c x s).wlthr = s.wlthr := rfl
@[simp] theorem modDie_wlthr (c : Nat) (f : DieSt → DieSt) (s : State) : (modDie c f s).wlthr = s.wlthr := rfl
@[simp] theorem setDie_hangcfg (c : Nat) (x : DieSt) (s : State) : (setDie c x s).hangcfg = s.hangcfg := rfl
@[simp] theorem modDie_hangcfg (c : Nat) (f : DieSt → DieSt) (s : State) : (modDie c f s).hangcfg = s.hangcfg := rfl
@[simp] theorem setDie_preempt (c : Nat) (x : DieSt) (s : State) : (setDie c x s).preempt = s.preempt := rfl
@[simp] theorem modDie_preempt (c : Nat) (f : DieSt → DieSt) (s : State) : (modDie c f s).preempt = s.preempt := rfl
@[simp] theorem setDie_bkphit (c : Nat) (x : DieSt) (s : State) : (setDie c x s).bkphit = s.bkphit := rfl
@[simp] theorem modDie_bkphit (c : Nat) (f : DieSt → DieSt) (s : State) : (modDie c f s).bkphit = s.bkphit := rfl
@[simp] theorem setDie_keydata (c : Nat) (x : DieSt) (s : State) : (setDie c x s).keydata = s.keydata := rfl
@[simp] theorem modDie_keydata (c : Nat) (f : DieSt → DieSt) (s : State) : (modDie c f s).keydata = s.keydata := rfl
@[simp] theorem setDie_keycmd (c : Nat) (x : DieSt) (s : State) : (setDie c x s).keycmd = s.keycmd := rfl
@[simp] theorem modDie_keycmd (c : Nat) (f : DieSt → DieSt) (s : State) : (modDie c f s).keycmd = s.keycmd := rfl
@[simp] theorem setDie_keyOp (c : Nat) (x : DieSt) (s : State) : (setDie c x s).keyOp = s.keyOp := rfl
@[simp] theorem modDie_keyOp (c : Nat) (f : DieSt → DieSt) (s : State) : (modDie c f s).keyOp = s.keyOp := rfl
@[simp] theorem setDie_keys (c : Nat) (x : DieSt) (s : State) : (setDie c x s).keys = s.keys := rfl
@[simp] theorem modDie_keys (c : Nat) (f : DieSt → DieSt) (s : State) : (modDie c f s).keys = s.keys := rfl
@[simp] theorem setDie_keyGen (c : Nat) (x : DieSt) (s : State) : (setDie c x s).keyGen = s.keyGen := rfl
@[simp] theorem modDie_keyGen (c : Nat) (f : DieSt → DieSt) (s : State) : (modDie c f s).keyGen = s.keyGen := rfl
@[simp] theorem setDie_queues (c : Nat) (x : DieSt) (s : State) : (setDie c x s).queues = s.queues := rfl
@[simp] theorem modDie_queues (c : Nat) (f : DieSt → DieSt) (s : State) : (modDie c f s).queues = s.queues := rfl
@[simp] theorem setDie_paddocks (c : Nat) (x : DieSt) (s : State) : (setDie c x s).paddocks = s.paddocks := rfl
@[simp] theorem modDie_paddocks (c : Nat) (f : DieSt → DieSt) (s : State) : (modDie c f s).paddocks = s.paddocks := rfl
@[simp] theorem setDie_bkps (c : Nat) (x : DieSt) (s : State) : (setDie c x s).bkps = s.bkps := rfl
@[simp] theorem modDie_bkps (c : Nat) (f : DieSt → DieSt) (s : State) : (modDie c f s).bkps = s.bkps := rfl
@[simp] theorem setDie_barns (c : Nat) (x : DieSt) (s : State) : (setDie c x s).barns = s.barns := rfl
@[simp] theorem modDie_barns (c : Nat) (f : DieSt → DieSt) (s : State) : (modDie c f s).barns = s.barns := rfl
@[simp] theorem setDie_served (c : Nat) (x : DieSt) (s : State) : (setDie c x s).served = s.served := rfl
@[simp] theorem modDie_served (c : Nat) (f : DieSt → DieSt) (s : State) : (modDie c f s).served = s.served := rfl
@[simp] theorem setDie_stopped (c : Nat) (x : DieSt) (s : State) : (setDie c x s).stopped = s.stopped := rfl
@[simp] theorem modDie_stopped (c : Nat) (f : DieSt → DieSt) (s : State) : (modDie c f s).stopped = s.stopped := rfl
@[simp] theorem setDie_saves (c : Nat) (x : DieSt) (s : State) : (setDie c x s).saves = s.saves := rfl
@[simp] theorem modDie_saves (c : Nat) (f : DieSt → DieSt) (s : State) : (modDie c f s).saves = s.saves := rfl
@[simp] theorem setDie_modtab (c : Nat) (x : DieSt) (s : State) : (setDie c x s).modtab = s.modtab := rfl
@[simp] theorem modDie_modtab (c : Nat) (f : DieSt → DieSt) (s : State) : (modDie c f s).modtab = s.modtab := rfl
@[simp] theorem setDie_unloaded (c : Nat) (x : DieSt) (s : State) : (setDie c x s).unloaded = s.unloaded := rfl
@[simp] theorem modDie_unloaded (c : Nat) (f : DieSt → DieSt) (s : State) : (modDie c f s).unloaded = s.unloaded := rfl
@[simp] theorem setDie_doms (c : Nat) (x : DieSt) (s : State) : (setDie c x s).doms = s.doms := rfl
@[simp] theorem modDie_doms (c : Nat) (f : DieSt → DieSt) (s : State) : (modDie c f s).doms = s.doms := rfl
@[simp] theorem setDie_domNext (c : Nat) (x : DieSt) (s : State) : (setDie c x s).domNext = s.domNext := rfl
@[simp] theorem modDie_domNext (c : Nat) (f : DieSt → DieSt) (s : State) : (modDie c f s).domNext = s.domNext := rfl
@[simp] theorem setDie_domTurn (c : Nat) (x : DieSt) (s : State) : (setDie c x s).domTurn = s.domTurn := rfl
@[simp] theorem modDie_domTurn (c : Nat) (f : DieSt → DieSt) (s : State) : (modDie c f s).domTurn = s.domTurn := rfl
@[simp] theorem setDie_killed (c : Nat) (x : DieSt) (s : State) : (setDie c x s).killed = s.killed := rfl
@[simp] theorem modDie_killed (c : Nat) (f : DieSt → DieSt) (s : State) : (modDie c f s).killed = s.killed := rfl
@[simp] theorem setDie_planes (c : Nat) (x : DieSt) (s : State) : (setDie c x s).planes = s.planes := rfl
@[simp] theorem modDie_planes (c : Nat) (f : DieSt → DieSt) (s : State) : (modDie c f s).planes = s.planes := rfl
@[simp] theorem setDie_wlstat (c : Nat) (x : DieSt) (s : State) : (setDie c x s).wlstat = s.wlstat := rfl
@[simp] theorem modDie_wlstat (c : Nat) (f : DieSt → DieSt) (s : State) : (modDie c f s).wlstat = s.wlstat := rfl
@[simp] theorem setDie_txns (c : Nat) (x : DieSt) (s : State) : (setDie c x s).txns = s.txns := rfl
@[simp] theorem modDie_txns (c : Nat) (f : DieSt → DieSt) (s : State) : (modDie c f s).txns = s.txns := rfl
@[simp] theorem setDie_txnId (c : Nat) (x : DieSt) (s : State) : (setDie c x s).txnId = s.txnId := rfl
@[simp] theorem modDie_txnId (c : Nat) (f : DieSt → DieSt) (s : State) : (modDie c f s).txnId = s.txnId := rfl
@[simp] theorem setDie_lastDie (c : Nat) (x : DieSt) (s : State) : (setDie c x s).lastDie = s.lastDie := rfl
@[simp] theorem modDie_lastDie (c : Nat) (f : DieSt → DieSt) (s : State) : (modDie c f s).lastDie = s.lastDie := rfl
@[simp] theorem setDie_relayCredit (c : Nat) (x : DieSt) (s : State) : (setDie c x s).relayCredit = s.relayCredit := rfl
@[simp] theorem modDie_relayCredit (c : Nat) (f : DieSt → DieSt) (s : State) : (modDie c f s).relayCredit = s.relayCredit := rfl
@[simp] theorem setDie_relayBuf (c : Nat) (x : DieSt) (s : State) : (setDie c x s).relayBuf = s.relayBuf := rfl
@[simp] theorem modDie_relayBuf (c : Nat) (f : DieSt → DieSt) (s : State) : (modDie c f s).relayBuf = s.relayBuf := rfl
@[simp] theorem setDie_portsDown (c : Nat) (x : DieSt) (s : State) : (setDie c x s).portsDown = s.portsDown := rfl
@[simp] theorem modDie_portsDown (c : Nat) (f : DieSt → DieSt) (s : State) : (modDie c f s).portsDown = s.portsDown := rfl
@[simp] theorem setDie_unreach (c : Nat) (x : DieSt) (s : State) : (setDie c x s).unreach = s.unreach := rfl
@[simp] theorem modDie_unreach (c : Nat) (f : DieSt → DieSt) (s : State) : (modDie c f s).unreach = s.unreach := rfl
@[simp] theorem setDie_modIdx (c : Nat) (x : DieSt) (s : State) : (setDie c x s).modIdx = s.modIdx := rfl
@[simp] theorem modDie_modIdx (c : Nat) (f : DieSt → DieSt) (s : State) : (modDie c f s).modIdx = s.modIdx := rfl
@[simp] theorem setDie_failed (c : Nat) (x : DieSt) (s : State) : (setDie c x s).failed = s.failed := rfl
@[simp] theorem modDie_failed (c : Nat) (f : DieSt → DieSt) (s : State) : (modDie c f s).failed = s.failed := rfl
@[simp] theorem setDie_harvested (c : Nat) (x : DieSt) (s : State) : (setDie c x s).harvested = s.harvested := rfl
@[simp] theorem modDie_harvested (c : Nat) (f : DieSt → DieSt) (s : State) : (modDie c f s).harvested = s.harvested := rfl
@[simp] theorem setDie_dead (c : Nat) (x : DieSt) (s : State) : (setDie c x s).dead = s.dead := rfl
@[simp] theorem modDie_dead (c : Nat) (f : DieSt → DieSt) (s : State) : (modDie c f s).dead = s.dead := rfl
@[simp] theorem setDie_spFail (c : Nat) (x : DieSt) (s : State) : (setDie c x s).spFail = s.spFail := rfl
@[simp] theorem modDie_spFail (c : Nat) (f : DieSt → DieSt) (s : State) : (modDie c f s).spFail = s.spFail := rfl
@[simp] theorem setDie_lifetime (c : Nat) (x : DieSt) (s : State) : (setDie c x s).lifetime = s.lifetime := rfl
@[simp] theorem modDie_lifetime (c : Nat) (f : DieSt → DieSt) (s : State) : (modDie c f s).lifetime = s.lifetime := rfl
@[simp] theorem setDie_overPower (c : Nat) (x : DieSt) (s : State) : (setDie c x s).overPower = s.overPower := rfl
@[simp] theorem modDie_overPower (c : Nat) (f : DieSt → DieSt) (s : State) : (modDie c f s).overPower = s.overPower := rfl
@[simp] theorem setDie_flowLow (c : Nat) (x : DieSt) (s : State) : (setDie c x s).flowLow = s.flowLow := rfl
@[simp] theorem modDie_flowLow (c : Nat) (f : DieSt → DieSt) (s : State) : (modDie c f s).flowLow = s.flowLow := rfl
@[simp] theorem setDie_hostIrq (c : Nat) (x : DieSt) (s : State) : (setDie c x s).hostIrq = s.hostIrq := rfl
@[simp] theorem modDie_hostIrq (c : Nat) (f : DieSt → DieSt) (s : State) : (modDie c f s).hostIrq = s.hostIrq := rfl
@[simp] theorem setDie_banks (c : Nat) (x : DieSt) (s : State) : (setDie c x s).banks = s.banks := rfl
@[simp] theorem modDie_banks (c : Nat) (f : DieSt → DieSt) (s : State) : (modDie c f s).banks = s.banks := rfl
@[simp] theorem setDie_refWin (c : Nat) (x : DieSt) (s : State) : (setDie c x s).refWin = s.refWin := rfl
@[simp] theorem modDie_refWin (c : Nat) (f : DieSt → DieSt) (s : State) : (modDie c f s).refWin = s.refWin := rfl
@[simp] theorem setDie_ceDay (c : Nat) (x : DieSt) (s : State) : (setDie c x s).ceDay = s.ceDay := rfl
@[simp] theorem modDie_ceDay (c : Nat) (f : DieSt → DieSt) (s : State) : (modDie c f s).ceDay = s.ceDay := rfl

/-! Updates of one core. -/

@[simp] theorem setX_tiles (r : Nat) (v : Word) (x : CoreSt) : (setX r v x).tiles = x.tiles := by unfold setX; split <;> rfl
@[simp] theorem setX_pc (r : Nat) (v : Word) (x : CoreSt) : (setX r v x).pc = x.pc := by unfold setX; split <;> rfl
@[simp] theorem setX_status (r : Nat) (v : Word) (x : CoreSt) : (setX r v x).status = x.status := by unfold setX; split <;> rfl
@[simp] theorem setX_cause (r : Nat) (v : Word) (x : CoreSt) : (setX r v x).cause = x.cause := by unfold setX; split <;> rfl
@[simp] theorem setX_epc (r : Nat) (v : Word) (x : CoreSt) : (setX r v x).epc = x.epc := by unfold setX; split <;> rfl
@[simp] theorem setX_tval (r : Nat) (v : Word) (x : CoreSt) : (setX r v x).tval = x.tval := by unfold setX; split <;> rfl
@[simp] theorem setX_tvec (r : Nat) (v : Word) (x : CoreSt) : (setX r v x).tvec = x.tvec := by unfold setX; split <;> rfl
@[simp] theorem setX_sscratch (r : Nat) (v : Word) (x : CoreSt) : (setX r v x).sscratch = x.sscratch := by unfold setX; split <;> rfl
@[simp] theorem setX_law0 (r : Nat) (v : Word) (x : CoreSt) : (setX r v x).law0 = x.law0 := by unfold setX; split <;> rfl
@[simp] theorem setX_law1 (r : Nat) (v : Word) (x : CoreSt) : (setX r v x).law1 = x.law1 := by unfold setX; split <;> rfl
@[simp] theorem setX_law2 (r : Nat) (v : Word) (x : CoreSt) : (setX r v x).law2 = x.law2 := by unfold setX; split <;> rfl
@[simp] theorem setX_law3 (r : Nat) (v : Word) (x : CoreSt) : (setX r v x).law3 = x.law3 := by unfold setX; split <;> rfl
@[simp] theorem setX_dbgctl (r : Nat) (v : Word) (x : CoreSt) : (setX r v x).dbgctl = x.dbgctl := by unfold setX; split <;> rfl
@[simp] theorem setX_vmroot (r : Nat) (v : Word) (x : CoreSt) : (setX r v x).vmroot = x.vmroot := by unfold setX; split <;> rfl
@[simp] theorem setX_spcfg (r : Nat) (v : Word) (x : CoreSt) : (setX r v x).spcfg = x.spcfg := by unfold setX; split <;> rfl
@[simp] theorem setX_spNew (r : Nat) (v : Word) (x : CoreSt) : (setX r v x).spNew = x.spNew := by unfold setX; split <;> rfl
@[simp] theorem setX_migcfg (r : Nat) (v : Word) (x : CoreSt) : (setX r v x).migcfg = x.migcfg := by unfold setX; split <;> rfl
@[simp] theorem setX_rqspill (r : Nat) (v : Word) (x : CoreSt) : (setX r v x).rqspill = x.rqspill := by unfold setX; split <;> rfl
@[simp] theorem setX_spillArea (r : Nat) (v : Word) (x : CoreSt) : (setX r v x).spillArea = x.spillArea := by unfold setX; split <;> rfl
@[simp] theorem setX_trec (r : Nat) (v : Word) (x : CoreSt) : (setX r v x).trec = x.trec := by unfold setX; split <;> rfl
@[simp] theorem setX_fcsr (r : Nat) (v : Word) (x : CoreSt) : (setX r v x).fcsr = x.fcsr := by unfold setX; split <;> rfl
@[simp] theorem setX_tshape (r : Nat) (v : Word) (x : CoreSt) : (setX r v x).tshape = x.tshape := by unfold setX; split <;> rfl
@[simp] theorem setX_tileuse (r : Nat) (v : Word) (x : CoreSt) : (setX r v x).tileuse = x.tileuse := by unfold setX; split <;> rfl
@[simp] theorem setX_rngkey (r : Nat) (v : Word) (x : CoreSt) : (setX r v x).rngkey = x.rngkey := by unfold setX; split <;> rfl
@[simp] theorem setX_rngcnt (r : Nat) (v : Word) (x : CoreSt) : (setX r v x).rngcnt = x.rngcnt := by unfold setX; split <;> rfl
@[simp] theorem setX_cnt (r : Nat) (v : Word) (x : CoreSt) : (setX r v x).cnt = x.cnt := by unfold setX; split <;> rfl
@[simp] theorem setX_evsel (r : Nat) (v : Word) (x : CoreSt) : (setX r v x).evsel = x.evsel := by unfold setX; split <;> rfl
@[simp] theorem setX_trcbase (r : Nat) (v : Word) (x : CoreSt) : (setX r v x).trcbase = x.trcbase := by unfold setX; split <;> rfl
@[simp] theorem setX_trcctl (r : Nat) (v : Word) (x : CoreSt) : (setX r v x).trcctl = x.trcctl := by unfold setX; split <;> rfl
@[simp] theorem setX_trchead (r : Nat) (v : Word) (x : CoreSt) : (setX r v x).trchead = x.trchead := by unfold setX; split <;> rfl
@[simp] theorem setX_trcread (r : Nat) (v : Word) (x : CoreSt) : (setX r v x).trcread = x.trcread := by unfold setX; split <;> rfl
@[simp] theorem setX_trcLast (r : Nat) (v : Word) (x : CoreSt) : (setX r v x).trcLast = x.trcLast := by unfold setX; split <;> rfl
@[simp] theorem setX_run (r : Nat) (v : Word) (x : CoreSt) : (setX r v x).run = x.run := by unfold setX; split <;> rfl
@[simp] theorem setX_stall (r : Nat) (v : Word) (x : CoreSt) : (setX r v x).stall = x.stall := by unfold setX; split <;> rfl
@[simp] theorem setX_since (r : Nat) (v : Word) (x : CoreSt) : (setX r v x).since = x.since := by unfold setX; split <;> rfl
@[simp] theorem setX_haveTask (r : Nat) (v : Word) (x : CoreSt) : (setX r v x).haveTask = x.haveTask := by unfold setX; split <;> rfl
@[simp] theorem setX_gtid (r : Nat) (v : Word) (x : CoreSt) : (setX r v x).gtid = x.gtid := by unfold setX; split <;> rfl
@[simp] theorem setX_ctl (r : Nat) (v : Word) (x : CoreSt) : (setX r v x).ctl = x.ctl := by unfold setX; split <;> rfl
@[simp] theorem setX_joinw (r : Nat) (v : Word) (x : CoreSt) : (setX r v x).joinw = x.joinw := by unfold setX; split <;> rfl
@[simp] theorem setX_member (r : Nat) (v : Word) (x : CoreSt) : (setX r v x).member = x.member := by unfold setX; split <;> rfl
@[simp] theorem setX_memberSlot (r : Nat) (v : Word) (x : CoreSt) : (setX r v x).memberSlot = x.memberSlot := by unfold setX; split <;> rfl
@[simp] theorem setX_picking (r : Nat) (v : Word) (x : CoreSt) : (setX r v x).picking = x.picking := by unfold setX; split <;> rfl
@[simp] theorem setX_seq (r : Nat) (v : Word) (x : CoreSt) : (setX r v x).seq = x.seq := by unfold setX; split <;> rfl
@[simp] theorem setX_fifo0 (r : Nat) (v : Word) (x : CoreSt) : (setX r v x).fifo0 = x.fifo0 := by unfold setX; split <;> rfl
@[simp] theorem setX_fifo1 (r : Nat) (v : Word) (x : CoreSt) : (setX r v x).fifo1 = x.fifo1 := by unfold setX; split <;> rfl
@[simp] theorem setX_fifo2 (r : Nat) (v : Word) (x : CoreSt) : (setX r v x).fifo2 = x.fifo2 := by unfold setX; split <;> rfl
@[simp] theorem setX_deque (r : Nat) (v : Word) (x : CoreSt) : (setX r v x).deque = x.deque := by unfold setX; split <;> rfl
@[simp] theorem setX_hslots (r : Nat) (v : Word) (x : CoreSt) : (setX r v x).hslots = x.hslots := by unfold setX; split <;> rfl
@[simp] theorem setX_pushes (r : Nat) (v : Word) (x : CoreSt) : (setX r v x).pushes = x.pushes := by unfold setX; split <;> rfl
@[simp] theorem setX_tags (r : Nat) (v : Word) (x : CoreSt) : (setX r v x).tags = x.tags := by unfold setX; split <;> rfl
@[simp] theorem setX_seen (r : Nat) (v : Word) (x : CoreSt) : (setX r v x).seen = x.seen := by unfold setX; split <;> rfl
@[simp] theorem setX_inbox (r : Nat) (v : Word) (x : CoreSt) : (setX r v x).inbox = x.inbox := by unfold setX; split <;> rfl
@[simp] theorem setX_waits (r : Nat) (v : Word) (x : CoreSt) : (setX r v x).waits = x.waits := by unfold setX; split <;> rfl
@[simp] theorem setX_links (r : Nat) (v : Word) (x : CoreSt) : (setX r v x).links = x.links := by unfold setX; split <;> rfl
@[simp] theorem setX_ports (r : Nat) (v : Word) (x : CoreSt) : (setX r v x).ports = x.ports := by unfold setX; split <;> rfl
@[simp] theorem setX_windows (r : Nat) (v : Word) (x : CoreSt) : (setX r v x).windows = x.windows := by unfold setX; split <;> rfl
@[simp] theorem setX_redo (r : Nat) (v : Word) (x : CoreSt) : (setX r v x).redo = x.redo := by unfold setX; split <;> rfl
@[simp] theorem setX_ereting (r : Nat) (v : Word) (x : CoreSt) : (setX r v x).ereting = x.ereting := by unfold setX; split <;> rfl
@[simp] theorem setX_aborted (r : Nat) (v : Word) (x : CoreSt) : (setX r v x).aborted = x.aborted := by unfold setX; split <;> rfl
@[simp] theorem setX_scb (r : Nat) (v : Word) (x : CoreSt) : (setX r v x).scb = x.scb := by unfold setX; split <;> rfl
@[simp] theorem setX_resv (r : Nat) (v : Word) (x : CoreSt) : (setX r v x).resv = x.resv := by unfold setX; split <;> rfl
@[simp] theorem setX_l0 (r : Nat) (v : Word) (x : CoreSt) : (setX r v x).l0 = x.l0 := by unfold setX; split <;> rfl
@[simp] theorem setX_i0 (r : Nat) (v : Word) (x : CoreSt) : (setX r v x).i0 = x.i0 := by unfold setX; split <;> rfl
@[simp] theorem setX_fbuf (r : Nat) (v : Word) (x : CoreSt) : (setX r v x).fbuf = x.fbuf := by unfold setX; split <;> rfl
@[simp] theorem setX_pred (r : Nat) (v : Word) (x : CoreSt) : (setX r v x).pred = x.pred := by unfold setX; split <;> rfl
@[simp] theorem setX_copies (r : Nat) (v : Word) (x : CoreSt) : (setX r v x).copies = x.copies := by unfold setX; split <;> rfl
@[simp] theorem setX_sharers (r : Nat) (v : Word) (x : CoreSt) : (setX r v x).sharers = x.sharers := by unfold setX; split <;> rfl
@[simp] theorem setX_l1 (r : Nat) (v : Word) (x : CoreSt) : (setX r v x).l1 = x.l1 := by unfold setX; split <;> rfl
@[simp] theorem setX_sp (r : Nat) (v : Word) (x : CoreSt) : (setX r v x).sp = x.sp := by unfold setX; split <;> rfl
@[simp] theorem setX_full (r : Nat) (v : Word) (x : CoreSt) : (setX r v x).full = x.full := by unfold setX; split <;> rfl
@[simp] theorem setX_owner (r : Nat) (v : Word) (x : CoreSt) : (setX r v x).owner = x.owner := by unfold setX; split <;> rfl
@[simp] theorem setX_spBad (r : Nat) (v : Word) (x : CoreSt) : (setX r v x).spBad = x.spBad := by unfold setX; split <;> rfl
@[simp] theorem setX_spPois (r : Nat) (v : Word) (x : CoreSt) : (setX r v x).spPois = x.spPois := by unfold setX; split <;> rfl
@[simp] theorem setX_waiters (r : Nat) (v : Word) (x : CoreSt) : (setX r v x).waiters = x.waiters := by unfold setX; split <;> rfl
@[simp] theorem setX_nacked (r : Nat) (v : Word) (x : CoreSt) : (setX r v x).nacked = x.nacked := by unfold setX; split <;> rfl
@[simp] theorem setX_remq (r : Nat) (v : Word) (x : CoreSt) : (setX r v x).remq = x.remq := by unfold setX; split <;> rfl
@[simp] theorem setX_ganged (r : Nat) (v : Word) (x : CoreSt) : (setX r v x).ganged = x.ganged := by unfold setX; split <;> rfl
@[simp] theorem setX_gangCnt (r : Nat) (v : Word) (x : CoreSt) : (setX r v x).gangCnt = x.gangCnt := by unfold setX; split <;> rfl
@[simp] theorem setX_gangWait (r : Nat) (v : Word) (x : CoreSt) : (setX r v x).gangWait = x.gangWait := by unfold setX; split <;> rfl
@[simp] theorem setX_prevTiles (r : Nat) (v : Word) (x : CoreSt) : (setX r v x).prevTiles = x.prevTiles := by unfold setX; split <;> rfl
@[simp] theorem setX_trapQ (r : Nat) (v : Word) (x : CoreSt) : (setX r v x).trapQ = x.trapQ := by unfold setX; split <;> rfl
@[simp] theorem setX_stepPend (r : Nat) (v : Word) (x : CoreSt) : (setX r v x).stepPend = x.stepPend := by unfold setX; split <;> rfl
@[simp] theorem setX_bkpPend (r : Nat) (v : Word) (x : CoreSt) : (setX r v x).bkpPend = x.bkpPend := by unfold setX; split <;> rfl
@[simp] theorem setX_hangPend (r : Nat) (v : Word) (x : CoreSt) : (setX r v x).hangPend = x.hangPend := by unfold setX; split <;> rfl
@[simp] theorem setX_ovfPend (r : Nat) (v : Word) (x : CoreSt) : (setX r v x).ovfPend = x.ovfPend := by unfold setX; split <;> rfl
@[simp] theorem setX_spillPend (r : Nat) (v : Word) (x : CoreSt) : (setX r v x).spillPend = x.spillPend := by unfold setX; split <;> rfl
@[simp] theorem setX_barArrived (r : Nat) (v : Word) (x : CoreSt) : (setX r v x).barArrived = x.barArrived := by unfold setX; split <;> rfl
@[simp] theorem setX_sendReq (r : Nat) (v : Word) (x : CoreSt) : (setX r v x).sendReq = x.sendReq := by unfold setX; split <;> rfl
@[simp] theorem setX_leaseReq (r : Nat) (v : Word) (x : CoreSt) : (setX r v x).leaseReq = x.leaseReq := by unfold setX; split <;> rfl
@[simp] theorem setX_steFault (r : Nat) (v : Word) (x : CoreSt) : (setX r v x).steFault = x.steFault := by unfold setX; split <;> rfl
@[simp] theorem setX_sleepAt (r : Nat) (v : Word) (x : CoreSt) : (setX r v x).sleepAt = x.sleepAt := by unfold setX; split <;> rfl
@[simp] theorem setX_waker (r : Nat) (v : Word) (x : CoreSt) : (setX r v x).waker = x.waker := by unfold setX; split <;> rfl
@[simp] theorem setX_barn (r : Nat) (v : Word) (x : CoreSt) : (setX r v x).barn = x.barn := by unfold setX; split <;> rfl
@[simp] theorem setX_badT (r : Nat) (v : Word) (x : CoreSt) : (setX r v x).badT = x.badT := by unfold setX; split <;> rfl
@[simp] theorem setX_fpDiv (r : Nat) (v : Word) (x : CoreSt) : (setX r v x).fpDiv = x.fpDiv := by unfold setX; split <;> rfl
@[simp] theorem setX_rpWait (r : Nat) (v : Word) (x : CoreSt) : (setX r v x).rpWait = x.rpWait := by unfold setX; split <;> rfl
@[simp] theorem setX_ilWait (r : Nat) (v : Word) (x : CoreSt) : (setX r v x).ilWait = x.ilWait := by unfold setX; split <;> rfl
@[simp] theorem setX_logSeq (r : Nat) (v : Word) (x : CoreSt) : (setX r v x).logSeq = x.logSeq := by unfold setX; split <;> rfl
@[simp] theorem setV_regs (r : Nat) (t : Tile) (x : CoreSt) : (setV r t x).regs = x.regs := rfl
@[simp] theorem setV_pc (r : Nat) (t : Tile) (x : CoreSt) : (setV r t x).pc = x.pc := rfl
@[simp] theorem setV_status (r : Nat) (t : Tile) (x : CoreSt) : (setV r t x).status = x.status := rfl
@[simp] theorem setV_cause (r : Nat) (t : Tile) (x : CoreSt) : (setV r t x).cause = x.cause := rfl
@[simp] theorem setV_epc (r : Nat) (t : Tile) (x : CoreSt) : (setV r t x).epc = x.epc := rfl
@[simp] theorem setV_tval (r : Nat) (t : Tile) (x : CoreSt) : (setV r t x).tval = x.tval := rfl
@[simp] theorem setV_tvec (r : Nat) (t : Tile) (x : CoreSt) : (setV r t x).tvec = x.tvec := rfl
@[simp] theorem setV_sscratch (r : Nat) (t : Tile) (x : CoreSt) : (setV r t x).sscratch = x.sscratch := rfl
@[simp] theorem setV_law0 (r : Nat) (t : Tile) (x : CoreSt) : (setV r t x).law0 = x.law0 := rfl
@[simp] theorem setV_law1 (r : Nat) (t : Tile) (x : CoreSt) : (setV r t x).law1 = x.law1 := rfl
@[simp] theorem setV_law2 (r : Nat) (t : Tile) (x : CoreSt) : (setV r t x).law2 = x.law2 := rfl
@[simp] theorem setV_law3 (r : Nat) (t : Tile) (x : CoreSt) : (setV r t x).law3 = x.law3 := rfl
@[simp] theorem setV_dbgctl (r : Nat) (t : Tile) (x : CoreSt) : (setV r t x).dbgctl = x.dbgctl := rfl
@[simp] theorem setV_vmroot (r : Nat) (t : Tile) (x : CoreSt) : (setV r t x).vmroot = x.vmroot := rfl
@[simp] theorem setV_spcfg (r : Nat) (t : Tile) (x : CoreSt) : (setV r t x).spcfg = x.spcfg := rfl
@[simp] theorem setV_spNew (r : Nat) (t : Tile) (x : CoreSt) : (setV r t x).spNew = x.spNew := rfl
@[simp] theorem setV_migcfg (r : Nat) (t : Tile) (x : CoreSt) : (setV r t x).migcfg = x.migcfg := rfl
@[simp] theorem setV_rqspill (r : Nat) (t : Tile) (x : CoreSt) : (setV r t x).rqspill = x.rqspill := rfl
@[simp] theorem setV_spillArea (r : Nat) (t : Tile) (x : CoreSt) : (setV r t x).spillArea = x.spillArea := rfl
@[simp] theorem setV_trec (r : Nat) (t : Tile) (x : CoreSt) : (setV r t x).trec = x.trec := rfl
@[simp] theorem setV_fcsr (r : Nat) (t : Tile) (x : CoreSt) : (setV r t x).fcsr = x.fcsr := rfl
@[simp] theorem setV_tshape (r : Nat) (t : Tile) (x : CoreSt) : (setV r t x).tshape = x.tshape := rfl
@[simp] theorem setV_rngkey (r : Nat) (t : Tile) (x : CoreSt) : (setV r t x).rngkey = x.rngkey := rfl
@[simp] theorem setV_rngcnt (r : Nat) (t : Tile) (x : CoreSt) : (setV r t x).rngcnt = x.rngcnt := rfl
@[simp] theorem setV_cnt (r : Nat) (t : Tile) (x : CoreSt) : (setV r t x).cnt = x.cnt := rfl
@[simp] theorem setV_evsel (r : Nat) (t : Tile) (x : CoreSt) : (setV r t x).evsel = x.evsel := rfl
@[simp] theorem setV_trcbase (r : Nat) (t : Tile) (x : CoreSt) : (setV r t x).trcbase = x.trcbase := rfl
@[simp] theorem setV_trcctl (r : Nat) (t : Tile) (x : CoreSt) : (setV r t x).trcctl = x.trcctl := rfl
@[simp] theorem setV_trchead (r : Nat) (t : Tile) (x : CoreSt) : (setV r t x).trchead = x.trchead := rfl
@[simp] theorem setV_trcread (r : Nat) (t : Tile) (x : CoreSt) : (setV r t x).trcread = x.trcread := rfl
@[simp] theorem setV_trcLast (r : Nat) (t : Tile) (x : CoreSt) : (setV r t x).trcLast = x.trcLast := rfl
@[simp] theorem setV_run (r : Nat) (t : Tile) (x : CoreSt) : (setV r t x).run = x.run := rfl
@[simp] theorem setV_stall (r : Nat) (t : Tile) (x : CoreSt) : (setV r t x).stall = x.stall := rfl
@[simp] theorem setV_since (r : Nat) (t : Tile) (x : CoreSt) : (setV r t x).since = x.since := rfl
@[simp] theorem setV_haveTask (r : Nat) (t : Tile) (x : CoreSt) : (setV r t x).haveTask = x.haveTask := rfl
@[simp] theorem setV_gtid (r : Nat) (t : Tile) (x : CoreSt) : (setV r t x).gtid = x.gtid := rfl
@[simp] theorem setV_ctl (r : Nat) (t : Tile) (x : CoreSt) : (setV r t x).ctl = x.ctl := rfl
@[simp] theorem setV_joinw (r : Nat) (t : Tile) (x : CoreSt) : (setV r t x).joinw = x.joinw := rfl
@[simp] theorem setV_member (r : Nat) (t : Tile) (x : CoreSt) : (setV r t x).member = x.member := rfl
@[simp] theorem setV_memberSlot (r : Nat) (t : Tile) (x : CoreSt) : (setV r t x).memberSlot = x.memberSlot := rfl
@[simp] theorem setV_picking (r : Nat) (t : Tile) (x : CoreSt) : (setV r t x).picking = x.picking := rfl
@[simp] theorem setV_seq (r : Nat) (t : Tile) (x : CoreSt) : (setV r t x).seq = x.seq := rfl
@[simp] theorem setV_fifo0 (r : Nat) (t : Tile) (x : CoreSt) : (setV r t x).fifo0 = x.fifo0 := rfl
@[simp] theorem setV_fifo1 (r : Nat) (t : Tile) (x : CoreSt) : (setV r t x).fifo1 = x.fifo1 := rfl
@[simp] theorem setV_fifo2 (r : Nat) (t : Tile) (x : CoreSt) : (setV r t x).fifo2 = x.fifo2 := rfl
@[simp] theorem setV_deque (r : Nat) (t : Tile) (x : CoreSt) : (setV r t x).deque = x.deque := rfl
@[simp] theorem setV_hslots (r : Nat) (t : Tile) (x : CoreSt) : (setV r t x).hslots = x.hslots := rfl
@[simp] theorem setV_pushes (r : Nat) (t : Tile) (x : CoreSt) : (setV r t x).pushes = x.pushes := rfl
@[simp] theorem setV_tags (r : Nat) (t : Tile) (x : CoreSt) : (setV r t x).tags = x.tags := rfl
@[simp] theorem setV_seen (r : Nat) (t : Tile) (x : CoreSt) : (setV r t x).seen = x.seen := rfl
@[simp] theorem setV_inbox (r : Nat) (t : Tile) (x : CoreSt) : (setV r t x).inbox = x.inbox := rfl
@[simp] theorem setV_waits (r : Nat) (t : Tile) (x : CoreSt) : (setV r t x).waits = x.waits := rfl
@[simp] theorem setV_links (r : Nat) (t : Tile) (x : CoreSt) : (setV r t x).links = x.links := rfl
@[simp] theorem setV_ports (r : Nat) (t : Tile) (x : CoreSt) : (setV r t x).ports = x.ports := rfl
@[simp] theorem setV_windows (r : Nat) (t : Tile) (x : CoreSt) : (setV r t x).windows = x.windows := rfl
@[simp] theorem setV_redo (r : Nat) (t : Tile) (x : CoreSt) : (setV r t x).redo = x.redo := rfl
@[simp] theorem setV_ereting (r : Nat) (t : Tile) (x : CoreSt) : (setV r t x).ereting = x.ereting := rfl
@[simp] theorem setV_aborted (r : Nat) (t : Tile) (x : CoreSt) : (setV r t x).aborted = x.aborted := rfl
@[simp] theorem setV_scb (r : Nat) (t : Tile) (x : CoreSt) : (setV r t x).scb = x.scb := rfl
@[simp] theorem setV_resv (r : Nat) (t : Tile) (x : CoreSt) : (setV r t x).resv = x.resv := rfl
@[simp] theorem setV_l0 (r : Nat) (t : Tile) (x : CoreSt) : (setV r t x).l0 = x.l0 := rfl
@[simp] theorem setV_i0 (r : Nat) (t : Tile) (x : CoreSt) : (setV r t x).i0 = x.i0 := rfl
@[simp] theorem setV_fbuf (r : Nat) (t : Tile) (x : CoreSt) : (setV r t x).fbuf = x.fbuf := rfl
@[simp] theorem setV_pred (r : Nat) (t : Tile) (x : CoreSt) : (setV r t x).pred = x.pred := rfl
@[simp] theorem setV_copies (r : Nat) (t : Tile) (x : CoreSt) : (setV r t x).copies = x.copies := rfl
@[simp] theorem setV_sharers (r : Nat) (t : Tile) (x : CoreSt) : (setV r t x).sharers = x.sharers := rfl
@[simp] theorem setV_l1 (r : Nat) (t : Tile) (x : CoreSt) : (setV r t x).l1 = x.l1 := rfl
@[simp] theorem setV_sp (r : Nat) (t : Tile) (x : CoreSt) : (setV r t x).sp = x.sp := rfl
@[simp] theorem setV_full (r : Nat) (t : Tile) (x : CoreSt) : (setV r t x).full = x.full := rfl
@[simp] theorem setV_owner (r : Nat) (t : Tile) (x : CoreSt) : (setV r t x).owner = x.owner := rfl
@[simp] theorem setV_spBad (r : Nat) (t : Tile) (x : CoreSt) : (setV r t x).spBad = x.spBad := rfl
@[simp] theorem setV_spPois (r : Nat) (t : Tile) (x : CoreSt) : (setV r t x).spPois = x.spPois := rfl
@[simp] theorem setV_waiters (r : Nat) (t : Tile) (x : CoreSt) : (setV r t x).waiters = x.waiters := rfl
@[simp] theorem setV_nacked (r : Nat) (t : Tile) (x : CoreSt) : (setV r t x).nacked = x.nacked := rfl
@[simp] theorem setV_remq (r : Nat) (t : Tile) (x : CoreSt) : (setV r t x).remq = x.remq := rfl
@[simp] theorem setV_ganged (r : Nat) (t : Tile) (x : CoreSt) : (setV r t x).ganged = x.ganged := rfl
@[simp] theorem setV_gangCnt (r : Nat) (t : Tile) (x : CoreSt) : (setV r t x).gangCnt = x.gangCnt := rfl
@[simp] theorem setV_gangWait (r : Nat) (t : Tile) (x : CoreSt) : (setV r t x).gangWait = x.gangWait := rfl
@[simp] theorem setV_prevTiles (r : Nat) (t : Tile) (x : CoreSt) : (setV r t x).prevTiles = x.prevTiles := rfl
@[simp] theorem setV_trapQ (r : Nat) (t : Tile) (x : CoreSt) : (setV r t x).trapQ = x.trapQ := rfl
@[simp] theorem setV_stepPend (r : Nat) (t : Tile) (x : CoreSt) : (setV r t x).stepPend = x.stepPend := rfl
@[simp] theorem setV_bkpPend (r : Nat) (t : Tile) (x : CoreSt) : (setV r t x).bkpPend = x.bkpPend := rfl
@[simp] theorem setV_hangPend (r : Nat) (t : Tile) (x : CoreSt) : (setV r t x).hangPend = x.hangPend := rfl
@[simp] theorem setV_ovfPend (r : Nat) (t : Tile) (x : CoreSt) : (setV r t x).ovfPend = x.ovfPend := rfl
@[simp] theorem setV_spillPend (r : Nat) (t : Tile) (x : CoreSt) : (setV r t x).spillPend = x.spillPend := rfl
@[simp] theorem setV_barArrived (r : Nat) (t : Tile) (x : CoreSt) : (setV r t x).barArrived = x.barArrived := rfl
@[simp] theorem setV_sendReq (r : Nat) (t : Tile) (x : CoreSt) : (setV r t x).sendReq = x.sendReq := rfl
@[simp] theorem setV_leaseReq (r : Nat) (t : Tile) (x : CoreSt) : (setV r t x).leaseReq = x.leaseReq := rfl
@[simp] theorem setV_steFault (r : Nat) (t : Tile) (x : CoreSt) : (setV r t x).steFault = x.steFault := rfl
@[simp] theorem setV_sleepAt (r : Nat) (t : Tile) (x : CoreSt) : (setV r t x).sleepAt = x.sleepAt := rfl
@[simp] theorem setV_waker (r : Nat) (t : Tile) (x : CoreSt) : (setV r t x).waker = x.waker := rfl
@[simp] theorem setV_barn (r : Nat) (t : Tile) (x : CoreSt) : (setV r t x).barn = x.barn := rfl
@[simp] theorem setV_badX (r : Nat) (t : Tile) (x : CoreSt) : (setV r t x).badX = x.badX := rfl
@[simp] theorem setV_fpDiv (r : Nat) (t : Tile) (x : CoreSt) : (setV r t x).fpDiv = x.fpDiv := rfl
@[simp] theorem setV_rpWait (r : Nat) (t : Tile) (x : CoreSt) : (setV r t x).rpWait = x.rpWait := rfl
@[simp] theorem setV_ilWait (r : Nat) (t : Tile) (x : CoreSt) : (setV r t x).ilWait = x.ilWait := rfl
@[simp] theorem setV_logSeq (r : Nat) (t : Tile) (x : CoreSt) : (setV r t x).logSeq = x.logSeq := rfl
@[simp] theorem accrue_regs (fl : Nat) (x : CoreSt) : (accrue fl x).regs = x.regs := rfl
@[simp] theorem accrue_tiles (fl : Nat) (x : CoreSt) : (accrue fl x).tiles = x.tiles := rfl
@[simp] theorem accrue_pc (fl : Nat) (x : CoreSt) : (accrue fl x).pc = x.pc := rfl
@[simp] theorem accrue_status (fl : Nat) (x : CoreSt) : (accrue fl x).status = x.status := rfl
@[simp] theorem accrue_cause (fl : Nat) (x : CoreSt) : (accrue fl x).cause = x.cause := rfl
@[simp] theorem accrue_epc (fl : Nat) (x : CoreSt) : (accrue fl x).epc = x.epc := rfl
@[simp] theorem accrue_tval (fl : Nat) (x : CoreSt) : (accrue fl x).tval = x.tval := rfl
@[simp] theorem accrue_tvec (fl : Nat) (x : CoreSt) : (accrue fl x).tvec = x.tvec := rfl
@[simp] theorem accrue_sscratch (fl : Nat) (x : CoreSt) : (accrue fl x).sscratch = x.sscratch := rfl
@[simp] theorem accrue_law0 (fl : Nat) (x : CoreSt) : (accrue fl x).law0 = x.law0 := rfl
@[simp] theorem accrue_law1 (fl : Nat) (x : CoreSt) : (accrue fl x).law1 = x.law1 := rfl
@[simp] theorem accrue_law2 (fl : Nat) (x : CoreSt) : (accrue fl x).law2 = x.law2 := rfl
@[simp] theorem accrue_law3 (fl : Nat) (x : CoreSt) : (accrue fl x).law3 = x.law3 := rfl
@[simp] theorem accrue_dbgctl (fl : Nat) (x : CoreSt) : (accrue fl x).dbgctl = x.dbgctl := rfl
@[simp] theorem accrue_vmroot (fl : Nat) (x : CoreSt) : (accrue fl x).vmroot = x.vmroot := rfl
@[simp] theorem accrue_spcfg (fl : Nat) (x : CoreSt) : (accrue fl x).spcfg = x.spcfg := rfl
@[simp] theorem accrue_spNew (fl : Nat) (x : CoreSt) : (accrue fl x).spNew = x.spNew := rfl
@[simp] theorem accrue_migcfg (fl : Nat) (x : CoreSt) : (accrue fl x).migcfg = x.migcfg := rfl
@[simp] theorem accrue_rqspill (fl : Nat) (x : CoreSt) : (accrue fl x).rqspill = x.rqspill := rfl
@[simp] theorem accrue_spillArea (fl : Nat) (x : CoreSt) : (accrue fl x).spillArea = x.spillArea := rfl
@[simp] theorem accrue_trec (fl : Nat) (x : CoreSt) : (accrue fl x).trec = x.trec := rfl
@[simp] theorem accrue_tshape (fl : Nat) (x : CoreSt) : (accrue fl x).tshape = x.tshape := rfl
@[simp] theorem accrue_tileuse (fl : Nat) (x : CoreSt) : (accrue fl x).tileuse = x.tileuse := rfl
@[simp] theorem accrue_rngkey (fl : Nat) (x : CoreSt) : (accrue fl x).rngkey = x.rngkey := rfl
@[simp] theorem accrue_rngcnt (fl : Nat) (x : CoreSt) : (accrue fl x).rngcnt = x.rngcnt := rfl
@[simp] theorem accrue_cnt (fl : Nat) (x : CoreSt) : (accrue fl x).cnt = x.cnt := rfl
@[simp] theorem accrue_evsel (fl : Nat) (x : CoreSt) : (accrue fl x).evsel = x.evsel := rfl
@[simp] theorem accrue_trcbase (fl : Nat) (x : CoreSt) : (accrue fl x).trcbase = x.trcbase := rfl
@[simp] theorem accrue_trcctl (fl : Nat) (x : CoreSt) : (accrue fl x).trcctl = x.trcctl := rfl
@[simp] theorem accrue_trchead (fl : Nat) (x : CoreSt) : (accrue fl x).trchead = x.trchead := rfl
@[simp] theorem accrue_trcread (fl : Nat) (x : CoreSt) : (accrue fl x).trcread = x.trcread := rfl
@[simp] theorem accrue_trcLast (fl : Nat) (x : CoreSt) : (accrue fl x).trcLast = x.trcLast := rfl
@[simp] theorem accrue_run (fl : Nat) (x : CoreSt) : (accrue fl x).run = x.run := rfl
@[simp] theorem accrue_stall (fl : Nat) (x : CoreSt) : (accrue fl x).stall = x.stall := rfl
@[simp] theorem accrue_since (fl : Nat) (x : CoreSt) : (accrue fl x).since = x.since := rfl
@[simp] theorem accrue_haveTask (fl : Nat) (x : CoreSt) : (accrue fl x).haveTask = x.haveTask := rfl
@[simp] theorem accrue_gtid (fl : Nat) (x : CoreSt) : (accrue fl x).gtid = x.gtid := rfl
@[simp] theorem accrue_ctl (fl : Nat) (x : CoreSt) : (accrue fl x).ctl = x.ctl := rfl
@[simp] theorem accrue_joinw (fl : Nat) (x : CoreSt) : (accrue fl x).joinw = x.joinw := rfl
@[simp] theorem accrue_member (fl : Nat) (x : CoreSt) : (accrue fl x).member = x.member := rfl
@[simp] theorem accrue_memberSlot (fl : Nat) (x : CoreSt) : (accrue fl x).memberSlot = x.memberSlot := rfl
@[simp] theorem accrue_picking (fl : Nat) (x : CoreSt) : (accrue fl x).picking = x.picking := rfl
@[simp] theorem accrue_seq (fl : Nat) (x : CoreSt) : (accrue fl x).seq = x.seq := rfl
@[simp] theorem accrue_fifo0 (fl : Nat) (x : CoreSt) : (accrue fl x).fifo0 = x.fifo0 := rfl
@[simp] theorem accrue_fifo1 (fl : Nat) (x : CoreSt) : (accrue fl x).fifo1 = x.fifo1 := rfl
@[simp] theorem accrue_fifo2 (fl : Nat) (x : CoreSt) : (accrue fl x).fifo2 = x.fifo2 := rfl
@[simp] theorem accrue_deque (fl : Nat) (x : CoreSt) : (accrue fl x).deque = x.deque := rfl
@[simp] theorem accrue_hslots (fl : Nat) (x : CoreSt) : (accrue fl x).hslots = x.hslots := rfl
@[simp] theorem accrue_pushes (fl : Nat) (x : CoreSt) : (accrue fl x).pushes = x.pushes := rfl
@[simp] theorem accrue_tags (fl : Nat) (x : CoreSt) : (accrue fl x).tags = x.tags := rfl
@[simp] theorem accrue_seen (fl : Nat) (x : CoreSt) : (accrue fl x).seen = x.seen := rfl
@[simp] theorem accrue_inbox (fl : Nat) (x : CoreSt) : (accrue fl x).inbox = x.inbox := rfl
@[simp] theorem accrue_waits (fl : Nat) (x : CoreSt) : (accrue fl x).waits = x.waits := rfl
@[simp] theorem accrue_links (fl : Nat) (x : CoreSt) : (accrue fl x).links = x.links := rfl
@[simp] theorem accrue_ports (fl : Nat) (x : CoreSt) : (accrue fl x).ports = x.ports := rfl
@[simp] theorem accrue_windows (fl : Nat) (x : CoreSt) : (accrue fl x).windows = x.windows := rfl
@[simp] theorem accrue_redo (fl : Nat) (x : CoreSt) : (accrue fl x).redo = x.redo := rfl
@[simp] theorem accrue_ereting (fl : Nat) (x : CoreSt) : (accrue fl x).ereting = x.ereting := rfl
@[simp] theorem accrue_aborted (fl : Nat) (x : CoreSt) : (accrue fl x).aborted = x.aborted := rfl
@[simp] theorem accrue_scb (fl : Nat) (x : CoreSt) : (accrue fl x).scb = x.scb := rfl
@[simp] theorem accrue_resv (fl : Nat) (x : CoreSt) : (accrue fl x).resv = x.resv := rfl
@[simp] theorem accrue_l0 (fl : Nat) (x : CoreSt) : (accrue fl x).l0 = x.l0 := rfl
@[simp] theorem accrue_i0 (fl : Nat) (x : CoreSt) : (accrue fl x).i0 = x.i0 := rfl
@[simp] theorem accrue_fbuf (fl : Nat) (x : CoreSt) : (accrue fl x).fbuf = x.fbuf := rfl
@[simp] theorem accrue_pred (fl : Nat) (x : CoreSt) : (accrue fl x).pred = x.pred := rfl
@[simp] theorem accrue_copies (fl : Nat) (x : CoreSt) : (accrue fl x).copies = x.copies := rfl
@[simp] theorem accrue_sharers (fl : Nat) (x : CoreSt) : (accrue fl x).sharers = x.sharers := rfl
@[simp] theorem accrue_l1 (fl : Nat) (x : CoreSt) : (accrue fl x).l1 = x.l1 := rfl
@[simp] theorem accrue_sp (fl : Nat) (x : CoreSt) : (accrue fl x).sp = x.sp := rfl
@[simp] theorem accrue_full (fl : Nat) (x : CoreSt) : (accrue fl x).full = x.full := rfl
@[simp] theorem accrue_owner (fl : Nat) (x : CoreSt) : (accrue fl x).owner = x.owner := rfl
@[simp] theorem accrue_spBad (fl : Nat) (x : CoreSt) : (accrue fl x).spBad = x.spBad := rfl
@[simp] theorem accrue_spPois (fl : Nat) (x : CoreSt) : (accrue fl x).spPois = x.spPois := rfl
@[simp] theorem accrue_waiters (fl : Nat) (x : CoreSt) : (accrue fl x).waiters = x.waiters := rfl
@[simp] theorem accrue_nacked (fl : Nat) (x : CoreSt) : (accrue fl x).nacked = x.nacked := rfl
@[simp] theorem accrue_remq (fl : Nat) (x : CoreSt) : (accrue fl x).remq = x.remq := rfl
@[simp] theorem accrue_ganged (fl : Nat) (x : CoreSt) : (accrue fl x).ganged = x.ganged := rfl
@[simp] theorem accrue_gangCnt (fl : Nat) (x : CoreSt) : (accrue fl x).gangCnt = x.gangCnt := rfl
@[simp] theorem accrue_gangWait (fl : Nat) (x : CoreSt) : (accrue fl x).gangWait = x.gangWait := rfl
@[simp] theorem accrue_prevTiles (fl : Nat) (x : CoreSt) : (accrue fl x).prevTiles = x.prevTiles := rfl
@[simp] theorem accrue_trapQ (fl : Nat) (x : CoreSt) : (accrue fl x).trapQ = x.trapQ := rfl
@[simp] theorem accrue_stepPend (fl : Nat) (x : CoreSt) : (accrue fl x).stepPend = x.stepPend := rfl
@[simp] theorem accrue_bkpPend (fl : Nat) (x : CoreSt) : (accrue fl x).bkpPend = x.bkpPend := rfl
@[simp] theorem accrue_hangPend (fl : Nat) (x : CoreSt) : (accrue fl x).hangPend = x.hangPend := rfl
@[simp] theorem accrue_ovfPend (fl : Nat) (x : CoreSt) : (accrue fl x).ovfPend = x.ovfPend := rfl
@[simp] theorem accrue_spillPend (fl : Nat) (x : CoreSt) : (accrue fl x).spillPend = x.spillPend := rfl
@[simp] theorem accrue_barArrived (fl : Nat) (x : CoreSt) : (accrue fl x).barArrived = x.barArrived := rfl
@[simp] theorem accrue_sendReq (fl : Nat) (x : CoreSt) : (accrue fl x).sendReq = x.sendReq := rfl
@[simp] theorem accrue_leaseReq (fl : Nat) (x : CoreSt) : (accrue fl x).leaseReq = x.leaseReq := rfl
@[simp] theorem accrue_steFault (fl : Nat) (x : CoreSt) : (accrue fl x).steFault = x.steFault := rfl
@[simp] theorem accrue_sleepAt (fl : Nat) (x : CoreSt) : (accrue fl x).sleepAt = x.sleepAt := rfl
@[simp] theorem accrue_waker (fl : Nat) (x : CoreSt) : (accrue fl x).waker = x.waker := rfl
@[simp] theorem accrue_barn (fl : Nat) (x : CoreSt) : (accrue fl x).barn = x.barn := rfl
@[simp] theorem accrue_badX (fl : Nat) (x : CoreSt) : (accrue fl x).badX = x.badX := rfl
@[simp] theorem accrue_badT (fl : Nat) (x : CoreSt) : (accrue fl x).badT = x.badT := rfl
@[simp] theorem accrue_fpDiv (fl : Nat) (x : CoreSt) : (accrue fl x).fpDiv = x.fpDiv := rfl
@[simp] theorem accrue_rpWait (fl : Nat) (x : CoreSt) : (accrue fl x).rpWait = x.rpWait := rfl
@[simp] theorem accrue_ilWait (fl : Nat) (x : CoreSt) : (accrue fl x).ilWait = x.ilWait := rfl
@[simp] theorem accrue_logSeq (fl : Nat) (x : CoreSt) : (accrue fl x).logSeq = x.logSeq := rfl
@[simp] theorem closeWins_regs (x : CoreSt) : (closeWins x).regs = x.regs := rfl
@[simp] theorem closeWins_tiles (x : CoreSt) : (closeWins x).tiles = x.tiles := rfl
@[simp] theorem closeWins_pc (x : CoreSt) : (closeWins x).pc = x.pc := rfl
@[simp] theorem closeWins_status (x : CoreSt) : (closeWins x).status = x.status := rfl
@[simp] theorem closeWins_cause (x : CoreSt) : (closeWins x).cause = x.cause := rfl
@[simp] theorem closeWins_epc (x : CoreSt) : (closeWins x).epc = x.epc := rfl
@[simp] theorem closeWins_tval (x : CoreSt) : (closeWins x).tval = x.tval := rfl
@[simp] theorem closeWins_tvec (x : CoreSt) : (closeWins x).tvec = x.tvec := rfl
@[simp] theorem closeWins_sscratch (x : CoreSt) : (closeWins x).sscratch = x.sscratch := rfl
@[simp] theorem closeWins_law0 (x : CoreSt) : (closeWins x).law0 = x.law0 := rfl
@[simp] theorem closeWins_law1 (x : CoreSt) : (closeWins x).law1 = x.law1 := rfl
@[simp] theorem closeWins_law2 (x : CoreSt) : (closeWins x).law2 = x.law2 := rfl
@[simp] theorem closeWins_law3 (x : CoreSt) : (closeWins x).law3 = x.law3 := rfl
@[simp] theorem closeWins_dbgctl (x : CoreSt) : (closeWins x).dbgctl = x.dbgctl := rfl
@[simp] theorem closeWins_vmroot (x : CoreSt) : (closeWins x).vmroot = x.vmroot := rfl
@[simp] theorem closeWins_spcfg (x : CoreSt) : (closeWins x).spcfg = x.spcfg := rfl
@[simp] theorem closeWins_spNew (x : CoreSt) : (closeWins x).spNew = x.spNew := rfl
@[simp] theorem closeWins_migcfg (x : CoreSt) : (closeWins x).migcfg = x.migcfg := rfl
@[simp] theorem closeWins_rqspill (x : CoreSt) : (closeWins x).rqspill = x.rqspill := rfl
@[simp] theorem closeWins_spillArea (x : CoreSt) : (closeWins x).spillArea = x.spillArea := rfl
@[simp] theorem closeWins_trec (x : CoreSt) : (closeWins x).trec = x.trec := rfl
@[simp] theorem closeWins_fcsr (x : CoreSt) : (closeWins x).fcsr = x.fcsr := rfl
@[simp] theorem closeWins_tshape (x : CoreSt) : (closeWins x).tshape = x.tshape := rfl
@[simp] theorem closeWins_tileuse (x : CoreSt) : (closeWins x).tileuse = x.tileuse := rfl
@[simp] theorem closeWins_rngkey (x : CoreSt) : (closeWins x).rngkey = x.rngkey := rfl
@[simp] theorem closeWins_rngcnt (x : CoreSt) : (closeWins x).rngcnt = x.rngcnt := rfl
@[simp] theorem closeWins_cnt (x : CoreSt) : (closeWins x).cnt = x.cnt := rfl
@[simp] theorem closeWins_evsel (x : CoreSt) : (closeWins x).evsel = x.evsel := rfl
@[simp] theorem closeWins_trcbase (x : CoreSt) : (closeWins x).trcbase = x.trcbase := rfl
@[simp] theorem closeWins_trcctl (x : CoreSt) : (closeWins x).trcctl = x.trcctl := rfl
@[simp] theorem closeWins_trchead (x : CoreSt) : (closeWins x).trchead = x.trchead := rfl
@[simp] theorem closeWins_trcread (x : CoreSt) : (closeWins x).trcread = x.trcread := rfl
@[simp] theorem closeWins_trcLast (x : CoreSt) : (closeWins x).trcLast = x.trcLast := rfl
@[simp] theorem closeWins_run (x : CoreSt) : (closeWins x).run = x.run := rfl
@[simp] theorem closeWins_stall (x : CoreSt) : (closeWins x).stall = x.stall := rfl
@[simp] theorem closeWins_since (x : CoreSt) : (closeWins x).since = x.since := rfl
@[simp] theorem closeWins_haveTask (x : CoreSt) : (closeWins x).haveTask = x.haveTask := rfl
@[simp] theorem closeWins_gtid (x : CoreSt) : (closeWins x).gtid = x.gtid := rfl
@[simp] theorem closeWins_ctl (x : CoreSt) : (closeWins x).ctl = x.ctl := rfl
@[simp] theorem closeWins_joinw (x : CoreSt) : (closeWins x).joinw = x.joinw := rfl
@[simp] theorem closeWins_member (x : CoreSt) : (closeWins x).member = x.member := rfl
@[simp] theorem closeWins_memberSlot (x : CoreSt) : (closeWins x).memberSlot = x.memberSlot := rfl
@[simp] theorem closeWins_picking (x : CoreSt) : (closeWins x).picking = x.picking := rfl
@[simp] theorem closeWins_seq (x : CoreSt) : (closeWins x).seq = x.seq := rfl
@[simp] theorem closeWins_fifo0 (x : CoreSt) : (closeWins x).fifo0 = x.fifo0 := rfl
@[simp] theorem closeWins_fifo1 (x : CoreSt) : (closeWins x).fifo1 = x.fifo1 := rfl
@[simp] theorem closeWins_fifo2 (x : CoreSt) : (closeWins x).fifo2 = x.fifo2 := rfl
@[simp] theorem closeWins_deque (x : CoreSt) : (closeWins x).deque = x.deque := rfl
@[simp] theorem closeWins_hslots (x : CoreSt) : (closeWins x).hslots = x.hslots := rfl
@[simp] theorem closeWins_pushes (x : CoreSt) : (closeWins x).pushes = x.pushes := rfl
@[simp] theorem closeWins_tags (x : CoreSt) : (closeWins x).tags = x.tags := rfl
@[simp] theorem closeWins_seen (x : CoreSt) : (closeWins x).seen = x.seen := rfl
@[simp] theorem closeWins_inbox (x : CoreSt) : (closeWins x).inbox = x.inbox := rfl
@[simp] theorem closeWins_waits (x : CoreSt) : (closeWins x).waits = x.waits := rfl
@[simp] theorem closeWins_links (x : CoreSt) : (closeWins x).links = x.links := rfl
@[simp] theorem closeWins_ports (x : CoreSt) : (closeWins x).ports = x.ports := rfl
@[simp] theorem closeWins_redo (x : CoreSt) : (closeWins x).redo = x.redo := rfl
@[simp] theorem closeWins_ereting (x : CoreSt) : (closeWins x).ereting = x.ereting := rfl
@[simp] theorem closeWins_aborted (x : CoreSt) : (closeWins x).aborted = x.aborted := rfl
@[simp] theorem closeWins_scb (x : CoreSt) : (closeWins x).scb = x.scb := rfl
@[simp] theorem closeWins_resv (x : CoreSt) : (closeWins x).resv = x.resv := rfl
@[simp] theorem closeWins_l0 (x : CoreSt) : (closeWins x).l0 = x.l0 := rfl
@[simp] theorem closeWins_i0 (x : CoreSt) : (closeWins x).i0 = x.i0 := rfl
@[simp] theorem closeWins_fbuf (x : CoreSt) : (closeWins x).fbuf = x.fbuf := rfl
@[simp] theorem closeWins_pred (x : CoreSt) : (closeWins x).pred = x.pred := rfl
@[simp] theorem closeWins_copies (x : CoreSt) : (closeWins x).copies = x.copies := rfl
@[simp] theorem closeWins_sharers (x : CoreSt) : (closeWins x).sharers = x.sharers := rfl
@[simp] theorem closeWins_l1 (x : CoreSt) : (closeWins x).l1 = x.l1 := rfl
@[simp] theorem closeWins_sp (x : CoreSt) : (closeWins x).sp = x.sp := rfl
@[simp] theorem closeWins_full (x : CoreSt) : (closeWins x).full = x.full := rfl
@[simp] theorem closeWins_owner (x : CoreSt) : (closeWins x).owner = x.owner := rfl
@[simp] theorem closeWins_spBad (x : CoreSt) : (closeWins x).spBad = x.spBad := rfl
@[simp] theorem closeWins_spPois (x : CoreSt) : (closeWins x).spPois = x.spPois := rfl
@[simp] theorem closeWins_waiters (x : CoreSt) : (closeWins x).waiters = x.waiters := rfl
@[simp] theorem closeWins_nacked (x : CoreSt) : (closeWins x).nacked = x.nacked := rfl
@[simp] theorem closeWins_remq (x : CoreSt) : (closeWins x).remq = x.remq := rfl
@[simp] theorem closeWins_ganged (x : CoreSt) : (closeWins x).ganged = x.ganged := rfl
@[simp] theorem closeWins_gangCnt (x : CoreSt) : (closeWins x).gangCnt = x.gangCnt := rfl
@[simp] theorem closeWins_gangWait (x : CoreSt) : (closeWins x).gangWait = x.gangWait := rfl
@[simp] theorem closeWins_prevTiles (x : CoreSt) : (closeWins x).prevTiles = x.prevTiles := rfl
@[simp] theorem closeWins_trapQ (x : CoreSt) : (closeWins x).trapQ = x.trapQ := rfl
@[simp] theorem closeWins_stepPend (x : CoreSt) : (closeWins x).stepPend = x.stepPend := rfl
@[simp] theorem closeWins_bkpPend (x : CoreSt) : (closeWins x).bkpPend = x.bkpPend := rfl
@[simp] theorem closeWins_hangPend (x : CoreSt) : (closeWins x).hangPend = x.hangPend := rfl
@[simp] theorem closeWins_ovfPend (x : CoreSt) : (closeWins x).ovfPend = x.ovfPend := rfl
@[simp] theorem closeWins_spillPend (x : CoreSt) : (closeWins x).spillPend = x.spillPend := rfl
@[simp] theorem closeWins_barArrived (x : CoreSt) : (closeWins x).barArrived = x.barArrived := rfl
@[simp] theorem closeWins_sendReq (x : CoreSt) : (closeWins x).sendReq = x.sendReq := rfl
@[simp] theorem closeWins_leaseReq (x : CoreSt) : (closeWins x).leaseReq = x.leaseReq := rfl
@[simp] theorem closeWins_steFault (x : CoreSt) : (closeWins x).steFault = x.steFault := rfl
@[simp] theorem closeWins_sleepAt (x : CoreSt) : (closeWins x).sleepAt = x.sleepAt := rfl
@[simp] theorem closeWins_waker (x : CoreSt) : (closeWins x).waker = x.waker := rfl
@[simp] theorem closeWins_barn (x : CoreSt) : (closeWins x).barn = x.barn := rfl
@[simp] theorem closeWins_badX (x : CoreSt) : (closeWins x).badX = x.badX := rfl
@[simp] theorem closeWins_badT (x : CoreSt) : (closeWins x).badT = x.badT := rfl
@[simp] theorem closeWins_fpDiv (x : CoreSt) : (closeWins x).fpDiv = x.fpDiv := rfl
@[simp] theorem closeWins_rpWait (x : CoreSt) : (closeWins x).rpWait = x.rpWait := rfl
@[simp] theorem closeWins_ilWait (x : CoreSt) : (closeWins x).ilWait = x.ilWait := rfl
@[simp] theorem closeWins_logSeq (x : CoreSt) : (closeWins x).logSeq = x.logSeq := rfl
@[simp] theorem openWin_regs (p la : Nat) (dx dv : List Nat) (st : WinSt) (xv : List (Nat × Word)) (tv : List (Nat × Tile)) (fl : Nat) (tx : List (Nat × Nat)) (x : CoreSt) : (openWin p la dx dv st xv tv fl tx x).regs = x.regs := rfl
@[simp] theorem openWin_tiles (p la : Nat) (dx dv : List Nat) (st : WinSt) (xv : List (Nat × Word)) (tv : List (Nat × Tile)) (fl : Nat) (tx : List (Nat × Nat)) (x : CoreSt) : (openWin p la dx dv st xv tv fl tx x).tiles = x.tiles := rfl
@[simp] theorem openWin_pc (p la : Nat) (dx dv : List Nat) (st : WinSt) (xv : List (Nat × Word)) (tv : List (Nat × Tile)) (fl : Nat) (tx : List (Nat × Nat)) (x : CoreSt) : (openWin p la dx dv st xv tv fl tx x).pc = x.pc := rfl
@[simp] theorem openWin_status (p la : Nat) (dx dv : List Nat) (st : WinSt) (xv : List (Nat × Word)) (tv : List (Nat × Tile)) (fl : Nat) (tx : List (Nat × Nat)) (x : CoreSt) : (openWin p la dx dv st xv tv fl tx x).status = x.status := rfl
@[simp] theorem openWin_cause (p la : Nat) (dx dv : List Nat) (st : WinSt) (xv : List (Nat × Word)) (tv : List (Nat × Tile)) (fl : Nat) (tx : List (Nat × Nat)) (x : CoreSt) : (openWin p la dx dv st xv tv fl tx x).cause = x.cause := rfl
@[simp] theorem openWin_epc (p la : Nat) (dx dv : List Nat) (st : WinSt) (xv : List (Nat × Word)) (tv : List (Nat × Tile)) (fl : Nat) (tx : List (Nat × Nat)) (x : CoreSt) : (openWin p la dx dv st xv tv fl tx x).epc = x.epc := rfl
@[simp] theorem openWin_tval (p la : Nat) (dx dv : List Nat) (st : WinSt) (xv : List (Nat × Word)) (tv : List (Nat × Tile)) (fl : Nat) (tx : List (Nat × Nat)) (x : CoreSt) : (openWin p la dx dv st xv tv fl tx x).tval = x.tval := rfl
@[simp] theorem openWin_tvec (p la : Nat) (dx dv : List Nat) (st : WinSt) (xv : List (Nat × Word)) (tv : List (Nat × Tile)) (fl : Nat) (tx : List (Nat × Nat)) (x : CoreSt) : (openWin p la dx dv st xv tv fl tx x).tvec = x.tvec := rfl
@[simp] theorem openWin_sscratch (p la : Nat) (dx dv : List Nat) (st : WinSt) (xv : List (Nat × Word)) (tv : List (Nat × Tile)) (fl : Nat) (tx : List (Nat × Nat)) (x : CoreSt) : (openWin p la dx dv st xv tv fl tx x).sscratch = x.sscratch := rfl
@[simp] theorem openWin_law0 (p la : Nat) (dx dv : List Nat) (st : WinSt) (xv : List (Nat × Word)) (tv : List (Nat × Tile)) (fl : Nat) (tx : List (Nat × Nat)) (x : CoreSt) : (openWin p la dx dv st xv tv fl tx x).law0 = x.law0 := rfl
@[simp] theorem openWin_law1 (p la : Nat) (dx dv : List Nat) (st : WinSt) (xv : List (Nat × Word)) (tv : List (Nat × Tile)) (fl : Nat) (tx : List (Nat × Nat)) (x : CoreSt) : (openWin p la dx dv st xv tv fl tx x).law1 = x.law1 := rfl
@[simp] theorem openWin_law2 (p la : Nat) (dx dv : List Nat) (st : WinSt) (xv : List (Nat × Word)) (tv : List (Nat × Tile)) (fl : Nat) (tx : List (Nat × Nat)) (x : CoreSt) : (openWin p la dx dv st xv tv fl tx x).law2 = x.law2 := rfl
@[simp] theorem openWin_law3 (p la : Nat) (dx dv : List Nat) (st : WinSt) (xv : List (Nat × Word)) (tv : List (Nat × Tile)) (fl : Nat) (tx : List (Nat × Nat)) (x : CoreSt) : (openWin p la dx dv st xv tv fl tx x).law3 = x.law3 := rfl
@[simp] theorem openWin_dbgctl (p la : Nat) (dx dv : List Nat) (st : WinSt) (xv : List (Nat × Word)) (tv : List (Nat × Tile)) (fl : Nat) (tx : List (Nat × Nat)) (x : CoreSt) : (openWin p la dx dv st xv tv fl tx x).dbgctl = x.dbgctl := rfl
@[simp] theorem openWin_vmroot (p la : Nat) (dx dv : List Nat) (st : WinSt) (xv : List (Nat × Word)) (tv : List (Nat × Tile)) (fl : Nat) (tx : List (Nat × Nat)) (x : CoreSt) : (openWin p la dx dv st xv tv fl tx x).vmroot = x.vmroot := rfl
@[simp] theorem openWin_spcfg (p la : Nat) (dx dv : List Nat) (st : WinSt) (xv : List (Nat × Word)) (tv : List (Nat × Tile)) (fl : Nat) (tx : List (Nat × Nat)) (x : CoreSt) : (openWin p la dx dv st xv tv fl tx x).spcfg = x.spcfg := rfl
@[simp] theorem openWin_spNew (p la : Nat) (dx dv : List Nat) (st : WinSt) (xv : List (Nat × Word)) (tv : List (Nat × Tile)) (fl : Nat) (tx : List (Nat × Nat)) (x : CoreSt) : (openWin p la dx dv st xv tv fl tx x).spNew = x.spNew := rfl
@[simp] theorem openWin_migcfg (p la : Nat) (dx dv : List Nat) (st : WinSt) (xv : List (Nat × Word)) (tv : List (Nat × Tile)) (fl : Nat) (tx : List (Nat × Nat)) (x : CoreSt) : (openWin p la dx dv st xv tv fl tx x).migcfg = x.migcfg := rfl
@[simp] theorem openWin_rqspill (p la : Nat) (dx dv : List Nat) (st : WinSt) (xv : List (Nat × Word)) (tv : List (Nat × Tile)) (fl : Nat) (tx : List (Nat × Nat)) (x : CoreSt) : (openWin p la dx dv st xv tv fl tx x).rqspill = x.rqspill := rfl
@[simp] theorem openWin_spillArea (p la : Nat) (dx dv : List Nat) (st : WinSt) (xv : List (Nat × Word)) (tv : List (Nat × Tile)) (fl : Nat) (tx : List (Nat × Nat)) (x : CoreSt) : (openWin p la dx dv st xv tv fl tx x).spillArea = x.spillArea := rfl
@[simp] theorem openWin_trec (p la : Nat) (dx dv : List Nat) (st : WinSt) (xv : List (Nat × Word)) (tv : List (Nat × Tile)) (fl : Nat) (tx : List (Nat × Nat)) (x : CoreSt) : (openWin p la dx dv st xv tv fl tx x).trec = x.trec := rfl
@[simp] theorem openWin_fcsr (p la : Nat) (dx dv : List Nat) (st : WinSt) (xv : List (Nat × Word)) (tv : List (Nat × Tile)) (fl : Nat) (tx : List (Nat × Nat)) (x : CoreSt) : (openWin p la dx dv st xv tv fl tx x).fcsr = x.fcsr := rfl
@[simp] theorem openWin_tshape (p la : Nat) (dx dv : List Nat) (st : WinSt) (xv : List (Nat × Word)) (tv : List (Nat × Tile)) (fl : Nat) (tx : List (Nat × Nat)) (x : CoreSt) : (openWin p la dx dv st xv tv fl tx x).tshape = x.tshape := rfl
@[simp] theorem openWin_tileuse (p la : Nat) (dx dv : List Nat) (st : WinSt) (xv : List (Nat × Word)) (tv : List (Nat × Tile)) (fl : Nat) (tx : List (Nat × Nat)) (x : CoreSt) : (openWin p la dx dv st xv tv fl tx x).tileuse = x.tileuse := rfl
@[simp] theorem openWin_rngkey (p la : Nat) (dx dv : List Nat) (st : WinSt) (xv : List (Nat × Word)) (tv : List (Nat × Tile)) (fl : Nat) (tx : List (Nat × Nat)) (x : CoreSt) : (openWin p la dx dv st xv tv fl tx x).rngkey = x.rngkey := rfl
@[simp] theorem openWin_rngcnt (p la : Nat) (dx dv : List Nat) (st : WinSt) (xv : List (Nat × Word)) (tv : List (Nat × Tile)) (fl : Nat) (tx : List (Nat × Nat)) (x : CoreSt) : (openWin p la dx dv st xv tv fl tx x).rngcnt = x.rngcnt := rfl
@[simp] theorem openWin_cnt (p la : Nat) (dx dv : List Nat) (st : WinSt) (xv : List (Nat × Word)) (tv : List (Nat × Tile)) (fl : Nat) (tx : List (Nat × Nat)) (x : CoreSt) : (openWin p la dx dv st xv tv fl tx x).cnt = x.cnt := rfl
@[simp] theorem openWin_evsel (p la : Nat) (dx dv : List Nat) (st : WinSt) (xv : List (Nat × Word)) (tv : List (Nat × Tile)) (fl : Nat) (tx : List (Nat × Nat)) (x : CoreSt) : (openWin p la dx dv st xv tv fl tx x).evsel = x.evsel := rfl
@[simp] theorem openWin_trcbase (p la : Nat) (dx dv : List Nat) (st : WinSt) (xv : List (Nat × Word)) (tv : List (Nat × Tile)) (fl : Nat) (tx : List (Nat × Nat)) (x : CoreSt) : (openWin p la dx dv st xv tv fl tx x).trcbase = x.trcbase := rfl
@[simp] theorem openWin_trcctl (p la : Nat) (dx dv : List Nat) (st : WinSt) (xv : List (Nat × Word)) (tv : List (Nat × Tile)) (fl : Nat) (tx : List (Nat × Nat)) (x : CoreSt) : (openWin p la dx dv st xv tv fl tx x).trcctl = x.trcctl := rfl
@[simp] theorem openWin_trchead (p la : Nat) (dx dv : List Nat) (st : WinSt) (xv : List (Nat × Word)) (tv : List (Nat × Tile)) (fl : Nat) (tx : List (Nat × Nat)) (x : CoreSt) : (openWin p la dx dv st xv tv fl tx x).trchead = x.trchead := rfl
@[simp] theorem openWin_trcread (p la : Nat) (dx dv : List Nat) (st : WinSt) (xv : List (Nat × Word)) (tv : List (Nat × Tile)) (fl : Nat) (tx : List (Nat × Nat)) (x : CoreSt) : (openWin p la dx dv st xv tv fl tx x).trcread = x.trcread := rfl
@[simp] theorem openWin_trcLast (p la : Nat) (dx dv : List Nat) (st : WinSt) (xv : List (Nat × Word)) (tv : List (Nat × Tile)) (fl : Nat) (tx : List (Nat × Nat)) (x : CoreSt) : (openWin p la dx dv st xv tv fl tx x).trcLast = x.trcLast := rfl
@[simp] theorem openWin_run (p la : Nat) (dx dv : List Nat) (st : WinSt) (xv : List (Nat × Word)) (tv : List (Nat × Tile)) (fl : Nat) (tx : List (Nat × Nat)) (x : CoreSt) : (openWin p la dx dv st xv tv fl tx x).run = x.run := rfl
@[simp] theorem openWin_stall (p la : Nat) (dx dv : List Nat) (st : WinSt) (xv : List (Nat × Word)) (tv : List (Nat × Tile)) (fl : Nat) (tx : List (Nat × Nat)) (x : CoreSt) : (openWin p la dx dv st xv tv fl tx x).stall = x.stall := rfl
@[simp] theorem openWin_since (p la : Nat) (dx dv : List Nat) (st : WinSt) (xv : List (Nat × Word)) (tv : List (Nat × Tile)) (fl : Nat) (tx : List (Nat × Nat)) (x : CoreSt) : (openWin p la dx dv st xv tv fl tx x).since = x.since := rfl
@[simp] theorem openWin_haveTask (p la : Nat) (dx dv : List Nat) (st : WinSt) (xv : List (Nat × Word)) (tv : List (Nat × Tile)) (fl : Nat) (tx : List (Nat × Nat)) (x : CoreSt) : (openWin p la dx dv st xv tv fl tx x).haveTask = x.haveTask := rfl
@[simp] theorem openWin_gtid (p la : Nat) (dx dv : List Nat) (st : WinSt) (xv : List (Nat × Word)) (tv : List (Nat × Tile)) (fl : Nat) (tx : List (Nat × Nat)) (x : CoreSt) : (openWin p la dx dv st xv tv fl tx x).gtid = x.gtid := rfl
@[simp] theorem openWin_ctl (p la : Nat) (dx dv : List Nat) (st : WinSt) (xv : List (Nat × Word)) (tv : List (Nat × Tile)) (fl : Nat) (tx : List (Nat × Nat)) (x : CoreSt) : (openWin p la dx dv st xv tv fl tx x).ctl = x.ctl := rfl
@[simp] theorem openWin_joinw (p la : Nat) (dx dv : List Nat) (st : WinSt) (xv : List (Nat × Word)) (tv : List (Nat × Tile)) (fl : Nat) (tx : List (Nat × Nat)) (x : CoreSt) : (openWin p la dx dv st xv tv fl tx x).joinw = x.joinw := rfl
@[simp] theorem openWin_member (p la : Nat) (dx dv : List Nat) (st : WinSt) (xv : List (Nat × Word)) (tv : List (Nat × Tile)) (fl : Nat) (tx : List (Nat × Nat)) (x : CoreSt) : (openWin p la dx dv st xv tv fl tx x).member = x.member := rfl
@[simp] theorem openWin_memberSlot (p la : Nat) (dx dv : List Nat) (st : WinSt) (xv : List (Nat × Word)) (tv : List (Nat × Tile)) (fl : Nat) (tx : List (Nat × Nat)) (x : CoreSt) : (openWin p la dx dv st xv tv fl tx x).memberSlot = x.memberSlot := rfl
@[simp] theorem openWin_picking (p la : Nat) (dx dv : List Nat) (st : WinSt) (xv : List (Nat × Word)) (tv : List (Nat × Tile)) (fl : Nat) (tx : List (Nat × Nat)) (x : CoreSt) : (openWin p la dx dv st xv tv fl tx x).picking = x.picking := rfl
@[simp] theorem openWin_seq (p la : Nat) (dx dv : List Nat) (st : WinSt) (xv : List (Nat × Word)) (tv : List (Nat × Tile)) (fl : Nat) (tx : List (Nat × Nat)) (x : CoreSt) : (openWin p la dx dv st xv tv fl tx x).seq = x.seq := rfl
@[simp] theorem openWin_fifo0 (p la : Nat) (dx dv : List Nat) (st : WinSt) (xv : List (Nat × Word)) (tv : List (Nat × Tile)) (fl : Nat) (tx : List (Nat × Nat)) (x : CoreSt) : (openWin p la dx dv st xv tv fl tx x).fifo0 = x.fifo0 := rfl
@[simp] theorem openWin_fifo1 (p la : Nat) (dx dv : List Nat) (st : WinSt) (xv : List (Nat × Word)) (tv : List (Nat × Tile)) (fl : Nat) (tx : List (Nat × Nat)) (x : CoreSt) : (openWin p la dx dv st xv tv fl tx x).fifo1 = x.fifo1 := rfl
@[simp] theorem openWin_fifo2 (p la : Nat) (dx dv : List Nat) (st : WinSt) (xv : List (Nat × Word)) (tv : List (Nat × Tile)) (fl : Nat) (tx : List (Nat × Nat)) (x : CoreSt) : (openWin p la dx dv st xv tv fl tx x).fifo2 = x.fifo2 := rfl
@[simp] theorem openWin_deque (p la : Nat) (dx dv : List Nat) (st : WinSt) (xv : List (Nat × Word)) (tv : List (Nat × Tile)) (fl : Nat) (tx : List (Nat × Nat)) (x : CoreSt) : (openWin p la dx dv st xv tv fl tx x).deque = x.deque := rfl
@[simp] theorem openWin_hslots (p la : Nat) (dx dv : List Nat) (st : WinSt) (xv : List (Nat × Word)) (tv : List (Nat × Tile)) (fl : Nat) (tx : List (Nat × Nat)) (x : CoreSt) : (openWin p la dx dv st xv tv fl tx x).hslots = x.hslots := rfl
@[simp] theorem openWin_pushes (p la : Nat) (dx dv : List Nat) (st : WinSt) (xv : List (Nat × Word)) (tv : List (Nat × Tile)) (fl : Nat) (tx : List (Nat × Nat)) (x : CoreSt) : (openWin p la dx dv st xv tv fl tx x).pushes = x.pushes := rfl
@[simp] theorem openWin_tags (p la : Nat) (dx dv : List Nat) (st : WinSt) (xv : List (Nat × Word)) (tv : List (Nat × Tile)) (fl : Nat) (tx : List (Nat × Nat)) (x : CoreSt) : (openWin p la dx dv st xv tv fl tx x).tags = x.tags := rfl
@[simp] theorem openWin_seen (p la : Nat) (dx dv : List Nat) (st : WinSt) (xv : List (Nat × Word)) (tv : List (Nat × Tile)) (fl : Nat) (tx : List (Nat × Nat)) (x : CoreSt) : (openWin p la dx dv st xv tv fl tx x).seen = x.seen := rfl
@[simp] theorem openWin_inbox (p la : Nat) (dx dv : List Nat) (st : WinSt) (xv : List (Nat × Word)) (tv : List (Nat × Tile)) (fl : Nat) (tx : List (Nat × Nat)) (x : CoreSt) : (openWin p la dx dv st xv tv fl tx x).inbox = x.inbox := rfl
@[simp] theorem openWin_waits (p la : Nat) (dx dv : List Nat) (st : WinSt) (xv : List (Nat × Word)) (tv : List (Nat × Tile)) (fl : Nat) (tx : List (Nat × Nat)) (x : CoreSt) : (openWin p la dx dv st xv tv fl tx x).waits = x.waits := rfl
@[simp] theorem openWin_links (p la : Nat) (dx dv : List Nat) (st : WinSt) (xv : List (Nat × Word)) (tv : List (Nat × Tile)) (fl : Nat) (tx : List (Nat × Nat)) (x : CoreSt) : (openWin p la dx dv st xv tv fl tx x).links = x.links := rfl
@[simp] theorem openWin_ports (p la : Nat) (dx dv : List Nat) (st : WinSt) (xv : List (Nat × Word)) (tv : List (Nat × Tile)) (fl : Nat) (tx : List (Nat × Nat)) (x : CoreSt) : (openWin p la dx dv st xv tv fl tx x).ports = x.ports := rfl
@[simp] theorem openWin_redo (p la : Nat) (dx dv : List Nat) (st : WinSt) (xv : List (Nat × Word)) (tv : List (Nat × Tile)) (fl : Nat) (tx : List (Nat × Nat)) (x : CoreSt) : (openWin p la dx dv st xv tv fl tx x).redo = x.redo := rfl
@[simp] theorem openWin_ereting (p la : Nat) (dx dv : List Nat) (st : WinSt) (xv : List (Nat × Word)) (tv : List (Nat × Tile)) (fl : Nat) (tx : List (Nat × Nat)) (x : CoreSt) : (openWin p la dx dv st xv tv fl tx x).ereting = x.ereting := rfl
@[simp] theorem openWin_aborted (p la : Nat) (dx dv : List Nat) (st : WinSt) (xv : List (Nat × Word)) (tv : List (Nat × Tile)) (fl : Nat) (tx : List (Nat × Nat)) (x : CoreSt) : (openWin p la dx dv st xv tv fl tx x).aborted = x.aborted := rfl
@[simp] theorem openWin_scb (p la : Nat) (dx dv : List Nat) (st : WinSt) (xv : List (Nat × Word)) (tv : List (Nat × Tile)) (fl : Nat) (tx : List (Nat × Nat)) (x : CoreSt) : (openWin p la dx dv st xv tv fl tx x).scb = x.scb := rfl
@[simp] theorem openWin_resv (p la : Nat) (dx dv : List Nat) (st : WinSt) (xv : List (Nat × Word)) (tv : List (Nat × Tile)) (fl : Nat) (tx : List (Nat × Nat)) (x : CoreSt) : (openWin p la dx dv st xv tv fl tx x).resv = x.resv := rfl
@[simp] theorem openWin_l0 (p la : Nat) (dx dv : List Nat) (st : WinSt) (xv : List (Nat × Word)) (tv : List (Nat × Tile)) (fl : Nat) (tx : List (Nat × Nat)) (x : CoreSt) : (openWin p la dx dv st xv tv fl tx x).l0 = x.l0 := rfl
@[simp] theorem openWin_i0 (p la : Nat) (dx dv : List Nat) (st : WinSt) (xv : List (Nat × Word)) (tv : List (Nat × Tile)) (fl : Nat) (tx : List (Nat × Nat)) (x : CoreSt) : (openWin p la dx dv st xv tv fl tx x).i0 = x.i0 := rfl
@[simp] theorem openWin_fbuf (p la : Nat) (dx dv : List Nat) (st : WinSt) (xv : List (Nat × Word)) (tv : List (Nat × Tile)) (fl : Nat) (tx : List (Nat × Nat)) (x : CoreSt) : (openWin p la dx dv st xv tv fl tx x).fbuf = x.fbuf := rfl
@[simp] theorem openWin_pred (p la : Nat) (dx dv : List Nat) (st : WinSt) (xv : List (Nat × Word)) (tv : List (Nat × Tile)) (fl : Nat) (tx : List (Nat × Nat)) (x : CoreSt) : (openWin p la dx dv st xv tv fl tx x).pred = x.pred := rfl
@[simp] theorem openWin_copies (p la : Nat) (dx dv : List Nat) (st : WinSt) (xv : List (Nat × Word)) (tv : List (Nat × Tile)) (fl : Nat) (tx : List (Nat × Nat)) (x : CoreSt) : (openWin p la dx dv st xv tv fl tx x).copies = x.copies := rfl
@[simp] theorem openWin_sharers (p la : Nat) (dx dv : List Nat) (st : WinSt) (xv : List (Nat × Word)) (tv : List (Nat × Tile)) (fl : Nat) (tx : List (Nat × Nat)) (x : CoreSt) : (openWin p la dx dv st xv tv fl tx x).sharers = x.sharers := rfl
@[simp] theorem openWin_l1 (p la : Nat) (dx dv : List Nat) (st : WinSt) (xv : List (Nat × Word)) (tv : List (Nat × Tile)) (fl : Nat) (tx : List (Nat × Nat)) (x : CoreSt) : (openWin p la dx dv st xv tv fl tx x).l1 = x.l1 := rfl
@[simp] theorem openWin_sp (p la : Nat) (dx dv : List Nat) (st : WinSt) (xv : List (Nat × Word)) (tv : List (Nat × Tile)) (fl : Nat) (tx : List (Nat × Nat)) (x : CoreSt) : (openWin p la dx dv st xv tv fl tx x).sp = x.sp := rfl
@[simp] theorem openWin_full (p la : Nat) (dx dv : List Nat) (st : WinSt) (xv : List (Nat × Word)) (tv : List (Nat × Tile)) (fl : Nat) (tx : List (Nat × Nat)) (x : CoreSt) : (openWin p la dx dv st xv tv fl tx x).full = x.full := rfl
@[simp] theorem openWin_owner (p la : Nat) (dx dv : List Nat) (st : WinSt) (xv : List (Nat × Word)) (tv : List (Nat × Tile)) (fl : Nat) (tx : List (Nat × Nat)) (x : CoreSt) : (openWin p la dx dv st xv tv fl tx x).owner = x.owner := rfl
@[simp] theorem openWin_spBad (p la : Nat) (dx dv : List Nat) (st : WinSt) (xv : List (Nat × Word)) (tv : List (Nat × Tile)) (fl : Nat) (tx : List (Nat × Nat)) (x : CoreSt) : (openWin p la dx dv st xv tv fl tx x).spBad = x.spBad := rfl
@[simp] theorem openWin_spPois (p la : Nat) (dx dv : List Nat) (st : WinSt) (xv : List (Nat × Word)) (tv : List (Nat × Tile)) (fl : Nat) (tx : List (Nat × Nat)) (x : CoreSt) : (openWin p la dx dv st xv tv fl tx x).spPois = x.spPois := rfl
@[simp] theorem openWin_waiters (p la : Nat) (dx dv : List Nat) (st : WinSt) (xv : List (Nat × Word)) (tv : List (Nat × Tile)) (fl : Nat) (tx : List (Nat × Nat)) (x : CoreSt) : (openWin p la dx dv st xv tv fl tx x).waiters = x.waiters := rfl
@[simp] theorem openWin_nacked (p la : Nat) (dx dv : List Nat) (st : WinSt) (xv : List (Nat × Word)) (tv : List (Nat × Tile)) (fl : Nat) (tx : List (Nat × Nat)) (x : CoreSt) : (openWin p la dx dv st xv tv fl tx x).nacked = x.nacked := rfl
@[simp] theorem openWin_remq (p la : Nat) (dx dv : List Nat) (st : WinSt) (xv : List (Nat × Word)) (tv : List (Nat × Tile)) (fl : Nat) (tx : List (Nat × Nat)) (x : CoreSt) : (openWin p la dx dv st xv tv fl tx x).remq = x.remq := rfl
@[simp] theorem openWin_ganged (p la : Nat) (dx dv : List Nat) (st : WinSt) (xv : List (Nat × Word)) (tv : List (Nat × Tile)) (fl : Nat) (tx : List (Nat × Nat)) (x : CoreSt) : (openWin p la dx dv st xv tv fl tx x).ganged = x.ganged := rfl
@[simp] theorem openWin_gangCnt (p la : Nat) (dx dv : List Nat) (st : WinSt) (xv : List (Nat × Word)) (tv : List (Nat × Tile)) (fl : Nat) (tx : List (Nat × Nat)) (x : CoreSt) : (openWin p la dx dv st xv tv fl tx x).gangCnt = x.gangCnt := rfl
@[simp] theorem openWin_gangWait (p la : Nat) (dx dv : List Nat) (st : WinSt) (xv : List (Nat × Word)) (tv : List (Nat × Tile)) (fl : Nat) (tx : List (Nat × Nat)) (x : CoreSt) : (openWin p la dx dv st xv tv fl tx x).gangWait = x.gangWait := rfl
@[simp] theorem openWin_prevTiles (p la : Nat) (dx dv : List Nat) (st : WinSt) (xv : List (Nat × Word)) (tv : List (Nat × Tile)) (fl : Nat) (tx : List (Nat × Nat)) (x : CoreSt) : (openWin p la dx dv st xv tv fl tx x).prevTiles = x.prevTiles := rfl
@[simp] theorem openWin_trapQ (p la : Nat) (dx dv : List Nat) (st : WinSt) (xv : List (Nat × Word)) (tv : List (Nat × Tile)) (fl : Nat) (tx : List (Nat × Nat)) (x : CoreSt) : (openWin p la dx dv st xv tv fl tx x).trapQ = x.trapQ := rfl
@[simp] theorem openWin_stepPend (p la : Nat) (dx dv : List Nat) (st : WinSt) (xv : List (Nat × Word)) (tv : List (Nat × Tile)) (fl : Nat) (tx : List (Nat × Nat)) (x : CoreSt) : (openWin p la dx dv st xv tv fl tx x).stepPend = x.stepPend := rfl
@[simp] theorem openWin_bkpPend (p la : Nat) (dx dv : List Nat) (st : WinSt) (xv : List (Nat × Word)) (tv : List (Nat × Tile)) (fl : Nat) (tx : List (Nat × Nat)) (x : CoreSt) : (openWin p la dx dv st xv tv fl tx x).bkpPend = x.bkpPend := rfl
@[simp] theorem openWin_hangPend (p la : Nat) (dx dv : List Nat) (st : WinSt) (xv : List (Nat × Word)) (tv : List (Nat × Tile)) (fl : Nat) (tx : List (Nat × Nat)) (x : CoreSt) : (openWin p la dx dv st xv tv fl tx x).hangPend = x.hangPend := rfl
@[simp] theorem openWin_ovfPend (p la : Nat) (dx dv : List Nat) (st : WinSt) (xv : List (Nat × Word)) (tv : List (Nat × Tile)) (fl : Nat) (tx : List (Nat × Nat)) (x : CoreSt) : (openWin p la dx dv st xv tv fl tx x).ovfPend = x.ovfPend := rfl
@[simp] theorem openWin_spillPend (p la : Nat) (dx dv : List Nat) (st : WinSt) (xv : List (Nat × Word)) (tv : List (Nat × Tile)) (fl : Nat) (tx : List (Nat × Nat)) (x : CoreSt) : (openWin p la dx dv st xv tv fl tx x).spillPend = x.spillPend := rfl
@[simp] theorem openWin_barArrived (p la : Nat) (dx dv : List Nat) (st : WinSt) (xv : List (Nat × Word)) (tv : List (Nat × Tile)) (fl : Nat) (tx : List (Nat × Nat)) (x : CoreSt) : (openWin p la dx dv st xv tv fl tx x).barArrived = x.barArrived := rfl
@[simp] theorem openWin_sendReq (p la : Nat) (dx dv : List Nat) (st : WinSt) (xv : List (Nat × Word)) (tv : List (Nat × Tile)) (fl : Nat) (tx : List (Nat × Nat)) (x : CoreSt) : (openWin p la dx dv st xv tv fl tx x).sendReq = x.sendReq := rfl
@[simp] theorem openWin_leaseReq (p la : Nat) (dx dv : List Nat) (st : WinSt) (xv : List (Nat × Word)) (tv : List (Nat × Tile)) (fl : Nat) (tx : List (Nat × Nat)) (x : CoreSt) : (openWin p la dx dv st xv tv fl tx x).leaseReq = x.leaseReq := rfl
@[simp] theorem openWin_steFault (p la : Nat) (dx dv : List Nat) (st : WinSt) (xv : List (Nat × Word)) (tv : List (Nat × Tile)) (fl : Nat) (tx : List (Nat × Nat)) (x : CoreSt) : (openWin p la dx dv st xv tv fl tx x).steFault = x.steFault := rfl
@[simp] theorem openWin_sleepAt (p la : Nat) (dx dv : List Nat) (st : WinSt) (xv : List (Nat × Word)) (tv : List (Nat × Tile)) (fl : Nat) (tx : List (Nat × Nat)) (x : CoreSt) : (openWin p la dx dv st xv tv fl tx x).sleepAt = x.sleepAt := rfl
@[simp] theorem openWin_waker (p la : Nat) (dx dv : List Nat) (st : WinSt) (xv : List (Nat × Word)) (tv : List (Nat × Tile)) (fl : Nat) (tx : List (Nat × Nat)) (x : CoreSt) : (openWin p la dx dv st xv tv fl tx x).waker = x.waker := rfl
@[simp] theorem openWin_barn (p la : Nat) (dx dv : List Nat) (st : WinSt) (xv : List (Nat × Word)) (tv : List (Nat × Tile)) (fl : Nat) (tx : List (Nat × Nat)) (x : CoreSt) : (openWin p la dx dv st xv tv fl tx x).barn = x.barn := rfl
@[simp] theorem openWin_badX (p la : Nat) (dx dv : List Nat) (st : WinSt) (xv : List (Nat × Word)) (tv : List (Nat × Tile)) (fl : Nat) (tx : List (Nat × Nat)) (x : CoreSt) : (openWin p la dx dv st xv tv fl tx x).badX = x.badX := rfl
@[simp] theorem openWin_badT (p la : Nat) (dx dv : List Nat) (st : WinSt) (xv : List (Nat × Word)) (tv : List (Nat × Tile)) (fl : Nat) (tx : List (Nat × Nat)) (x : CoreSt) : (openWin p la dx dv st xv tv fl tx x).badT = x.badT := rfl
@[simp] theorem openWin_fpDiv (p la : Nat) (dx dv : List Nat) (st : WinSt) (xv : List (Nat × Word)) (tv : List (Nat × Tile)) (fl : Nat) (tx : List (Nat × Nat)) (x : CoreSt) : (openWin p la dx dv st xv tv fl tx x).fpDiv = x.fpDiv := rfl
@[simp] theorem openWin_rpWait (p la : Nat) (dx dv : List Nat) (st : WinSt) (xv : List (Nat × Word)) (tv : List (Nat × Tile)) (fl : Nat) (tx : List (Nat × Nat)) (x : CoreSt) : (openWin p la dx dv st xv tv fl tx x).rpWait = x.rpWait := rfl
@[simp] theorem openWin_ilWait (p la : Nat) (dx dv : List Nat) (st : WinSt) (xv : List (Nat × Word)) (tv : List (Nat × Tile)) (fl : Nat) (tx : List (Nat × Nat)) (x : CoreSt) : (openWin p la dx dv st xv tv fl tx x).ilWait = x.ilWait := rfl
@[simp] theorem openWin_logSeq (p la : Nat) (dx dv : List Nat) (st : WinSt) (xv : List (Nat × Word)) (tv : List (Nat × Tile)) (fl : Nat) (tx : List (Nat × Nat)) (x : CoreSt) : (openWin p la dx dv st xv tv fl tx x).logSeq = x.logSeq := rfl
@[simp] theorem retireCore_regs (b : Bool) (n : Nat) (x : CoreSt) : (retireCore b n x).regs = x.regs := rfl
@[simp] theorem retireCore_tiles (b : Bool) (n : Nat) (x : CoreSt) : (retireCore b n x).tiles = x.tiles := rfl
@[simp] theorem retireCore_status (b : Bool) (n : Nat) (x : CoreSt) : (retireCore b n x).status = x.status := rfl
@[simp] theorem retireCore_cause (b : Bool) (n : Nat) (x : CoreSt) : (retireCore b n x).cause = x.cause := rfl
@[simp] theorem retireCore_epc (b : Bool) (n : Nat) (x : CoreSt) : (retireCore b n x).epc = x.epc := rfl
@[simp] theorem retireCore_tval (b : Bool) (n : Nat) (x : CoreSt) : (retireCore b n x).tval = x.tval := rfl
@[simp] theorem retireCore_tvec (b : Bool) (n : Nat) (x : CoreSt) : (retireCore b n x).tvec = x.tvec := rfl
@[simp] theorem retireCore_sscratch (b : Bool) (n : Nat) (x : CoreSt) : (retireCore b n x).sscratch = x.sscratch := rfl
@[simp] theorem retireCore_law0 (b : Bool) (n : Nat) (x : CoreSt) : (retireCore b n x).law0 = x.law0 := rfl
@[simp] theorem retireCore_law1 (b : Bool) (n : Nat) (x : CoreSt) : (retireCore b n x).law1 = x.law1 := rfl
@[simp] theorem retireCore_law2 (b : Bool) (n : Nat) (x : CoreSt) : (retireCore b n x).law2 = x.law2 := rfl
@[simp] theorem retireCore_law3 (b : Bool) (n : Nat) (x : CoreSt) : (retireCore b n x).law3 = x.law3 := rfl
@[simp] theorem retireCore_dbgctl (b : Bool) (n : Nat) (x : CoreSt) : (retireCore b n x).dbgctl = x.dbgctl := rfl
@[simp] theorem retireCore_vmroot (b : Bool) (n : Nat) (x : CoreSt) : (retireCore b n x).vmroot = x.vmroot := rfl
@[simp] theorem retireCore_spcfg (b : Bool) (n : Nat) (x : CoreSt) : (retireCore b n x).spcfg = x.spcfg := rfl
@[simp] theorem retireCore_spNew (b : Bool) (n : Nat) (x : CoreSt) : (retireCore b n x).spNew = x.spNew := rfl
@[simp] theorem retireCore_migcfg (b : Bool) (n : Nat) (x : CoreSt) : (retireCore b n x).migcfg = x.migcfg := rfl
@[simp] theorem retireCore_rqspill (b : Bool) (n : Nat) (x : CoreSt) : (retireCore b n x).rqspill = x.rqspill := rfl
@[simp] theorem retireCore_spillArea (b : Bool) (n : Nat) (x : CoreSt) : (retireCore b n x).spillArea = x.spillArea := rfl
@[simp] theorem retireCore_trec (b : Bool) (n : Nat) (x : CoreSt) : (retireCore b n x).trec = x.trec := rfl
@[simp] theorem retireCore_fcsr (b : Bool) (n : Nat) (x : CoreSt) : (retireCore b n x).fcsr = x.fcsr := rfl
@[simp] theorem retireCore_tshape (b : Bool) (n : Nat) (x : CoreSt) : (retireCore b n x).tshape = x.tshape := rfl
@[simp] theorem retireCore_tileuse (b : Bool) (n : Nat) (x : CoreSt) : (retireCore b n x).tileuse = x.tileuse := rfl
@[simp] theorem retireCore_rngkey (b : Bool) (n : Nat) (x : CoreSt) : (retireCore b n x).rngkey = x.rngkey := rfl
@[simp] theorem retireCore_rngcnt (b : Bool) (n : Nat) (x : CoreSt) : (retireCore b n x).rngcnt = x.rngcnt := rfl
@[simp] theorem retireCore_cnt (b : Bool) (n : Nat) (x : CoreSt) : (retireCore b n x).cnt = x.cnt := rfl
@[simp] theorem retireCore_evsel (b : Bool) (n : Nat) (x : CoreSt) : (retireCore b n x).evsel = x.evsel := rfl
@[simp] theorem retireCore_trcbase (b : Bool) (n : Nat) (x : CoreSt) : (retireCore b n x).trcbase = x.trcbase := rfl
@[simp] theorem retireCore_trcctl (b : Bool) (n : Nat) (x : CoreSt) : (retireCore b n x).trcctl = x.trcctl := rfl
@[simp] theorem retireCore_trchead (b : Bool) (n : Nat) (x : CoreSt) : (retireCore b n x).trchead = x.trchead := rfl
@[simp] theorem retireCore_trcread (b : Bool) (n : Nat) (x : CoreSt) : (retireCore b n x).trcread = x.trcread := rfl
@[simp] theorem retireCore_trcLast (b : Bool) (n : Nat) (x : CoreSt) : (retireCore b n x).trcLast = x.trcLast := rfl
@[simp] theorem retireCore_run (b : Bool) (n : Nat) (x : CoreSt) : (retireCore b n x).run = x.run := rfl
@[simp] theorem retireCore_stall (b : Bool) (n : Nat) (x : CoreSt) : (retireCore b n x).stall = x.stall := rfl
@[simp] theorem retireCore_since (b : Bool) (n : Nat) (x : CoreSt) : (retireCore b n x).since = x.since := rfl
@[simp] theorem retireCore_haveTask (b : Bool) (n : Nat) (x : CoreSt) : (retireCore b n x).haveTask = x.haveTask := rfl
@[simp] theorem retireCore_gtid (b : Bool) (n : Nat) (x : CoreSt) : (retireCore b n x).gtid = x.gtid := rfl
@[simp] theorem retireCore_ctl (b : Bool) (n : Nat) (x : CoreSt) : (retireCore b n x).ctl = x.ctl := rfl
@[simp] theorem retireCore_joinw (b : Bool) (n : Nat) (x : CoreSt) : (retireCore b n x).joinw = x.joinw := rfl
@[simp] theorem retireCore_member (b : Bool) (n : Nat) (x : CoreSt) : (retireCore b n x).member = x.member := rfl
@[simp] theorem retireCore_memberSlot (b : Bool) (n : Nat) (x : CoreSt) : (retireCore b n x).memberSlot = x.memberSlot := rfl
@[simp] theorem retireCore_picking (b : Bool) (n : Nat) (x : CoreSt) : (retireCore b n x).picking = x.picking := rfl
@[simp] theorem retireCore_seq (b : Bool) (n : Nat) (x : CoreSt) : (retireCore b n x).seq = x.seq := rfl
@[simp] theorem retireCore_fifo0 (b : Bool) (n : Nat) (x : CoreSt) : (retireCore b n x).fifo0 = x.fifo0 := rfl
@[simp] theorem retireCore_fifo1 (b : Bool) (n : Nat) (x : CoreSt) : (retireCore b n x).fifo1 = x.fifo1 := rfl
@[simp] theorem retireCore_fifo2 (b : Bool) (n : Nat) (x : CoreSt) : (retireCore b n x).fifo2 = x.fifo2 := rfl
@[simp] theorem retireCore_deque (b : Bool) (n : Nat) (x : CoreSt) : (retireCore b n x).deque = x.deque := rfl
@[simp] theorem retireCore_hslots (b : Bool) (n : Nat) (x : CoreSt) : (retireCore b n x).hslots = x.hslots := rfl
@[simp] theorem retireCore_pushes (b : Bool) (n : Nat) (x : CoreSt) : (retireCore b n x).pushes = x.pushes := rfl
@[simp] theorem retireCore_tags (b : Bool) (n : Nat) (x : CoreSt) : (retireCore b n x).tags = x.tags := rfl
@[simp] theorem retireCore_seen (b : Bool) (n : Nat) (x : CoreSt) : (retireCore b n x).seen = x.seen := rfl
@[simp] theorem retireCore_inbox (b : Bool) (n : Nat) (x : CoreSt) : (retireCore b n x).inbox = x.inbox := rfl
@[simp] theorem retireCore_waits (b : Bool) (n : Nat) (x : CoreSt) : (retireCore b n x).waits = x.waits := rfl
@[simp] theorem retireCore_links (b : Bool) (n : Nat) (x : CoreSt) : (retireCore b n x).links = x.links := rfl
@[simp] theorem retireCore_ports (b : Bool) (n : Nat) (x : CoreSt) : (retireCore b n x).ports = x.ports := rfl
@[simp] theorem retireCore_redo (b : Bool) (n : Nat) (x : CoreSt) : (retireCore b n x).redo = x.redo := rfl
@[simp] theorem retireCore_ereting (b : Bool) (n : Nat) (x : CoreSt) : (retireCore b n x).ereting = x.ereting := rfl
@[simp] theorem retireCore_aborted (b : Bool) (n : Nat) (x : CoreSt) : (retireCore b n x).aborted = x.aborted := rfl
@[simp] theorem retireCore_scb (b : Bool) (n : Nat) (x : CoreSt) : (retireCore b n x).scb = x.scb := rfl
@[simp] theorem retireCore_resv (b : Bool) (n : Nat) (x : CoreSt) : (retireCore b n x).resv = x.resv := rfl
@[simp] theorem retireCore_l0 (b : Bool) (n : Nat) (x : CoreSt) : (retireCore b n x).l0 = x.l0 := rfl
@[simp] theorem retireCore_i0 (b : Bool) (n : Nat) (x : CoreSt) : (retireCore b n x).i0 = x.i0 := rfl
@[simp] theorem retireCore_fbuf (b : Bool) (n : Nat) (x : CoreSt) : (retireCore b n x).fbuf = x.fbuf := rfl
@[simp] theorem retireCore_pred (b : Bool) (n : Nat) (x : CoreSt) : (retireCore b n x).pred = x.pred := rfl
@[simp] theorem retireCore_copies (b : Bool) (n : Nat) (x : CoreSt) : (retireCore b n x).copies = x.copies := rfl
@[simp] theorem retireCore_sharers (b : Bool) (n : Nat) (x : CoreSt) : (retireCore b n x).sharers = x.sharers := rfl
@[simp] theorem retireCore_l1 (b : Bool) (n : Nat) (x : CoreSt) : (retireCore b n x).l1 = x.l1 := rfl
@[simp] theorem retireCore_sp (b : Bool) (n : Nat) (x : CoreSt) : (retireCore b n x).sp = x.sp := rfl
@[simp] theorem retireCore_full (b : Bool) (n : Nat) (x : CoreSt) : (retireCore b n x).full = x.full := rfl
@[simp] theorem retireCore_owner (b : Bool) (n : Nat) (x : CoreSt) : (retireCore b n x).owner = x.owner := rfl
@[simp] theorem retireCore_spBad (b : Bool) (n : Nat) (x : CoreSt) : (retireCore b n x).spBad = x.spBad := rfl
@[simp] theorem retireCore_spPois (b : Bool) (n : Nat) (x : CoreSt) : (retireCore b n x).spPois = x.spPois := rfl
@[simp] theorem retireCore_waiters (b : Bool) (n : Nat) (x : CoreSt) : (retireCore b n x).waiters = x.waiters := rfl
@[simp] theorem retireCore_nacked (b : Bool) (n : Nat) (x : CoreSt) : (retireCore b n x).nacked = x.nacked := rfl
@[simp] theorem retireCore_remq (b : Bool) (n : Nat) (x : CoreSt) : (retireCore b n x).remq = x.remq := rfl
@[simp] theorem retireCore_ganged (b : Bool) (n : Nat) (x : CoreSt) : (retireCore b n x).ganged = x.ganged := rfl
@[simp] theorem retireCore_gangCnt (b : Bool) (n : Nat) (x : CoreSt) : (retireCore b n x).gangCnt = x.gangCnt := rfl
@[simp] theorem retireCore_gangWait (b : Bool) (n : Nat) (x : CoreSt) : (retireCore b n x).gangWait = x.gangWait := rfl
@[simp] theorem retireCore_prevTiles (b : Bool) (n : Nat) (x : CoreSt) : (retireCore b n x).prevTiles = x.prevTiles := rfl
@[simp] theorem retireCore_trapQ (b : Bool) (n : Nat) (x : CoreSt) : (retireCore b n x).trapQ = x.trapQ := rfl
@[simp] theorem retireCore_bkpPend (b : Bool) (n : Nat) (x : CoreSt) : (retireCore b n x).bkpPend = x.bkpPend := rfl
@[simp] theorem retireCore_hangPend (b : Bool) (n : Nat) (x : CoreSt) : (retireCore b n x).hangPend = x.hangPend := rfl
@[simp] theorem retireCore_ovfPend (b : Bool) (n : Nat) (x : CoreSt) : (retireCore b n x).ovfPend = x.ovfPend := rfl
@[simp] theorem retireCore_spillPend (b : Bool) (n : Nat) (x : CoreSt) : (retireCore b n x).spillPend = x.spillPend := rfl
@[simp] theorem retireCore_barArrived (b : Bool) (n : Nat) (x : CoreSt) : (retireCore b n x).barArrived = x.barArrived := rfl
@[simp] theorem retireCore_sendReq (b : Bool) (n : Nat) (x : CoreSt) : (retireCore b n x).sendReq = x.sendReq := rfl
@[simp] theorem retireCore_leaseReq (b : Bool) (n : Nat) (x : CoreSt) : (retireCore b n x).leaseReq = x.leaseReq := rfl
@[simp] theorem retireCore_steFault (b : Bool) (n : Nat) (x : CoreSt) : (retireCore b n x).steFault = x.steFault := rfl
@[simp] theorem retireCore_sleepAt (b : Bool) (n : Nat) (x : CoreSt) : (retireCore b n x).sleepAt = x.sleepAt := rfl
@[simp] theorem retireCore_waker (b : Bool) (n : Nat) (x : CoreSt) : (retireCore b n x).waker = x.waker := rfl
@[simp] theorem retireCore_barn (b : Bool) (n : Nat) (x : CoreSt) : (retireCore b n x).barn = x.barn := rfl
@[simp] theorem retireCore_badX (b : Bool) (n : Nat) (x : CoreSt) : (retireCore b n x).badX = x.badX := rfl
@[simp] theorem retireCore_badT (b : Bool) (n : Nat) (x : CoreSt) : (retireCore b n x).badT = x.badT := rfl
@[simp] theorem retireCore_fpDiv (b : Bool) (n : Nat) (x : CoreSt) : (retireCore b n x).fpDiv = x.fpDiv := rfl
@[simp] theorem retireCore_ilWait (b : Bool) (n : Nat) (x : CoreSt) : (retireCore b n x).ilWait = x.ilWait := rfl
@[simp] theorem retireCore_logSeq (b : Bool) (n : Nat) (x : CoreSt) : (retireCore b n x).logSeq = x.logSeq := rfl
@[simp] theorem putLaws_regs (l : List Word) (x : CoreSt) : (putLaws l x).regs = x.regs := rfl
@[simp] theorem putLaws_tiles (l : List Word) (x : CoreSt) : (putLaws l x).tiles = x.tiles := rfl
@[simp] theorem putLaws_pc (l : List Word) (x : CoreSt) : (putLaws l x).pc = x.pc := rfl
@[simp] theorem putLaws_status (l : List Word) (x : CoreSt) : (putLaws l x).status = x.status := rfl
@[simp] theorem putLaws_cause (l : List Word) (x : CoreSt) : (putLaws l x).cause = x.cause := rfl
@[simp] theorem putLaws_epc (l : List Word) (x : CoreSt) : (putLaws l x).epc = x.epc := rfl
@[simp] theorem putLaws_tval (l : List Word) (x : CoreSt) : (putLaws l x).tval = x.tval := rfl
@[simp] theorem putLaws_tvec (l : List Word) (x : CoreSt) : (putLaws l x).tvec = x.tvec := rfl
@[simp] theorem putLaws_sscratch (l : List Word) (x : CoreSt) : (putLaws l x).sscratch = x.sscratch := rfl
@[simp] theorem putLaws_dbgctl (l : List Word) (x : CoreSt) : (putLaws l x).dbgctl = x.dbgctl := rfl
@[simp] theorem putLaws_vmroot (l : List Word) (x : CoreSt) : (putLaws l x).vmroot = x.vmroot := rfl
@[simp] theorem putLaws_spcfg (l : List Word) (x : CoreSt) : (putLaws l x).spcfg = x.spcfg := rfl
@[simp] theorem putLaws_spNew (l : List Word) (x : CoreSt) : (putLaws l x).spNew = x.spNew := rfl
@[simp] theorem putLaws_migcfg (l : List Word) (x : CoreSt) : (putLaws l x).migcfg = x.migcfg := rfl
@[simp] theorem putLaws_rqspill (l : List Word) (x : CoreSt) : (putLaws l x).rqspill = x.rqspill := rfl
@[simp] theorem putLaws_spillArea (l : List Word) (x : CoreSt) : (putLaws l x).spillArea = x.spillArea := rfl
@[simp] theorem putLaws_trec (l : List Word) (x : CoreSt) : (putLaws l x).trec = x.trec := rfl
@[simp] theorem putLaws_fcsr (l : List Word) (x : CoreSt) : (putLaws l x).fcsr = x.fcsr := rfl
@[simp] theorem putLaws_tshape (l : List Word) (x : CoreSt) : (putLaws l x).tshape = x.tshape := rfl
@[simp] theorem putLaws_tileuse (l : List Word) (x : CoreSt) : (putLaws l x).tileuse = x.tileuse := rfl
@[simp] theorem putLaws_rngkey (l : List Word) (x : CoreSt) : (putLaws l x).rngkey = x.rngkey := rfl
@[simp] theorem putLaws_rngcnt (l : List Word) (x : CoreSt) : (putLaws l x).rngcnt = x.rngcnt := rfl
@[simp] theorem putLaws_cnt (l : List Word) (x : CoreSt) : (putLaws l x).cnt = x.cnt := rfl
@[simp] theorem putLaws_evsel (l : List Word) (x : CoreSt) : (putLaws l x).evsel = x.evsel := rfl
@[simp] theorem putLaws_trcbase (l : List Word) (x : CoreSt) : (putLaws l x).trcbase = x.trcbase := rfl
@[simp] theorem putLaws_trcctl (l : List Word) (x : CoreSt) : (putLaws l x).trcctl = x.trcctl := rfl
@[simp] theorem putLaws_trchead (l : List Word) (x : CoreSt) : (putLaws l x).trchead = x.trchead := rfl
@[simp] theorem putLaws_trcread (l : List Word) (x : CoreSt) : (putLaws l x).trcread = x.trcread := rfl
@[simp] theorem putLaws_trcLast (l : List Word) (x : CoreSt) : (putLaws l x).trcLast = x.trcLast := rfl
@[simp] theorem putLaws_run (l : List Word) (x : CoreSt) : (putLaws l x).run = x.run := rfl
@[simp] theorem putLaws_stall (l : List Word) (x : CoreSt) : (putLaws l x).stall = x.stall := rfl
@[simp] theorem putLaws_since (l : List Word) (x : CoreSt) : (putLaws l x).since = x.since := rfl
@[simp] theorem putLaws_haveTask (l : List Word) (x : CoreSt) : (putLaws l x).haveTask = x.haveTask := rfl
@[simp] theorem putLaws_gtid (l : List Word) (x : CoreSt) : (putLaws l x).gtid = x.gtid := rfl
@[simp] theorem putLaws_ctl (l : List Word) (x : CoreSt) : (putLaws l x).ctl = x.ctl := rfl
@[simp] theorem putLaws_joinw (l : List Word) (x : CoreSt) : (putLaws l x).joinw = x.joinw := rfl
@[simp] theorem putLaws_member (l : List Word) (x : CoreSt) : (putLaws l x).member = x.member := rfl
@[simp] theorem putLaws_memberSlot (l : List Word) (x : CoreSt) : (putLaws l x).memberSlot = x.memberSlot := rfl
@[simp] theorem putLaws_picking (l : List Word) (x : CoreSt) : (putLaws l x).picking = x.picking := rfl
@[simp] theorem putLaws_seq (l : List Word) (x : CoreSt) : (putLaws l x).seq = x.seq := rfl
@[simp] theorem putLaws_fifo0 (l : List Word) (x : CoreSt) : (putLaws l x).fifo0 = x.fifo0 := rfl
@[simp] theorem putLaws_fifo1 (l : List Word) (x : CoreSt) : (putLaws l x).fifo1 = x.fifo1 := rfl
@[simp] theorem putLaws_fifo2 (l : List Word) (x : CoreSt) : (putLaws l x).fifo2 = x.fifo2 := rfl
@[simp] theorem putLaws_deque (l : List Word) (x : CoreSt) : (putLaws l x).deque = x.deque := rfl
@[simp] theorem putLaws_hslots (l : List Word) (x : CoreSt) : (putLaws l x).hslots = x.hslots := rfl
@[simp] theorem putLaws_pushes (l : List Word) (x : CoreSt) : (putLaws l x).pushes = x.pushes := rfl
@[simp] theorem putLaws_tags (l : List Word) (x : CoreSt) : (putLaws l x).tags = x.tags := rfl
@[simp] theorem putLaws_seen (l : List Word) (x : CoreSt) : (putLaws l x).seen = x.seen := rfl
@[simp] theorem putLaws_inbox (l : List Word) (x : CoreSt) : (putLaws l x).inbox = x.inbox := rfl
@[simp] theorem putLaws_waits (l : List Word) (x : CoreSt) : (putLaws l x).waits = x.waits := rfl
@[simp] theorem putLaws_links (l : List Word) (x : CoreSt) : (putLaws l x).links = x.links := rfl
@[simp] theorem putLaws_ports (l : List Word) (x : CoreSt) : (putLaws l x).ports = x.ports := rfl
@[simp] theorem putLaws_windows (l : List Word) (x : CoreSt) : (putLaws l x).windows = x.windows := rfl
@[simp] theorem putLaws_redo (l : List Word) (x : CoreSt) : (putLaws l x).redo = x.redo := rfl
@[simp] theorem putLaws_ereting (l : List Word) (x : CoreSt) : (putLaws l x).ereting = x.ereting := rfl
@[simp] theorem putLaws_aborted (l : List Word) (x : CoreSt) : (putLaws l x).aborted = x.aborted := rfl
@[simp] theorem putLaws_scb (l : List Word) (x : CoreSt) : (putLaws l x).scb = x.scb := rfl
@[simp] theorem putLaws_resv (l : List Word) (x : CoreSt) : (putLaws l x).resv = x.resv := rfl
@[simp] theorem putLaws_l0 (l : List Word) (x : CoreSt) : (putLaws l x).l0 = x.l0 := rfl
@[simp] theorem putLaws_i0 (l : List Word) (x : CoreSt) : (putLaws l x).i0 = x.i0 := rfl
@[simp] theorem putLaws_fbuf (l : List Word) (x : CoreSt) : (putLaws l x).fbuf = x.fbuf := rfl
@[simp] theorem putLaws_pred (l : List Word) (x : CoreSt) : (putLaws l x).pred = x.pred := rfl
@[simp] theorem putLaws_copies (l : List Word) (x : CoreSt) : (putLaws l x).copies = x.copies := rfl
@[simp] theorem putLaws_sharers (l : List Word) (x : CoreSt) : (putLaws l x).sharers = x.sharers := rfl
@[simp] theorem putLaws_l1 (l : List Word) (x : CoreSt) : (putLaws l x).l1 = x.l1 := rfl
@[simp] theorem putLaws_sp (l : List Word) (x : CoreSt) : (putLaws l x).sp = x.sp := rfl
@[simp] theorem putLaws_full (l : List Word) (x : CoreSt) : (putLaws l x).full = x.full := rfl
@[simp] theorem putLaws_owner (l : List Word) (x : CoreSt) : (putLaws l x).owner = x.owner := rfl
@[simp] theorem putLaws_spBad (l : List Word) (x : CoreSt) : (putLaws l x).spBad = x.spBad := rfl
@[simp] theorem putLaws_spPois (l : List Word) (x : CoreSt) : (putLaws l x).spPois = x.spPois := rfl
@[simp] theorem putLaws_waiters (l : List Word) (x : CoreSt) : (putLaws l x).waiters = x.waiters := rfl
@[simp] theorem putLaws_nacked (l : List Word) (x : CoreSt) : (putLaws l x).nacked = x.nacked := rfl
@[simp] theorem putLaws_remq (l : List Word) (x : CoreSt) : (putLaws l x).remq = x.remq := rfl
@[simp] theorem putLaws_ganged (l : List Word) (x : CoreSt) : (putLaws l x).ganged = x.ganged := rfl
@[simp] theorem putLaws_gangCnt (l : List Word) (x : CoreSt) : (putLaws l x).gangCnt = x.gangCnt := rfl
@[simp] theorem putLaws_gangWait (l : List Word) (x : CoreSt) : (putLaws l x).gangWait = x.gangWait := rfl
@[simp] theorem putLaws_prevTiles (l : List Word) (x : CoreSt) : (putLaws l x).prevTiles = x.prevTiles := rfl
@[simp] theorem putLaws_trapQ (l : List Word) (x : CoreSt) : (putLaws l x).trapQ = x.trapQ := rfl
@[simp] theorem putLaws_stepPend (l : List Word) (x : CoreSt) : (putLaws l x).stepPend = x.stepPend := rfl
@[simp] theorem putLaws_bkpPend (l : List Word) (x : CoreSt) : (putLaws l x).bkpPend = x.bkpPend := rfl
@[simp] theorem putLaws_hangPend (l : List Word) (x : CoreSt) : (putLaws l x).hangPend = x.hangPend := rfl
@[simp] theorem putLaws_ovfPend (l : List Word) (x : CoreSt) : (putLaws l x).ovfPend = x.ovfPend := rfl
@[simp] theorem putLaws_spillPend (l : List Word) (x : CoreSt) : (putLaws l x).spillPend = x.spillPend := rfl
@[simp] theorem putLaws_barArrived (l : List Word) (x : CoreSt) : (putLaws l x).barArrived = x.barArrived := rfl
@[simp] theorem putLaws_sendReq (l : List Word) (x : CoreSt) : (putLaws l x).sendReq = x.sendReq := rfl
@[simp] theorem putLaws_leaseReq (l : List Word) (x : CoreSt) : (putLaws l x).leaseReq = x.leaseReq := rfl
@[simp] theorem putLaws_steFault (l : List Word) (x : CoreSt) : (putLaws l x).steFault = x.steFault := rfl
@[simp] theorem putLaws_sleepAt (l : List Word) (x : CoreSt) : (putLaws l x).sleepAt = x.sleepAt := rfl
@[simp] theorem putLaws_waker (l : List Word) (x : CoreSt) : (putLaws l x).waker = x.waker := rfl
@[simp] theorem putLaws_barn (l : List Word) (x : CoreSt) : (putLaws l x).barn = x.barn := rfl
@[simp] theorem putLaws_badX (l : List Word) (x : CoreSt) : (putLaws l x).badX = x.badX := rfl
@[simp] theorem putLaws_badT (l : List Word) (x : CoreSt) : (putLaws l x).badT = x.badT := rfl
@[simp] theorem putLaws_fpDiv (l : List Word) (x : CoreSt) : (putLaws l x).fpDiv = x.fpDiv := rfl
@[simp] theorem putLaws_rpWait (l : List Word) (x : CoreSt) : (putLaws l x).rpWait = x.rpWait := rfl
@[simp] theorem putLaws_ilWait (l : List Word) (x : CoreSt) : (putLaws l x).ilWait = x.ilWait := rfl
@[simp] theorem putLaws_logSeq (l : List Word) (x : CoreSt) : (putLaws l x).logSeq = x.logSeq := rfl

end Sys2Proof.Laws
end

