-- ==== Sys2Proof/Laws/Memory.lean ====
section
/-!
SUPPORT. Byte memories: every operation keeps the canonical form, reading after writing, and equal reads are equal data.
-/

namespace Sys2Proof.Laws

open Sys2Proof Sys2Proof.Machine Sys2Proof.Safety

set_option linter.all false

/-! The canonical form. -/

/-- A form above a bound holds above every lower bound. -/
theorem wfFrom_le {lo hi : Nat} (h : lo ≤ hi) {m : Memory} (w : Memory.wfFrom hi m = true) : Memory.wfFrom lo m = true := by
  cases m with
  | nil => rfl
  | cons e m =>
    obtain ⟨k, v⟩ := e
    simp only [Memory.wfFrom, Bool.and_eq_true, decide_eq_true_eq] at w ⊢
    exact ⟨⟨by omega, w.1.2⟩, w.2⟩

theorem wfFrom_cons (lo k : Nat) (v : Byte) (m : Memory) :
    Memory.wfFrom lo ((k, v) :: m) = true ↔ lo ≤ k ∧ v ≠ 0 ∧ Memory.wfFrom (k + 1) m = true := by
  simp only [Memory.wfFrom, Bool.and_eq_true, decide_eq_true_eq, bne_iff_ne, and_assoc]

theorem wfFrom_write {lo a : Nat} (b : Byte) (h : lo ≤ a) {m : Memory} (w : Memory.wfFrom lo m = true) :
    Memory.wfFrom lo (Memory.write a b m) = true := by
  induction m generalizing lo with
  | nil =>
    simp only [Memory.write]
    split
    · rfl
    · rename_i hb; exact (wfFrom_cons _ _ _ _).2 ⟨h, hb, rfl⟩
  | cons e m ih =>
    obtain ⟨k, v⟩ := e
    obtain ⟨hk, hv, hm⟩ := (wfFrom_cons _ _ _ _).1 w
    simp only [Memory.write]
    split
    · split
      · exact w
      · rename_i ha hb
        exact (wfFrom_cons _ _ _ _).2 ⟨h, hb, (wfFrom_cons _ _ _ _).2 ⟨by omega, hv, hm⟩⟩
    · split
      · rename_i _ he; subst he
        split
        · exact wfFrom_le (by omega) hm
        · rename_i hb; exact (wfFrom_cons _ _ _ _).2 ⟨h, hb, hm⟩
      · exact (wfFrom_cons _ _ _ _).2 ⟨hk, hv, ih (by omega) hm⟩

theorem wfFrom_filter (p : Host.Cell → Bool) {lo : Nat} {m : Memory} (w : Memory.wfFrom lo m = true) :
    Memory.wfFrom lo (m.filter p) = true := by
  induction m generalizing lo with
  | nil => rfl
  | cons e m ih =>
    obtain ⟨k, v⟩ := e
    simp only [Memory.wfFrom, Bool.and_eq_true, decide_eq_true_eq] at w
    have h2 := ih w.2
    by_cases hp : p (k, v) = true
    · simp only [List.filter_cons, hp, if_true, Memory.wfFrom, Bool.and_eq_true, decide_eq_true_eq]; exact ⟨w.1, h2⟩
    · simp only [List.filter_cons, hp]; exact wfFrom_le (by omega) h2

theorem clear_filter (lo hi : Nat) (m : Memory) : Memory.clear lo hi m = m.filter (fun e => !(decide (lo ≤ e.1 ∧ e.1 < hi))) := by
  induction m with
  | nil => rfl
  | cons e m ih =>
    obtain ⟨k, v⟩ := e
    simp only [Memory.clear, List.filter_cons]
    by_cases h : lo ≤ k ∧ k < hi <;> simp [h, ih]

@[simp] theorem wf_nil : Memory.wf [] = true := rfl
theorem wf_write (a : Nat) (b : Byte) {m : Memory} (w : Memory.wf m = true) : Memory.wf (Memory.write a b m) = true :=
  wfFrom_write b (Nat.zero_le _) w
theorem wf_filter (p : Host.Cell → Bool) {m : Memory} (w : Memory.wf m = true) : Memory.wf (m.filter p) = true := wfFrom_filter p w
theorem wf_clear (lo hi : Nat) {m : Memory} (w : Memory.wf m = true) : Memory.wf (Memory.clear lo hi m) = true := by
  rw [clear_filter]; exact wf_filter _ w
theorem wf_writeN (a v n : Nat) {m : Memory} (w : Memory.wf m = true) : Memory.wf (Memory.writeN a v n m) = true := by
  induction n generalizing a v m with
  | zero => exact w
  | succ n ih => exact ih _ _ (wf_write _ _ w)
theorem wf_placeBytes (pa w : Nat) {m : Memory} (h : Memory.wf m = true) : Memory.wf (placeBytes pa w m) = true := wf_writeN _ _ _ h
/-- A run of byte writes keeps the form. -/
theorem wf_writes {α : Type} (f : α → Nat) (g : α → Byte) (l : List α) {m : Memory} (w : Memory.wf m = true) :
    Memory.wf (l.foldl (fun m e => Memory.write (f e) (g e) m) m) = true := by
  induction l generalizing m with
  | nil => exact w
  | cons e l ih => exact ih (wf_write _ _ w)

/-! Reading. -/

theorem read_below {lo a : Nat} (h : a < lo) {m : Memory} (w : Memory.wfFrom lo m = true) : Memory.read m a = 0 := by
  induction m generalizing lo with
  | nil => rfl
  | cons e m ih =>
    obtain ⟨k, v⟩ := e
    simp only [Memory.wfFrom, Bool.and_eq_true, decide_eq_true_eq] at w
    have hk : k ≠ a := by have := w.1.1; omega
    simp only [Memory.read, hk, if_false]
    exact ih (by have := w.1.1; omega) w.2

theorem read_write_from {lo : Nat} {m : Memory} (w : Memory.wfFrom lo m = true) (a : Nat) (b : Byte) (i : Nat) :
    Memory.read (Memory.write a b m) i = if a = i then b else Memory.read m i := by
  induction m generalizing lo with
  | nil =>
    simp only [Memory.write]
    split
    · rename_i hb; simp [Memory.read, hb]
    · simp [Memory.read]
  | cons e m ih =>
    obtain ⟨k, v⟩ := e
    simp only [Memory.wfFrom, Bool.and_eq_true, decide_eq_true_eq] at w
    obtain ⟨⟨hk, hv⟩, hm⟩ := w
    simp only [Memory.write]
    split
    · rename_i hak
      split
      · rename_i hb
        by_cases hi : a = i
        · subst hi
          have : k ≠ a := by omega
          simp [Memory.read, this, hb, read_below (lo := k + 1) (a := a) (by omega) hm]
        · simp [hi]
      · by_cases hi : a = i <;> simp [Memory.read, hi]
    · split
      · rename_i _ he; subst he
        split
        · rename_i hb
          by_cases hi : k = i
          · subst hi; simp [hb, read_below (lo := k + 1) (a := k) (by omega) hm]
          · simp [Memory.read, hi]
        · by_cases hi : k = i <;> simp [Memory.read, hi]
      · rename_i h1 h2
        by_cases hki : k = i
        · subst hki
          have : a ≠ k := by omega
          simp [Memory.read, this]
        · simp [Memory.read, hki, ih hm]

/-- Reading a byte after writing one. -/
theorem read_write {m : Memory} (w : Memory.wf m = true) (a : Nat) (b : Byte) (i : Nat) :
    Memory.read (Memory.write a b m) i = if a = i then b else Memory.read m i := read_write_from w a b i
theorem read_write_same {m : Memory} (w : Memory.wf m = true) (a : Nat) (b : Byte) : Memory.read (Memory.write a b m) a = b := by
  simp [read_write w]
theorem read_write_other {m : Memory} (w : Memory.wf m = true) {a i : Nat} (b : Byte) (h : a ≠ i) :
    Memory.read (Memory.write a b m) i = Memory.read m i := by simp [read_write w, h]

theorem read_filter (p : Host.Cell → Bool) (q : Nat → Bool) (hp : ∀ e, p e = q e.1) (m : Memory) (i : Nat) :
    Memory.read (m.filter p) i = if q i then Memory.read m i else 0 := by
  induction m with
  | nil => simp [Memory.read]
  | cons e m ih =>
    obtain ⟨k, v⟩ := e
    by_cases hk : q k = true
    · simp only [List.filter_cons, hp, hk, if_true, Memory.read, ih]
      by_cases hi : k = i
      · subst hi; simp [hk]
      · simp [hi]
    · simp only [List.filter_cons, hp, hk, Memory.read]
      by_cases hi : k = i
      · subst hi; simp [ih, hk]
      · simp [hi, ih]
theorem read_clear (lo hi : Nat) (m : Memory) (i : Nat) :
    Memory.read (Memory.clear lo hi m) i = if lo ≤ i ∧ i < hi then 0 else Memory.read m i := by
  rw [clear_filter, read_filter (q := fun k => !(decide (lo ≤ k ∧ k < hi))) (hp := fun _ => rfl)]
  by_cases h : lo ≤ i ∧ i < hi <;> simp [h]

/-- Reading a byte after writing n: the byte of the value inside the range, the old byte outside. -/
theorem read_writeN (a v n : Nat) {m : Memory} (w : Memory.wf m = true) (i : Nat) :
    Memory.read (Memory.writeN a v n m) i = if a ≤ i ∧ i < a + n then BitVec.ofNat 8 (v / 256 ^ (i - a)) else Memory.read m i := by
  induction n generalizing a v m with
  | zero => simp [Memory.writeN, show ¬(a ≤ i ∧ i < a) by omega]
  | succ n ih =>
    rw [Memory.writeN, ih _ _ (wf_write _ _ w), read_write w]
    by_cases h1 : a = i
    · subst h1; simp [show ¬(a + 1 ≤ a ∧ a < a + 1 + n) by omega]
    · by_cases h2 : a ≤ i ∧ i < a + (n + 1)
      · have h3 : a + 1 ≤ i ∧ i < a + 1 + n := by omega
        have h4 : i - a = i - (a + 1) + 1 := by omega
        simp [h2, h3, h4, Nat.pow_succ, Nat.div_div_eq_div_mul, Nat.mul_comm]
      · rw [if_neg (show ¬(a + 1 ≤ i ∧ i < a + 1 + n) by omega), if_neg h1, if_neg h2]

theorem readN_congr {m k : Memory} {a n : Nat} (h : ∀ i, a ≤ i → i < a + n → Memory.read m i = Memory.read k i) :
    Memory.readN m a n = Memory.readN k a n := by
  induction n generalizing a with
  | zero => rfl
  | succ n ih =>
    simp only [Memory.readN]
    rw [h a (by omega) (by omega), ih (fun i h1 h2 => h i (by omega) (by omega))]

theorem readN_lt (m : Memory) (a n : Nat) : Memory.readN m a n < 256 ^ n := by
  induction n generalizing a with
  | zero => simp [Memory.readN]
  | succ n ih => have := ih (a + 1); have := (Memory.read m a).isLt; simp only [Memory.readN, Nat.pow_succ]; omega

/-- n bytes read back as they were written. -/
theorem readN_writeN (a v n : Nat) {m : Memory} (w : Memory.wf m = true) : Memory.readN (Memory.writeN a v n m) a n = v % 256 ^ n := by
  induction n generalizing a v m with
  | zero => simp [Memory.readN, Nat.mod_one]
  | succ n ih =>
    rw [Memory.readN, read_writeN _ _ _ w, Memory.writeN, ih _ _ (wf_write _ _ w)]
    simp [Nat.pow_succ]
    rw [Nat.mul_comm (256 ^ n) 256, Nat.mod_mul]

theorem readN_writeN_other (a v n b k : Nat) {m : Memory} (w : Memory.wf m = true) (h : b + k ≤ a ∨ a + n ≤ b) :
    Memory.readN (Memory.writeN a v n m) b k = Memory.readN m b k :=
  readN_congr (fun i h1 h2 => by rw [read_writeN _ _ _ w]; simp [show ¬(a ≤ i ∧ i < a + n) by omega])

theorem eq_of_read_from {lo : Nat} {m k : Memory} (hm : Memory.wfFrom lo m = true) (hk : Memory.wfFrom lo k = true)
    (h : ∀ i, Memory.read m i = Memory.read k i) : m = k := by
  induction m generalizing lo k with
  | nil =>
    cases k with
    | nil => rfl
    | cons e k =>
      obtain ⟨a, v⟩ := e
      have := h a
      simp only [Memory.wfFrom, Bool.and_eq_true, bne_iff_ne, ne_eq] at hk
      simp [Memory.read] at this
      exact absurd this.symm hk.1.2
  | cons e m ih =>
    obtain ⟨a, v⟩ := e
    simp only [Memory.wfFrom, Bool.and_eq_true, decide_eq_true_eq, bne_iff_ne, ne_eq] at hm
    cases k with
    | nil => have := h a; simp [Memory.read] at this; exact absurd this hm.1.2
    | cons f k =>
      obtain ⟨b, u⟩ := f
      simp only [Memory.wfFrom, Bool.and_eq_true, decide_eq_true_eq, bne_iff_ne, ne_eq] at hk
      have hab : a = b := by
        rcases Nat.lt_trichotomy a b with hlt | heq | hgt
        · have h1 := h a
          simp only [Memory.read, if_true, show ¬(b = a) by omega, if_false] at h1
          rw [read_below (lo := b + 1) (by omega) hk.2] at h1
          exact absurd h1 hm.1.2
        · exact heq
        · have h1 := h b
          simp only [Memory.read, if_true, show ¬(a = b) by omega, if_false] at h1
          rw [read_below (lo := a + 1) (by omega) hm.2] at h1
          exact absurd h1.symm hk.1.2
      subst hab
      have hv : v = u := by have := h a; simpa [Memory.read] using this
      subst hv
      have : m = k := ih hm.2 hk.2 (fun i => by
        by_cases hi : a = i
        · subst hi; rw [read_below (lo := a + 1) (by omega) hm.2, read_below (lo := a + 1) (by omega) hk.2]
        · have := h i; simpa [Memory.read, hi] using this)
      rw [this]

/-- Canonical memories that read alike are equal. -/
theorem memory_ext {m k : Memory} (hm : Memory.wf m = true) (hk : Memory.wf k = true) (h : ∀ i, Memory.read m i = Memory.read k i) : m = k :=
  eq_of_read_from hm hk h
/-- Writing what a byte reads as changes nothing. -/
theorem write_read {m : Memory} (w : Memory.wf m = true) (a : Nat) : Memory.write a (Memory.read m a) m = m :=
  memory_ext (wf_write _ _ w) w (fun i => by rw [read_write w]; split <;> simp_all)
/-- The later of two writes of one byte stands. -/
theorem write_write {m : Memory} (w : Memory.wf m = true) (a : Nat) (b c : Byte) : Memory.write a c (Memory.write a b m) = Memory.write a c m :=
  memory_ext (wf_write _ _ (wf_write _ _ w)) (wf_write _ _ w) (fun i => by
    rw [read_write (wf_write _ _ w), read_write w, read_write w]; split <;> simp_all)
/-- Writes of different bytes may be exchanged. -/
theorem write_comm {m : Memory} (w : Memory.wf m = true) {a c : Nat} (h : a ≠ c) (b d : Byte) :
    Memory.write a b (Memory.write c d m) = Memory.write c d (Memory.write a b m) :=
  memory_ext (wf_write _ _ (wf_write _ _ w)) (wf_write _ _ (wf_write _ _ w)) (fun i => by
    rw [read_write (wf_write _ _ w), read_write w, read_write (wf_write _ _ w), read_write w]; split <;> split <;> simp_all)

end Sys2Proof.Laws
end

