-- ==== Sys2Proof/Laws/Memories.lean ====
section
/-!
SUPPORT. Every operation of the model that writes a memory of State keeps every memory in its canonical form (Safety.MemoriesOk).
-/

namespace Sys2Proof.Laws

open Sys2Proof Sys2Proof.Machine Sys2Proof.Safety

set_option linter.all false

/-- The memories after reset are canonical. -/
theorem ok_reset : MemoriesOk State.reset := ⟨rfl, rfl, rfl, by simp [State.reset], by simp [State.reset]⟩

/-- The canonical form is about the memories alone. -/
theorem ok_same {s t : State} (h : MemoriesOk s) (hm : t.mem = s.mem) (hh : t.hostMem = s.hostMem) (hr : t.remMem = s.remMem)
    (hc : t.cores = s.cores) (hs : t.saves = s.saves) : MemoriesOk t :=
  ⟨hm ▸ h.1, hh ▸ h.2, hr ▸ h.3, hc ▸ h.4, hs ▸ h.5⟩

/-- A run of changes that each keep the memories canonical keeps them so. -/
theorem ok_foldl {α : Type} {f : State → α → State} (hf : ∀ u e, MemoriesOk u → MemoriesOk (f u e)) (l : List α) {s : State}
    (h : MemoriesOk s) : MemoriesOk (l.foldl f s) := by
  induction l generalizing s with
  | nil => exact h
  | cons e l ih => exact ih (hf s e h)
theorem ok_forN {n : Nat} {f : Nat → State → State} (hf : ∀ i u, MemoriesOk u → MemoriesOk (f i u)) {s : State} (h : MemoriesOk s) :
    MemoriesOk (forN n f s) := ok_foldl (fun u i hu => hf i u hu) _ h
theorem ok_ite {p : Prop} [Decidable p] {s t : State} (hs : MemoriesOk s) (ht : MemoriesOk t) : MemoriesOk (if p then s else t) := by
  split <;> assumption

/-! Cores, clusters and dies. -/

/-- The scratchpad of a core is canonical. -/
theorem ok_core {s : State} (h : MemoriesOk s) (c : Nat) : Memory.wf (coreOf s c).sp = true := by
  have : ∀ l : AList CoreSt, (∀ e ∈ l, Memory.wf e.2.sp = true) → Memory.wf (AList.get {} l c).sp = true := by
    intro l
    induction l with
    | nil => intro _; rfl
    | cons e l ih =>
      obtain ⟨k, v⟩ := e
      intro hl
      simp only [AList.get]
      split
      · exact hl (k, v) (by simp)
      · exact ih (fun e he => hl e (by simp [he]))
  exact this s.cores h.pads

theorem mem_put {α : Type} {i : Nat} {x : α} {m : AList α} {e : Nat × α} (h : e ∈ AList.put i x m) : e = (i, x) ∨ e ∈ m := by
  induction m with
  | nil => simp [AList.put] at h; exact Or.inl h
  | cons f m ih =>
    obtain ⟨k, v⟩ := f
    simp only [AList.put] at h
    split at h
    · simpa using h
    · split at h
      · simp at h; rcases h with h | h
        · exact Or.inl h
        · exact Or.inr (by simp [h])
      · simp at h; rcases h with h | h
        · exact Or.inr (by simp [h])
        · rcases ih h with h | h
          · exact Or.inl h
          · exact Or.inr (by simp [h])

theorem ok_setCore {s : State} (h : MemoriesOk s) (c : Nat) {x : CoreSt} (hx : Memory.wf x.sp = true) : MemoriesOk (setCore c x s) := by
  refine ⟨h.hbm, h.host, h.remote, ?_, h.saved⟩
  intro e he
  rcases mem_put he with he | he
  · subst he; exact hx
  · exact h.pads e he
/-- A change of a core that keeps its scratchpad canonical. -/
theorem ok_modCore {s : State} (h : MemoriesOk s) (c : Nat) {f : CoreSt → CoreSt}
    (hf : ∀ x, Memory.wf x.sp = true → Memory.wf (f x).sp = true) : MemoriesOk (modCore c f s) := ok_setCore h c (hf _ (ok_core h c))
/-- A change of a core outside its scratchpad. -/
theorem ok_modCore_sp {s : State} (h : MemoriesOk s) (c : Nat) {f : CoreSt → CoreSt} (hf : ∀ x, (f x).sp = x.sp) : MemoriesOk (modCore c f s) :=
  ok_modCore h c (fun x hx => by rw [hf]; exact hx)
/-- A change of every core outside the scratchpads. -/
theorem ok_mapCores {s : State} (h : MemoriesOk s) {f : Nat × CoreSt → Nat × CoreSt} (hf : ∀ e, (f e).2.sp = e.2.sp) :
    MemoriesOk { s with cores := s.cores.map f } := by
  refine ⟨h.hbm, h.host, h.remote, ?_, h.saved⟩
  intro e he
  obtain ⟨a, ha, rfl⟩ := List.mem_map.1 he
  rw [hf]; exact h.pads a ha
theorem ok_setCluster {s : State} (h : MemoriesOk s) (c : Nat) (x : ClusterSt) : MemoriesOk (setCluster c x s) := ⟨h.1, h.2, h.3, h.4, h.5⟩
theorem ok_modCluster {s : State} (h : MemoriesOk s) (c : Nat) (f : ClusterSt → ClusterSt) : MemoriesOk (modCluster c f s) := ⟨h.1, h.2, h.3, h.4, h.5⟩
theorem ok_setDie {s : State} (h : MemoriesOk s) (c : Nat) (x : DieSt) : MemoriesOk (setDie c x s) := ⟨h.1, h.2, h.3, h.4, h.5⟩
theorem ok_modDie {s : State} (h : MemoriesOk s) (c : Nat) (f : DieSt → DieSt) : MemoriesOk (modDie c f s) := ⟨h.1, h.2, h.3, h.4, h.5⟩

/-! Event counters and the wait table. -/

@[simp] theorem bumpCnt_sp (code n : Nat) (own : Bool) (k : Nat) (x : CoreSt) : (bumpCnt code n own k x).sp = x.sp := by
  unfold bumpCnt; dsimp only; split <;> rfl
@[simp] theorem bump_sp (code n : Nat) (own : Bool) (x : CoreSt) : (bump code n own x).sp = x.sp := by
  unfold bump
  split
  · rfl
  · rename_i hx; clear hx
    generalize List.range 8 = l
    induction l generalizing x with
    | nil => rfl
    | cons k l ih => simp only [List.foldl]; rw [ih]; simp
theorem ok_count {s : State} (h : MemoriesOk s) (code n c : Nat) : MemoriesOk (count code n c s) := by
  unfold count; split
  · exact h
  · exact ok_modCore_sp h c (fun x => bump_sp _ _ _ x)
theorem ok_countWhere {s : State} (h : MemoriesOk s) (code n : Nat) (p : Nat → Bool) : MemoriesOk (countWhere code n p s) :=
  ok_mapCores h (fun e => by split <;> simp)
theorem ok_countDie {s : State} (h : MemoriesOk s) (code n d : Nat) : MemoriesOk (countDie code n d s) := ok_countWhere h _ _ _
theorem ok_countCluster {s : State} (h : MemoriesOk s) (code n d : Nat) : MemoriesOk (countCluster code n d s) := ok_countWhere h _ _ _
theorem ok_countAll {s : State} (h : MemoriesOk s) (code n : Nat) : MemoriesOk (countAll code n s) := ok_countWhere h _ _ _
theorem ok_setRun {s : State} (h : MemoriesOk s) (c : Nat) (r : Run) : MemoriesOk (setRun c r s) := ok_modCore_sp h c (by intro _; rfl)
theorem ok_setStallAs {s : State} (h : MemoriesOk s) (c w : Nat) (o : Word) (l : Nat) : MemoriesOk (setStallAs c w o l s) :=
  ok_modCore_sp h c (fun x => by split <;> rfl)
theorem ok_setStall {s : State} (h : MemoriesOk s) (c w : Nat) (o : Word) : MemoriesOk (setStall c w o s) := ok_setStallAs h c w o 0
theorem ok_clearStall {s : State} (h : MemoriesOk s) (c : Nat) : MemoriesOk (clearStall c s) := by
  unfold clearStall; split
  · exact h
  · exact ok_modCore_sp h c (by intro _; rfl)
theorem ok_nodeFull {s : State} (h : MemoriesOk s) (cyc : Nat) : MemoriesOk (nodeFull cyc s) :=
  ok_foldl (fun u e hu => ok_ite (ok_countCluster hu _ _ _) hu) _ h
theorem ok_advance {s : State} (h : MemoriesOk s) (ns cyc : Nat) : MemoriesOk (advance ns cyc s) := by
  unfold advance
  refine ok_foldl (fun u d hu => ok_modDie hu d _) _ (ok_nodeFull ?_ cyc)
  have h1 := ok_mapCores h (f := fun e => (e.1, (fun x => if lostCode x = 0 then x else bump (lostCode x) cyc true x) (bump (acctCode e.2) cyc true e.2)))
    (fun e => by dsimp only; split <;> simp)
  exact ⟨h1.1, h1.2, h1.3, h1.4, h1.5⟩

/-! HBM (05). -/

theorem ok_poisonRange {s : State} (h : MemoriesOk s) (lo hi : Nat) : MemoriesOk (poisonRange lo hi s) := by
  unfold poisonRange; refine ok_countDie ?_ _ _ _; exact ⟨h.1, h.2, h.3, h.4, h.5⟩
theorem ok_clearPoison {s : State} (h : MemoriesOk s) (l : Nat) : MemoriesOk (clearPoison l s) := by
  unfold clearPoison; split
  · exact ⟨h.1, h.2, h.3, h.4, h.5⟩
  · exact h
theorem ok_poisonLine {s : State} (h : MemoriesOk s) (l : Nat) : MemoriesOk (poisonLine l s) := ok_ite h (ok_poisonRange h _ _)
theorem ok_mem {s : State} (h : MemoriesOk s) {m : Memory} (hm : Memory.wf m = true) : MemoriesOk { s with mem := m } :=
  ⟨hm, h.2, h.3, h.4, h.5⟩
theorem ok_restoreLine {s : State} (h : MemoriesOk s) (c k i : Nat) : MemoriesOk (restoreLine c k i s) :=
  ok_clearPoison (ok_mem h (wf_writes _ _ _ h.hbm)) _
theorem ok_restoreShard {s : State} (h : MemoriesOk s) (c k : Nat) : MemoriesOk (restoreShard c k s) :=
  ok_forN (fun _ _ hu => ok_ite (ok_restoreLine hu _ _ _) hu) h
theorem ok_remakeParity {s : State} (h : MemoriesOk s) (c : Nat) : MemoriesOk (remakeParity c s) := by
  unfold remakeParity
  refine ok_forN (fun i u hu => ok_ite ?_ hu) h
  dsimp only
  have h4 : MemoriesOk (if shardLost u c 4 i = true then restoreLine c 4 i u else u) := ok_ite (ok_restoreLine hu c 4 i) hu
  exact ok_ite (ok_restoreLine h4 c 5 i) h4
theorem wf_ite_write {p : Prop} [Decidable p] (a : Nat) (b : Byte) {m : Memory} (h : Memory.wf m = true) :
    Memory.wf (if p then Memory.write a b m else m) = true := by
  split
  · exact wf_write _ _ h
  · exact h
theorem ok_rawWrite {s : State} (h : MemoriesOk s) (kind pa v : Nat) : MemoriesOk (rawWrite kind pa v s) := by
  unfold rawWrite; split
  · exact ok_mem h (wf_ite_write _ _ (wf_ite_write _ _ (wf_ite_write _ _ h.hbm)))
  · exact ok_mem h (wf_write _ _ h.hbm)
theorem ok_rekey {s : State} (h : MemoriesOk s) (kind pa gen : Nat) : MemoriesOk (rekey kind pa gen s) := by
  unfold rekey; dsimp only; split
  · exact ⟨h.1, h.2, h.3, h.4, h.5⟩
  · have h2 := ok_foldl (f := fun u i => rawWrite kind (pa / 128 * 128 + i) (byteAt s kind (pa / 128 * 128 + i) gen) u)
      (fun u i hu => ok_rawWrite hu _ _ _) (List.range 128) h
    exact ⟨h2.1, h2.2, h2.3, h2.4, h2.5⟩
theorem ok_dramAccess {s : State} (h : MemoriesOk s) (on : Bool) (d a : Nat) : MemoriesOk (dramAccess on d a s) := by
  unfold dramAccess; split
  · refine ok_countDie ?_ _ _ _; exact ⟨h.1, h.2, h.3, h.4, h.5⟩
  · exact h
theorem ok_logCorrected {s : State} (h : MemoriesOk s) (a : Nat) : MemoriesOk (logCorrected a s) := by
  have h1 := fun x => ok_countDie (ok_setDie h (a / 2 ^ 37) x) 0x63 1 (a / 2 ^ 37)
  unfold logCorrected; dsimp only; split
  · exact ok_countDie (ok_setDie h _ _) _ _ _
  · split
    · exact ok_same (h1 _) rfl rfl rfl rfl rfl
    · split
      · exact ok_same (h1 _) rfl rfl rfl rfl rfl
      · refine ok_countDie ?_ _ _ _; exact ok_same (h1 _) rfl rfl rfl rfl rfl
theorem ok_correctLine {s : State} (h : MemoriesOk s) (a : Nat) : MemoriesOk (correctLine a s) := by
  unfold correctLine; dsimp only; split
  · exact h
  · exact ok_foldl (fun u e hu => ok_logCorrected hu e) _ (ok_modDie h _ _)
theorem ok_spoilLine {s : State} (h : MemoriesOk s) (a : Nat) : MemoriesOk (spoilLine a s) := by
  unfold spoilLine; exact ok_ite (ok_poisonLine (ok_modDie h _ _) _) h
theorem ok_l2Access {s : State} (h : MemoriesOk s) (wr : Bool) (a : Nat) : MemoriesOk (l2Access wr a s) := by
  unfold l2Access; dsimp only; split
  · split
    · exact ok_modDie h _ _
    · have h1 := ok_dramAccess (ok_dramAccess (ok_spoilLine (ok_correctLine h a) a) true (a / 2 ^ 37) a)
        (((l2Leaves (dieOf s (a / 2 ^ 37)) (a / 128) s.free)).any (fun l => l.dirty)) (a / 2 ^ 37)
        ((((l2Leaves (dieOf s (a / 2 ^ 37)) (a / 128) s.free)).map (fun l => l.line)).getD 0 * 128)
      refine ok_modDie ?_ _ _; exact ok_same h1 rfl rfl rfl rfl rfl
  · exact h
theorem ok_shardAccess {s : State} (h : MemoriesOk s) (c i k : Nat) (wr : Bool) : MemoriesOk (shardAccess c i k wr s) :=
  ok_ite (ok_l2Access h _ _) (ok_dramAccess h _ _ _)
theorem ok_rebuildShard {s : State} (h : MemoriesOk s) (c k : Nat) : MemoriesOk (rebuildShard c k s) :=
  ok_ite (ok_countDie (ok_restoreShard (ok_foldl (fun _ _ hu => ok_shardAccess hu _ _ _ _) _ h) c k) _ _ _) h
/-- An access to a line of HBM. -/
theorem ok_touchAs {s : State} (h : MemoriesOk s) (wr : Bool) (kind pa : Nat) : MemoriesOk (touchAs wr kind pa s) := by
  unfold touchAs; exact ok_ite (ok_rebuildShard (ok_l2Access h _ _) _ _) (ok_l2Access h _ _)
theorem ok_touchLine {s : State} (h : MemoriesOk s) (kind pa : Nat) : MemoriesOk (touchLine kind pa s) := ok_touchAs h _ _ _
theorem ok_touchParity {s : State} (h : MemoriesOk s) (kind pa : Nat) : MemoriesOk (touchParity kind pa s) :=
  ok_ite (ok_shardAccess (ok_shardAccess h _ _ _ _) _ _ _ _) h
theorem ok_patchLine {s : State} (h : MemoriesOk s) (kind line key : Nat) (bs : AList Nat) : MemoriesOk (patchLine kind line key bs s) :=
  ok_foldl (fun u e hu => ok_rawWrite hu _ _ _) bs (ok_rekey h kind (line * 128) key)
theorem ok_putLine {s : State} (h : MemoriesOk s) (kind line key : Nat) (bs : AList Nat) : MemoriesOk (putLine kind line key bs s) := by
  have h1 := ok_patchLine h kind line key bs
  unfold putLine; exact ok_ite (ok_ite (ok_remakeParity (ok_clearPoison h1 _) _) (ok_clearPoison h1 _)) h1
/-- Storing bytes of one line of HBM. -/
theorem ok_writeLine {s : State} (h : MemoriesOk s) (kind line key : Nat) (bs : AList Nat) : MemoriesOk (writeLine kind line key bs s) :=
  ok_putLine (ok_touchParity (ok_touchAs h _ _ _) _ _) _ _ _ _

/-! Scratchpads (03). -/

theorem ok_breakResv {s : State} (h : MemoriesOk s) (who : Option Nat) (line : Nat) : MemoriesOk (breakResv who line s) := by
  unfold breakResv; split
  · exact ok_mapCores h (fun e => by split <;> rfl)
  · exact h
/-- Storing bytes of a scratchpad. -/
theorem ok_spWrite {s : State} (h : MemoriesOk s) (who : Option Nat) (home : Nat) (bs : AList Nat) : MemoriesOk (spWrite who home bs s) := by
  unfold spWrite; dsimp only
  exact ok_foldl (fun u l hu => ok_breakResv hu who l) _ (ok_modCore h home (fun x hx => wf_writes _ _ _ hx))
theorem ok_tagPut {s : State} (h : MemoriesOk s) (home off : Nat) (f : Bool) : MemoriesOk (tagPut home off f s) := ok_modCore_sp h _ (by intro _; rfl)
theorem ok_spCount {s : State} (h : MemoriesOk s) (home : Nat) (l : List Nat) : MemoriesOk (spCount home l s) := by
  unfold spCount; split
  · exact h
  · exact ok_count (ok_count h _ _ _) _ _ _

/-- A run of changes of a core outside its scratchpad. -/
theorem sp_foldl {α : Type} {f : CoreSt → α → CoreSt} (hf : ∀ x e, (f x e).sp = x.sp) (l : List α) (x : CoreSt) : (l.foldl f x).sp = x.sp := by
  induction l generalizing x with
  | nil => rfl
  | cons e l ih => simp only [List.foldl]; rw [ih, hf]
@[simp] theorem deliverWin_sp (w : Window) (x : CoreSt) : (deliverWin w x).sp = x.sp := by
  unfold deliverWin; dsimp only
  rw [accrue_sp, sp_foldl (f := fun y (e : Nat × Tile) => setV e.1 e.2 y) (fun x e => setV_sp _ _ x),
    sp_foldl (f := fun y (e : Nat × Word) => setX e.1 e.2 y) (fun x e => setX_sp _ _ x)]
@[simp] theorem deliverAll_sp (x : CoreSt) : (deliverAll x).sp = x.sp := by
  unfold deliverAll; dsimp only
  rw [closeWins_sp]
  exact sp_foldl (f := fun y (w : Window) => if w.st = .flying then deliverWin w y else y) (fun x w => by split <;> simp) _ _
theorem ok_retire {s t : State} (h : MemoriesOk t) (c n : Nat) : MemoriesOk (retire c n s t) :=
  ok_modCore_sp (ok_clearStall h c) c (fun x => retireCore_sp _ _ x)
theorem ok_ldfArrive {s : State} (h : MemoriesOk s) (w : Waiter) (home v : Nat) (bad : Option Nat) : MemoriesOk (ldfArrive w home v bad s) := by
  unfold ldfArrive
  refine ok_modCore_sp (ok_clearStall h _) _ (fun x => ?_)
  split
  · split
    · split
      · rfl
      · simp
    · rfl
  · rfl
theorem ok_waiterGo {s : State} (h : MemoriesOk s) (w : Waiter) (home : Nat) : MemoriesOk (waiterGo w home s) := by
  have h := ok_spCount h home [w.off]
  unfold waiterGo; dsimp only; split
  · refine ok_retire ?_ _ _
    refine ok_modCore_sp ?_ _ ?_
    · exact ok_tagPut (ok_spWrite h _ _ _) _ _ _
    · intro x; exact sp_foldl (by intro _ _; rfl) _ _
  · split
    · exact ok_ldfArrive h _ _ _ _
    · exact ok_ldfArrive (ok_tagPut (ok_breakResv h _ _) _ _ _) _ _ _ _
  · exact ok_ldfArrive h _ _ _ _
theorem ok_examine {s : State} (h : MemoriesOk s) (n home off : Nat) : MemoriesOk (examine n home off s) := by
  induction n generalizing s with
  | zero => exact h
  | succ n ih =>
    simp only [examine]; split
    · exact h
    · split
      · exact ih (ok_waiterGo (ok_modCore_sp h _ (by intro _; rfl)) _ _)
      · exact h
/-- A tag changes and the waiters of its word proceed. -/
theorem ok_tagChange {s : State} (h : MemoriesOk s) (home off : Nat) (f : Bool) : MemoriesOk (tagChange home off f s) :=
  ok_examine (ok_tagPut h _ _ _) _ _ _
theorem ok_failWaiters {s : State} (h : MemoriesOk s) (home cause : Nat) (p : Waiter → Bool) : MemoriesOk (failWaiters home cause p s) :=
  ok_foldl (fun u w hu => ok_modCore_sp (ok_clearStall hu _) _ (by intro x; split <;> rfl)) _ (ok_setCore h _ (ok_core h _))
theorem ok_withdraw {s : State} (h : MemoriesOk s) (c : Nat) : MemoriesOk (withdraw c s) := by
  unfold withdraw; split
  · exact ok_mapCores h (by intro _; rfl)
  · exact h

/-! Lines, copies and the combining buffer (04). -/

theorem ok_combineCopy {s : State} (h : MemoriesOk s) (k : UoCopy) : MemoriesOk (combineCopy k s) := ok_patchLine (ok_rekey h _ _ _) _ _ _ _
theorem ok_takeCopy {s : State} (h : MemoriesOk s) (c : Nat) (k : UoCopy) : MemoriesOk (takeCopy c k s) := by
  unfold takeCopy; dsimp only
  exact ok_modCore_sp (ok_modCore_sp (ok_breakResv (ok_combineCopy h _) _ _) _ (by intro _; rfl)) _ (by intro _; rfl)
theorem ok_l1Put {s : State} (h : MemoriesOk s) (c : Nat) (e : L1Line) : MemoriesOk (l1Put c e s) := ok_modCore_sp h _ (by intro _; rfl)
theorem ok_l1Evict {s : State} (h : MemoriesOk s) (c : Nat) (l : L1Line) : MemoriesOk (l1Evict c l s) := by
  have hc : ∀ cs : List Nat, MemoriesOk (cs.foldl (fun u c => match copyOf u c l.line with | some k => takeCopy c k u | none => u) s) := fun cs =>
    ok_foldl (fun u k hu => by split <;> first | exact ok_takeCopy hu _ _ | exact hu) _ h
  unfold l1Evict; dsimp only
  refine ok_ite (ok_touchParity (ok_l2Access (ok_modCore_sp ?_ _ (by intro _; rfl)) _ _) _ _) (ok_modCore_sp ?_ _ (by intro _; rfl)) <;>
  · split
    · exact ok_count (hc _) _ _ _
    · exact h
theorem ok_l1Enter {s : State} (h : MemoriesOk s) (n c : Nat) (e : L1Line) : MemoriesOk (l1Enter n c e s) := by
  induction n generalizing s c e with
  | zero => exact ok_l1Put h _ _
  | succ n ih =>
    unfold l1Enter; split
    · exact ok_l1Put h _ _
    · split
      · exact ih (ok_l1Put (ok_takeCopy (ok_touchLine h _ _) _ _) _ _) _ _
      · exact ok_l1Put (ok_l1Evict h _ _) _ _
/-- An access to a home's L1. -/
theorem ok_l1Touch {s : State} (h : MemoriesOk s) (c line : Nat) (d : Bool) : MemoriesOk (l1Touch c line d s) := by
  unfold l1Touch; split
  · exact ok_l1Put h _ _
  · exact ok_l1Enter (ok_touchLine h _ _) _ _ _
theorem ok_returnCopy {s : State} (h : MemoriesOk s) (c line : Nat) : MemoriesOk (returnCopy c line s) := by
  unfold returnCopy; split
  · exact h
  · dsimp only; split
    · exact ok_l1Touch h _ _ _
    · exact ok_takeCopy (ok_l1Touch h _ _ _) _ _
theorem ok_recallLine {s : State} (h : MemoriesOk s) (line : Nat) : MemoriesOk (recallLine line s) := by
  unfold recallLine; split
  · exact h
  · exact ok_count (ok_foldl (fun u c hu => ok_returnCopy hu _ _) _ h) _ _ _
theorem ok_hlcTouch {s : State} (h : MemoriesOk s) (line : Nat) (x d : Bool) : MemoriesOk (hlcTouch line x d s) := ⟨h.1, h.2, h.3, h.4, h.5⟩
theorem ok_hlcRange {s : State} (h : MemoriesOk s) (pa n : Nat) (x d : Bool) : MemoriesOk (hlcRange pa n x d s) :=
  ok_ite h (ok_forN (fun _ _ hu => ok_hlcTouch hu _ _ _) h)
theorem ok_newTxn {s : State} (h : MemoriesOk s) (a b c d e : Nat) (op : TxnOp) (f g i : Nat) (k : Bool) (n : Option (Nat × Nat)) (m : Option Nat) :
    MemoriesOk (newTxn a b c d e op f g i k n m s) := ⟨h.1, h.2, h.3, h.4, h.5⟩
/-- Storing bytes of a line of another module, or of this one through the loopback. -/
theorem ok_remWrite {s : State} (h : MemoriesOk s) (line key : Nat) (bs : AList Nat) : MemoriesOk (remWrite line key bs s) := by
  unfold remWrite; dsimp only; split
  · split
    · exact ok_breakResv (ok_writeLine (ok_recallLine h _) _ _ _ _) _ _
    · exact ok_countAll h _ _
    · exact ok_breakResv (ok_writeLine (ok_recallLine h _) _ _ _ _) _ _
  · exact ⟨h.1, h.2, wf_writes _ _ _ h.3, h.4, h.5⟩
theorem ok_postWrite {s : State} (h : MemoriesOk s) (c line key : Nat) (bs : AList Nat) : MemoriesOk (postWrite c line key bs s) :=
  ok_ite (ok_remWrite h _ _ _) (ok_newTxn h _ _ _ _ _ _ _ _ _ _ _ _)
theorem ok_rpWriteback {s : State} (h : MemoriesOk s) (c : Nat) (l : RpLine) : MemoriesOk (rpWriteback c l s) :=
  ok_ite h (ok_postWrite h _ _ _ _)
theorem ok_rpCountback {s : State} (h : MemoriesOk s) (c : Nat) (l : RpLine) : MemoriesOk (rpCountback c l s) :=
  ok_ite h (ok_count (ok_rpWriteback h _ _) _ _ _)
theorem ok_rpPut {s : State} (h : MemoriesOk s) (c : Nat) (l : RpLine) : MemoriesOk (rpPut c l s) := by
  unfold rpPut; dsimp only; split
  · exact h
  · split
    · exact ok_setDie h _ _
    · split
      · exact h
      · exact ok_rpCountback (ok_setDie h _ _) _ _
theorem ok_loopRead {s : State} (h : MemoriesOk s) (line : Nat) : MemoriesOk (loopRead line s) := by
  unfold loopRead; dsimp only; split
  · split
    · exact ok_ite (ok_touchLine (ok_recallLine h _) _ _) h
    · exact h
  · exact h
theorem ok_rpFetch {s t : State} (h : MemoriesOk s) {c line key : Nat} {old : RpLine} {b : AList Nat} {a f : Option Nat}
    (e : rpFetch c line key old s = (b, a, f, t)) : MemoriesOk t := by
  have h2 := ok_count (ok_loopRead h line) 0x54 1 c
  unfold rpFetch at e; dsimp only at e
  split at e
  · injection e with _ e; injection e with _ e; injection e with _ e; subst e; exact h2
  · injection e with _ e; injection e with _ e; injection e with _ e; subst e
    exact ok_rpPut (ok_ite h2 (ok_newTxn h2 _ _ _ _ _ _ _ _ _ _ _ _)) _ _
theorem ok_rpLoad {s t : State} (h : MemoriesOk s) {c line key : Nat} {b : AList Nat} {a f : Option Nat}
    (e : rpLoad c line key s = .ok (b, a, f, t)) : MemoriesOk t := by
  unfold rpLoad at e; dsimp only at e
  split at e
  · exact nomatch e
  · split at e
    · injection e with e; injection e with _ e; injection e with _ e; injection e with _ e; subst e; exact ok_rpPut h _ _
    · split at e
      · exact nomatch e
      · injection e with e; exact ok_rpFetch h e
theorem ok_rpStore {s : State} (h : MemoriesOk s) (c line key : Nat) (bs : AList Nat) : MemoriesOk (rpStore c line key bs s) := by
  unfold rpStore; dsimp only; split
  · exact ok_setDie h _ _
  · split
    · exact ok_postWrite h _ _ _ _
    · split
      · exact ok_rpPut h _ _
      · split
        · exact ok_rpPut h _ _
        · split
          · rename_i e; exact ok_rpPut (ok_rpFetch h e) _ _
          · rename_i e; exact ok_rpPut (ok_rpFetch h e) _ _
theorem ok_rpClean {s : State} (h : MemoriesOk s) (d : Nat) : MemoriesOk (rpClean d s) := ok_modDie h _ _
theorem ok_rpFlush {s : State} (h : MemoriesOk s) (c : Nat) : MemoriesOk (rpFlush c s) :=
  ok_rpClean (ok_foldl (f := fun u l => rpCountback c l u) (fun _ _ hu => ok_rpCountback hu _ _) _ h) _
theorem ok_rpSend {s : State} (h : MemoriesOk s) (c : Nat) : MemoriesOk (rpSend c s) :=
  ok_rpClean (ok_foldl (f := fun u l => rpWriteback c l u) (fun _ _ hu => ok_rpWriteback hu _ _) _ h) _
theorem ok_rpInvalidate {s : State} (h : MemoriesOk s) (d : Nat) : MemoriesOk (rpInvalidate d s) := ok_modDie h _ _
/-- Bytes of a line are written where it is served. -/
theorem ok_homeWrite {s : State} (h : MemoriesOk s) (home : Option Nat) (kind line key : Nat) (bs : AList Nat) :
    MemoriesOk (homeWrite home kind line key bs s) := by
  unfold homeWrite; dsimp only; split
  · exact ok_putLine (ok_l1Touch (ok_recallLine h _) _ _ _) _ _ _ _
  · exact ok_writeLine (ok_recallLine h _) _ _ _ _
theorem ok_homeRead {s : State} (h : MemoriesOk s) (home : Option Nat) (r : Ref) : MemoriesOk (homeRead home r s) := by
  unfold homeRead; dsimp only; split
  · exact ok_l1Touch (ok_recallLine h _) _ _ _
  · exact ok_touchLine (ok_recallLine h _) _ _
/-- A store to bytes of one line is performed. -/
theorem ok_performStore {s : State} (h : MemoriesOk s) (c : Nat) (e : ScbEntry) : MemoriesOk (performStore c e s) := by
  unfold performStore; split
  · refine ok_breakResv (ok_foldl (fun u b hu => ok_hlcTouch ?_ _ _ _) _ h) _ _
    exact ⟨hu.1, wf_write _ _ hu.2, hu.3, hu.4, hu.5⟩
  · split
    · exact ok_breakResv (ok_rpStore h _ _ _ _) _ _
    · split
      · exact ok_ite (ok_modCore_sp h _ (by intro _; rfl)) (ok_breakResv (ok_homeWrite h _ _ _ _ _) _ _)
      · exact ok_breakResv (ok_homeWrite h _ _ _ _ _) _ _
theorem ok_drainOne {s : State} (h : MemoriesOk s) (c : Nat) : MemoriesOk (drainOne c s) := by
  unfold drainOne; split
  · exact h
  · exact ok_performStore (ok_modCore_sp h _ (by intro _; rfl)) _ _
theorem ok_drainN {s : State} (h : MemoriesOk s) (c n : Nat) : MemoriesOk (drainN c n s) := by
  induction n generalizing s with
  | zero => exact h
  | succ n ih => exact ih (ok_drainOne h c)
theorem ok_drainAll {s : State} (h : MemoriesOk s) (c : Nat) : MemoriesOk (drainAll c s) := ok_drainN h _ _
theorem ok_drainLine {s : State} (h : MemoriesOk s) (c line : Nat) : MemoriesOk (drainLine c line s) := by
  unfold drainLine; split
  · exact ok_drainN h _ _
  · exact h
theorem ok_bufferStore {s : State} (h : MemoriesOk s) (c : Nat) (e : ScbEntry) : MemoriesOk (bufferStore c e s) := by
  unfold bufferStore; dsimp only; split
  · exact ok_setCore h _ (ok_core h _)
  · exact ok_modCore_sp (ok_ite h (ok_drainOne h c)) _ (by intro _; rfl)
/-- A store of bytes of one line by a core. -/
theorem ok_storeRef {s : State} (h : MemoriesOk s) (c : Nat) (w : Who) (r : Ref) (bs : AList Nat) : MemoriesOk (storeRef c w r bs s) := by
  unfold storeRef; dsimp only; split
  · exact ok_spWrite h _ _ _
  · exact ok_ite (ok_performStore h _ _) (ok_bufferStore h _ _)
theorem ok_loadRef {s t : State} (h : MemoriesOk s) {c : Nat} {w : Who} {r : Ref} {n v : Nat} {a f : Option Nat}
    (e : loadRef c w r n s = .ok (v, f, a, t)) : MemoriesOk t := by
  unfold loadRef at e; dsimp only at e
  split at e
  · split at e
    · exact nomatch e
    · injection e with e; injection e with _ e; injection e with _ e; injection e with _ e; subst e; exact h
  · split at e
    · injection e with e; injection e with _ e; injection e with _ e; injection e with _ e; subst e; exact ok_hlcRange h _ _ _ _
    · split at e
      · split at e
        · exact nomatch e
        · rename_i er
          injection e with e; injection e with _ e; injection e with _ e; injection e with _ e; subst e; exact ok_rpLoad h er
      · split at e
        · exact nomatch e
        · injection e with e; injection e with _ e; injection e with _ e; injection e with _ e; subst e
          exact ok_homeRead h _ _
theorem ok_trafficAt {s : State} (h : MemoriesOk s) (k : Nat) : MemoriesOk (trafficAt k s) := ok_modCluster h _ _
theorem ok_countRemote {s : State} (h : MemoriesOk s) (c : Nat) (w : Who) (tile : Bool) (l : List Ref) : MemoriesOk (countRemote c w tile l s) :=
  ok_foldl (fun _ _ hu => ok_trafficAt hu _) _ (ok_ite h (ok_count h _ _ _))
theorem ok_countPads {s : State} (h : MemoriesOk s) (l : List Ref) : MemoriesOk (countPads l s) := ok_foldl (fun _ _ hu => ok_spCount hu _ _) _ h
theorem ok_countAccess {s : State} (h : MemoriesOk s) (c : Nat) (w : Who) (tile : Bool) (l : List Ref) : MemoriesOk (countAccess c w tile l s) :=
  ok_countPads (ok_countRemote h _ _ _ _) _
theorem ok_ilApply {s : State} (h : MemoriesOk s) (d : Nat) : MemoriesOk (ilApply d s) := by
  unfold ilApply; dsimp only; split
  · exact h
  · have h1 := ok_mapCores (f := fun e => if dOf e.1 = d then (e.1, { e.2 with l0 := tlbPurge (ilPending s d) e.2.l0 }) else e) h (fun e => by split <;> rfl)
    refine ok_modDie ?_ _ _
    exact ⟨h1.1, h1.2, h1.3, h1.4, h1.5⟩

/-- What an operation that may end an instruction leaves is canonical: the state it answers, and the one a task leaves. -/
def OkState (r : Except Exc State) : Prop := (∀ t, r = .ok t → MemoriesOk t) ∧ ∀ t, r = .error (.leave t) → MemoriesOk t
/-- The same of an operation that also answers a value. -/
def OkValue {α : Type} (r : Except Exc (α × State)) : Prop :=
  (∀ a t, r = .ok (a, t) → MemoriesOk t) ∧ ∀ t, r = .error (.leave t) → MemoriesOk t

theorem okState_ok {s : State} (h : MemoriesOk s) : OkState (.ok s) := ⟨fun t e => by injection e with e; exact e ▸ h, fun t e => (nomatch e)⟩
theorem okState_trap (c : Nat) (v : Word) : OkState (.error (.trap c v)) := ⟨fun t e => (nomatch e), fun t e => (nomatch e)⟩
theorem okState_stall (c : Nat) (v : Word) (l : Nat) : OkState (.error (.stall c v l)) := ⟨fun t e => (nomatch e), fun t e => (nomatch e)⟩
theorem okState_leave {s : State} (h : MemoriesOk s) : OkState (.error (.leave s)) := ⟨fun t e => (nomatch e), fun t e => by injection e with e; injection e with e; exact e ▸ h⟩
theorem okState_ite {p : Prop} [Decidable p] {a b : Except Exc State} (ha : OkState a) (hb : OkState b) : OkState (if p then a else b) := by
  split <;> assumption
/-- Two operations in sequence. -/
theorem okState_bind {r : Except Exc State} {f : State → Except Exc State} (hr : OkState r) (hf : ∀ t, MemoriesOk t → OkState (f t)) : OkState (r >>= f) := by
  cases r with
  | ok t => exact hf t (hr.1 t rfl)
  | error e => exact ⟨fun t h => (nomatch h), fun t h => hr.2 t (by injection h with h; rw [h])⟩
theorem okState_bindValue {α : Type} {r : Except Exc (α × State)} {f : α × State → Except Exc State} (hr : OkValue r)
    (hf : ∀ a t, MemoriesOk t → OkState (f (a, t))) : OkState (r >>= f) := by
  cases r with
  | ok p => exact hf p.1 p.2 (hr.1 p.1 p.2 rfl)
  | error e => exact ⟨fun t h => (nomatch h), fun t h => hr.2 t (by injection h with h; rw [h])⟩

/-- Releases, acquires and fences. -/
theorem ok_orderTry {s t : State} (h : MemoriesOk s) {c : Nat} {a r f d b : Bool} {sc : Scope}
    (e : orderTry c a r f d sc s = (t, b)) : MemoriesOk t := by
  unfold orderTry at e; dsimp only at e
  have h1 : MemoriesOk (if d = true then drainAll c s else s) := ok_ite (ok_drainAll h c) h
  generalize (if d = true then drainAll c s else s) = s1 at h1 e
  have h2 : MemoriesOk (if (decide (4 ≤ sc.code) && (a || f)) = true then ilApply (dOf c) s1 else s1) := ok_ite (ok_ilApply h1 _) h1
  generalize (if (decide (4 ≤ sc.code) && (a || f)) = true then ilApply (dOf c) s1 else s1) = s2 at h2 e
  have h3 : MemoriesOk (if (decide (sc = .s) && (a || r)) = true then rpFlush c s2 else s2) := ok_ite (ok_rpFlush h2 c) h2
  generalize (if (decide (sc = .s) && (a || r)) = true then rpFlush c s2 else s2) = s3 at h3 e
  injection e with e _; subst e
  exact ok_ite (ok_rpInvalidate h3 _) h3
theorem ok_orderOp {s : State} (h : MemoriesOk s) (c : Nat) (a r f d : Bool) (sc : Scope) : OkState (orderOp c a r f d sc s) := by
  unfold orderOp; split
  · rename_i e; exact okState_ok (ok_orderTry h e)
  · rename_i e; exact okState_leave (ok_modCore_sp (ok_setStall (ok_orderTry h e) _ _ _) _ (by intro _; rfl))
theorem ok_leaveReady {s : State} (h : MemoriesOk s) (c : Nat) : MemoriesOk (leaveReady c s).1 := ok_ilApply (ok_drainAll h c) _

/-! Traps (18). -/

theorem ok_resolveWins {s : State} (h : MemoriesOk s) (c : Nat) : MemoriesOk (resolveWins c s) :=
  ok_modCore_sp (ok_withdraw h c) c (by intro x; exact deliverAll_sp x)
theorem ok_raiseIrq {s : State} (h : MemoriesOk s) (q : Nat) : MemoriesOk (raiseIrq q s) := ⟨h.1, h.2, h.3, h.4, h.5⟩
theorem ok_domError {s : State} (h : MemoriesOk s) (c k : Nat) : MemoriesOk (domError c k s) := ⟨h.1, h.2, h.3, h.4, h.5⟩
theorem ok_doubleTrap {s : State} (h : MemoriesOk s) (c k : Nat) (v e : Word) : MemoriesOk (doubleTrap c k v e s) :=
  ok_foldl (fun u q hu => ok_raiseIrq hu q) _ (ok_setRun (ok_modCore_sp (ok_drainAll h c) c (by intro x; exact deliverAll_sp x)) _ _)
theorem ok_enterTrap {s : State} (h : MemoriesOk s) (c k : Nat) (v e : Word) : MemoriesOk (enterTrap c k v e s) :=
  ok_setRun (ok_modCore_sp (ok_drainAll (ok_resolveWins h c) c) c (by intro _; rfl)) _ _
theorem ok_noteDivergence {s : State} (h : MemoriesOk s) (c k : Nat) : MemoriesOk (noteDivergence c k s) := by
  unfold noteDivergence; split
  · exact ok_same (ok_countDie (ok_modCore_sp h c (f := fun x => { x with fpDiv := false }) (by intro _; rfl)) 0xD0 1 (dOf c)) rfl rfl rfl rfl rfl
  · exact h
theorem ok_takeTrap {s : State} (h : MemoriesOk s) (c k : Nat) (v e : Word) : MemoriesOk (takeTrap c k v e s) := by
  unfold takeTrap; dsimp only
  exact ok_ite (ok_setStall h _ _ _) (ok_ite (ok_setStall (ok_domError (ok_noteDivergence h _ _) _ _) _ _ _)
    (ok_ite (ok_doubleTrap (ok_noteDivergence h _ _) _ _ _ _) (ok_enterTrap (ok_noteDivergence h _ _) _ _ _ _)))
/-- What an instruction leaves: completed, trapped, stalled or gone from its core. -/
theorem ok_finish {n : Nat} {s t : State} {r : Except Exc State} (h : MemoriesOk s) (hr : OkState r) (e : finish n s r = .next t) : MemoriesOk t := by
  unfold finish at e
  split at e
  · injection e with e; subst e; exact ok_retire (hr.1 _ rfl) _ _
  · injection e with e; subst e; exact ok_takeTrap h _ _ _ _
  · injection e with e; subst e; exact ok_setStallAs h _ _ _ _
  · injection e with e; subst e; exact hr.2 _ rfl

end Sys2Proof.Laws
end

