-- ==== Sys2Proof/Laws/EngineMemories.lean ====
section
/-!
SUPPORT. The operations of engines, the hub, the host and splits that write a memory of State keep every memory in its canonical form.
-/

namespace Sys2Proof.Laws

open Sys2Proof Sys2Proof.Machine Sys2Proof.Safety

set_option linter.all false

/-! Free bytes (14 R320). -/

theorem wfFrom_append {lo hi : Nat} {a b : Memory} (ha : Memory.wfFrom lo a = true) (hlt : ∀ e ∈ a, e.1 < hi) (hlo : lo ≤ hi)
    (hb : Memory.wfFrom hi b = true) : Memory.wfFrom lo (a ++ b) = true := by
  induction a generalizing lo with
  | nil => exact wfFrom_le hlo hb
  | cons e a ih =>
    obtain ⟨k, v⟩ := e
    obtain ⟨hk, hv, hm⟩ := (wfFrom_cons _ _ _ _).1 ha
    exact (wfFrom_cons _ _ _ _).2 ⟨hk, hv, ih hm (fun e he => hlt e (by simp [he])) (hlt (k, v) (by simp))⟩

theorem wfFrom_above {lo hi : Nat} {m : Memory} (h : Memory.wfFrom lo m = true) (hk : ∀ e ∈ m, hi ≤ e.1) : Memory.wfFrom hi m = true := by
  cases m with
  | nil => rfl
  | cons e m =>
    obtain ⟨k, v⟩ := e
    obtain ⟨_, hv, hm⟩ := (wfFrom_cons _ _ _ _).1 h
    exact (wfFrom_cons _ _ _ _).2 ⟨hk (k, v) (by simp), hv, hm⟩

theorem wfFrom_cells (lo n : Nat) (g : Nat → Byte) (k : Nat) :
    Memory.wfFrom (lo + k) (((List.range' k n).map (fun i => (lo + i, g i))).filter (fun e => e.2 != 0)) = true := by
  induction n generalizing k with
  | zero => rfl
  | succ n ih =>
    simp only [List.range'_succ, List.map_cons, List.filter_cons]
    have h1 := ih (k + 1)
    split
    · rename_i hne
      exact (wfFrom_cons _ _ _ _).2 ⟨Nat.le_refl _, by simpa using hne, h1⟩
    · exact wfFrom_le (by omega) h1

theorem wf_freeRange (lo n f : Nat) {m : Memory} (h : Memory.wf m = true) : Memory.wf (freeRange lo n f m) = true := by
  unfold freeRange; dsimp only
  have hc := wfFrom_cells lo n (fun i => BitVec.ofNat 8 ((Config.word (f + i / 8)).toNat / 2 ^ (8 * (i % 8)))) 0
  rw [← List.range_eq_range'] at hc
  refine wfFrom_append (hi := lo + n) ?_ ?_ (by omega) ?_
  · refine wfFrom_append (hi := lo) (wf_filter _ h) ?_ (by omega) hc
    intro e he; simpa using (List.mem_filter.1 he).2
  · intro e he
    rcases List.mem_append.1 he with he | he
    · have : e.1 < lo := by simpa using (List.mem_filter.1 he).2
      omega
    · obtain ⟨i, hi, rfl⟩ := List.mem_map.1 (List.mem_filter.1 he).1
      have := List.mem_range.1 hi
      simp; omega
  · exact wfFrom_above (wf_filter _ h) (fun e he => by simpa using (List.mem_filter.1 he).2)
theorem ok_spillSet {s : State} (h : MemoriesOk s) (cl : Nat) (l : Lease) : MemoriesOk (spillSet cl l s) := by
  unfold spillSet; dsimp only
  generalize hm : modLease cl l.core _ _ = t
  have ht : MemoriesOk t := hm ▸ ok_modCluster (ok_count h 0xA3 1 l.core) cl _
  have h2 := ok_modCore (f := fun x => { x with sp := freeRange (l.sb * tileBytes) (16 * tileBytes) t.free x.sp }) ht l.core
    (fun x hx => wf_freeRange _ _ _ hx)
  exact ⟨h2.1, h2.2, h2.3, h2.4, h2.5⟩

/-! Engines (15; 05 R102, R103). -/

theorem ok_keyed {s : State} (h : MemoriesOk s) (k : AList Nat) : MemoriesOk { s with lineKey := k } := ⟨h.1, h.2, h.3, h.4, h.5⟩
theorem ok_yardStore {s : State} (h : MemoriesOk s) (c k j v : Nat) : MemoriesOk (yardStore c k j v s) := ok_keyed (ok_mem h (wf_write _ _ h.hbm)) _
theorem ok_yardAccess {s : State} (h : MemoriesOk s) (c k i : Nat) : MemoriesOk (yardAccess c k i s) := by
  unfold yardAccess; exact ok_ite (ok_dramAccess (ok_spoilLine (ok_correctLine h _) _) _ _ _) h
theorem ok_moverTxn {s : State} (h : MemoriesOk s) (m : Mover) (key addr n : Nat) (ack : Bool) (op : TxnOp) :
    MemoriesOk (moverTxn m key addr n ack op s) := ok_newTxn h _ _ _ _ _ _ _ _ _ _ _ _
theorem ok_yardData {s : State} (h : MemoriesOk s) (m : Mover) (c k j : Nat) (bs : AList Nat) (bad : List Nat) :
    MemoriesOk (yardData m c k j bs bad s) := by
  unfold yardData; dsimp only; split
  · have h1 := ok_foldl (f := fun u (e : Nat × Nat) => yardStore c k (j + e.1) e.2 u) (fun u e hu => ok_yardStore hu _ _ _ _) bs
      (ok_yardAccess h c k (j / 128))
    have h2 := ok_ite (p := bs.length = 128) (ok_clearPoison h1 (yardHere (bs.foldl (fun u (e : Nat × Nat) => yardStore c k (j + e.1) e.2 u) (yardAccess c k (j / 128) s)) c j / 128)) h1
    exact ok_ite h2 (ok_poisonLine h2 _)
  · exact ok_ite h (ok_moverTxn h _ _ _ _ _ _)
theorem ok_yardDelta {s : State} (h : MemoriesOk s) (m : Mover) (c i w : Nat) (ds : AList Nat) : MemoriesOk (yardDelta m c i w ds s) := by
  unfold yardDelta; dsimp only; split
  · exact h
  · split
    · exact ok_foldl (fun u e hu => ok_yardStore hu _ _ _ _) _ (ok_yardAccess h _ _ _)
    · exact ok_foldl (fun u e hu => ok_moverTxn hu _ _ _ _ _ _) _ h
theorem ok_yardRemake {s : State} (h : MemoriesOk s) (m : Mover) (c i k : Nat) : MemoriesOk (yardRemake m c i k s) :=
  ok_ite (ok_yardData h _ _ _ _ _ _) h
theorem ok_yardWrite {s : State} (h : MemoriesOk s) (m : Mover) (gen line : Nat) (bs : AList Nat) (bad : List Nat) :
    MemoriesOk (yardWrite m gen line bs bad s) := by
  unfold yardWrite
  generalize yardChunk (line * 128) = p
  obtain ⟨c, k, j⟩ := p
  dsimp only
  have h1 := fun ds key => ok_keyed (ok_yardData (ok_yardDelta (ok_yardDelta h m c 4 1 ds) m c 5 (shardWeight k) ds) m c k j bs bad) key
  have hr : ∀ (i : Nat) (v : State), MemoriesOk v → MemoriesOk (if (yardStored s c i j).isNone then yardRemake m c i (j / 128) v else v) :=
    fun i v hv => ok_ite (ok_yardRemake hv _ _ _ _) hv
  exact ok_ite (hr 5 _ (hr 4 _ (ok_clearPoison (h1 _ _) _))) (h1 _ _)
theorem ok_yardTouch {s : State} (h : MemoriesOk s) (m : Mover) (line : Nat) : MemoriesOk (yardTouch m line s) := by
  unfold yardTouch
  generalize yardChunk (line * 128) = p
  obtain ⟨c, k, j⟩ := p
  dsimp only
  have h1 := ok_yardAccess h c k (j / 128)
  have h2 := fun l => ok_foldl (f := fun v i => yardAccess c i (j / 128) v) (fun u i hu => ok_yardAccess hu _ _ _) l h1
  exact ok_ite h1 (ok_ite (ok_countDie (h2 _) _ _ _) (h2 _))
theorem ok_touchRange {s : State} (h : MemoriesOk s) (m : Mover) (r : Ref) (n : Nat) : MemoriesOk (touchRange m r n s) := by
  unfold touchRange; dsimp only; split
  · exact ok_count h _ _ _
  · split
    · exact ok_hlcRange h _ _ _ _
    · split
      · exact ok_foldl (f := fun t l => yardTouch m l t) (fun u l hu => ok_yardTouch hu _ _) _ h
      · exact ok_foldl (fun u l hu => ok_homeRead hu _ _) _ h
theorem ok_readRange {s : State} (h : MemoriesOk s) (m : Mover) (r : Ref) (n : Nat) : MemoriesOk (readRange m r n s).2 := ok_touchRange h m r n
theorem ok_poisonGran {s : State} (h : MemoriesOk s) (r : Ref) : MemoriesOk (poisonGran r s) := by
  unfold poisonGran; dsimp only; split
  · exact ok_modCore_sp h _ (by intro _; rfl)
  · exact ok_ite h (ok_poisonLine h _)
theorem ok_storeOwn {s : State} (h : MemoriesOk s) (m : Mover) (r : Ref) (bs : AList Nat) : MemoriesOk (storeOwn m r bs s) :=
  ok_foldl (fun u l hu => ok_breakResv (ok_homeWrite hu _ _ _ _ _) _ _) _ h
/-- Bytes of host memory are stored. -/
theorem ok_hostWrites {s : State} (h : MemoriesOk s) {α : Type} (f : α → Nat) (g : α → Byte) (l : List α) :
    MemoriesOk { s with hostMem := l.foldl (fun m e => Memory.write (f e) (g e) m) s.hostMem } := ⟨h.1, wf_writes f g l h.2, h.3, h.4, h.5⟩
theorem ok_storeHost {s : State} (h : MemoriesOk s) (pa : Nat) (bs : AList Nat) : MemoriesOk (storeHost pa bs s) :=
  ok_foldl (fun u k hu => ok_breakResv hu _ _) _
    (ok_hlcRange (ok_hostWrites h (fun (e : Nat × Nat) => (pa + e.1) % 2 ^ 50) (fun e => BitVec.ofNat 8 e.2) bs) _ _ _ _)
theorem ok_storePad {s : State} (h : MemoriesOk s) (m : Mover) (r : Ref) (bs : AList Nat) : MemoriesOk (storePad m r bs s) :=
  ok_spWrite (ok_count (ok_ite h (ok_trafficAt h _)) _ _ _) _ _ _
theorem ok_fillTags {s : State} (h : MemoriesOk s) (home off n : Nat) : MemoriesOk (fillTags home off n s) :=
  ok_foldl (f := fun t i => tagChange home (off + 8 * i) true t) (fun u i hu => ok_tagChange hu _ _ _) _ h
/-- An engine writes a range. -/
theorem ok_writeRange {s : State} (h : MemoriesOk s) (m : Mover) (r : Ref) (l : List Gran) : MemoriesOk (writeRange m r l s) := by
  have mark : ∀ (k : List (Gran × Ref)) {u : State}, MemoriesOk u → MemoriesOk (k.foldl (fun v e => if e.1.bad then poisonGran e.2 v else v) u) :=
    fun k u hu => ok_foldl (f := fun v (e : Gran × Ref) => if e.1.bad then poisonGran e.2 v else v) (fun u e hu => ok_ite (ok_poisonGran hu _) hu) k hu
  unfold writeRange; dsimp only; split
  · have h1 := mark (l.zip (granRefs r (16 * l.length))) (ok_storePad h m r (granBytes l))
    exact ok_ite (ok_fillTags h1 _ _ _) h1
  · split
    · exact ok_storeHost h _ _
    · split
      · exact ok_moverTxn h _ _ _ _ _ _
      · split
        · exact mark _ (ok_foldl (fun u k hu => ok_remWrite hu _ _ _) _ h)
        · split
          · exact ok_foldl (fun u k hu => ok_yardWrite hu _ _ _ _ _) _ h
          · exact mark _ (ok_storeOwn h _ _ _)
theorem ok_writeWordsAt {s : State} (h : MemoriesOk s) (m : Mover) (r : Ref) (ws : List (Nat × Bool)) : MemoriesOk (writeWordsAt m r ws s) := by
  unfold writeWordsAt; dsimp only
  exact ok_foldl (f := fun v (e : (Nat × Bool) × Nat) => if e.1.2 then poisonGran { r with pa := r.pa + 4 * e.2 } v else v)
    (fun u e hu => ok_ite (ok_poisonGran hu _) hu) _ (ok_ite (ok_storeHost h _ _) (ok_storeOwn h _ _ _))
theorem ok_writeRow {s : State} (h : MemoriesOk s) (m : Mover) (l : List (Ref × Nat)) (ws : List (Nat × Bool)) : MemoriesOk (writeRow m l ws s) := by
  induction l generalizing s ws with
  | nil => exact h
  | cons e l ih => obtain ⟨r, n⟩ := e; exact ih (ok_writeWordsAt h _ _ _) _

/-! The hub, splits, the host, and placing an instruction. -/

theorem ok_hubWrite {s : State} (h : MemoriesOk s) (q : Nat) (r : Ref) (v n : Nat) : MemoriesOk (hubWrite q r v n s) := by
  unfold hubWrite; dsimp only; split
  · exact ok_spWrite (ok_count h _ _ _) _ _ _
  · exact ok_ite (ok_storeHost h _ _) (ok_ite (ok_newTxn h _ _ _ _ _ _ _ _ _ _ _ _) (ok_breakResv (ok_homeWrite h _ _ _ _ _) _ _))
/-- A split change. -/
theorem ok_splitDone {s : State} (h : MemoriesOk s) (c : Nat) : MemoriesOk (splitDone c s) := by
  unfold splitDone; dsimp only; split
  · exact h
  · refine ok_modCore ?_ c (fun x hx => wf_filter _ hx)
    have h1 := ok_foldl (f := fun t (k : Sharers) => recallLine k.line t) (fun u k hu => ok_recallLine hu _) (coreOf s c).sharers h
    generalize (coreOf s c).sharers.foldl (fun t k => recallLine k.line t) s = s1 at h1 ⊢
    have h2 := ok_foldl (f := fun t (k : UoCopy) => returnCopy c k.line t) (fun u k hu => ok_returnCopy hu _ _) (coreOf s1 c).copies h1
    generalize (coreOf s1 c).copies.foldl (fun t k => returnCopy c k.line t) s1 = s2 at h2 ⊢
    have h3 := ok_foldl (f := fun t (l : L1Line) => l1Evict c l t) (fun u l hu => ok_l1Evict hu _ _) (coreOf s2 c).l1 h2
    exact ok_ite (ok_failWaiters h3 _ _ _) h3
theorem ok_setSplit {s : State} (h : MemoriesOk s) (c n : Nat) : MemoriesOk (setSplit c n s) := by
  unfold setSplit; split
  · exact h
  · exact ok_splitDone (ok_modCore_sp h c (by intro _; rfl)) c
theorem ok_hostSnoop {s t : State} (h : MemoriesOk s) {line off len : Nat} {b : Bool} {v : Word} (e : execHostSnoop line b off len v s = .next t) :
    MemoriesOk t := by
  unfold execHostSnoop at e
  injection e with e; subst e
  split
  · dsimp only; split
    · exact ⟨h.1, h.2, h.3, h.4, h.5⟩
    · split
      · exact ⟨h.1, h.2, h.3, h.4, h.5⟩
      · exact ok_breakResv (s := { s with hlc := _, hostMem := Memory.writeN ((line * 64 + off) % 2 ^ 50) v.toNat len s.hostMem }) ⟨h.1, wf_writeN _ _ _ h.2, h.3, h.4, h.5⟩ _ _
  · exact ⟨h.1, h.2, h.3, h.4, h.5⟩
/-- The instruction placed for a run from any state (log 5). -/
theorem ok_placeWord {s : State} (h : MemoriesOk s) (w : Nat) : MemoriesOk (placeWord w s) := by
  unfold placeWord; dsimp only
  have h1 : ∀ m, Memory.wf m = true → MemoriesOk { s with mem := m } := fun m hm => ok_mem h hm
  have h2 := h1 _ (wf_placeBytes (readyCore (coreOf s 0)).pc.toNat w h.1)
  refine ok_setCore (s := _) ?_ 0 (ok_core h 0)
  exact ⟨h2.1, h2.2, h2.3, h2.4, h2.5⟩

end Sys2Proof.Laws
end

