-- ==== Sys2Proof/Tests/Slice0.lean ====
section
/-!
SUPPORT. Tests of the model on small states: words written out from the encodings decode, ill-formed terms are refused, the
worked examples of the spec hold, and every statement's hypotheses can be met. Expected values come from the spec's examples and
tables, named at each test.
-/

namespace Sys2Proof.Tests

open Sys2Proof Sys2Proof.Machine Sys2Proof.Safety

/-! Words (encodings of 09, 10, 11, 13, 16). -/

/-- 10 R212: add, opcode 0110011. -/
theorem test_word_add : decodeWords [0x00C58533] = .ok (.add 10 11 12, 4) := by and_intros <;> rfl
/-- 10 R213: lui. -/
theorem test_word_lui : decodeWords [0x12345537] = .ok (.lui 10 0x12345, 4) := by and_intros <;> rfl
/-- 10 R217: divu with la 3. -/
theorem test_word_divu : decodeWords [0x3EB512B3] = .ok (.divu 5 10 11 3, 4) := by and_intros <;> rfl
/-- 10 R223: beq over 4 words. -/
theorem test_word_beq : decodeWords [0x00050263] = .ok (.beq 10 0 4, 4) := by and_intros <;> rfl
/-- 10 R224: jal forward and back. -/
theorem test_word_jal : decodeWords [0x000400EF] = .ok (.jal 1 64, 4) ∧ decodeWords [0xFFFFE06F] = .ok (.jal 0 (-2), 4) := by and_intros <;> rfl
/-- 10 R226: jalp. -/
theorem test_word_jalp : decodeWords [0x000310E7] = .ok (.jalp 1 6, 4) := by and_intros <;> rfl
/-- 10 R222: modp. -/
theorem test_word_modp : decodeWords [0x010552F7] = .ok (.modp 5 10 16, 4) := by and_intros <;> rfl
/-- 10 R234: fmadd.s. -/
theorem test_word_fmadd : decodeWords [0x68C5F547] = .ok (.fmaddS 10 11 12 13 7, 4) := by and_intros <;> rfl
/-- 10 R240: trap 0x21. -/
theorem test_word_trap : decodeWords [0x02100073] = .ok (.trap 0x21, 4) := by and_intros <;> rfl
/-- 11 R247: ld with a scaled offset and la 2. -/
theorem test_word_ld : decodeWords [0x2025B283] = .ok (.ld 5 11 2 2, 4) := by and_intros <;> rfl
/-- 11 R249: an acquiring load of scope d, and a releasing store of scope t. -/
theorem test_word_ordered : decodeWords [0x06C5F283] = .ok (.loadAcquire 5 11 3 .d 0, 4) ∧
    decodeWords [0x58A67023] = .ok (.storeRelease 10 12 3 .t, 4) := by and_intros <;> rfl
/-- 11 R253: ste. -/
theorem test_word_ste : decodeWords [0x00A6240B] = .ok (.ste 10 12 8, 4) := by and_intros <;> rfl
/-- 11 R255 and R258: an atomic and a reduction. -/
theorem test_word_amo : decodeWords [0x11E5C52F] = .ok (.amoadd 10 11 true true true .p 1, 4) ∧
    decodeWords [0x12A5F02F] = .ok (.redfadd 10 11, 4) := by and_intros <;> rfl
/-- 11 R259 to R261: fence, ifence and codeinv. -/
theorem test_word_fence : decodeWords [0xC4C0018F] = .ok (.fence 0xC4 0xC0 .d, 4) ∧ decodeWords [0x0000100F] = .ok (.ifence, 4) ∧
    decodeWords [0x00B5220F] = .ok (.codeinv 10 11 .p, 4) := by and_intros <;> rfl
/-- 11 R250: a tile load. -/
theorem test_word_vld : decodeWords [0x40250187] = .ok (.vld 3 10 2 4 none, 4) := by and_intros <;> rfl
/-- 13 R296: a tile sum, and a prefixed fused product (13 R292). -/
theorem test_word_tile_fp : decodeWords [0x002E0ECF] = .ok (.vfadd 29 28 2 false .f32 none, 4) ∧
    decodeWords [0x0024201F, 0x503100CF] = .ok (.vfma 1 2 3 false .f32 (some ⟨false, false, 0, true, 4, 1, false, 0⟩), 8) := by and_intros <;> rfl
/-- 13 R300, R302, R308 and R289: a special function, a conversion, a compare and tshape. -/
theorem test_word_tile_rest : decodeWords [0x300372D3] = .ok (.vexp2 5 6 3 none, 4) ∧
    decodeWords [0x740183D3] = .ok (.vcvt 7 3 .e2m1 .f32 2 none, 4) ∧ decodeWords [0x202082D7] = .ok (.vcmp 5 1 2 .lt .f32 none, 4) ∧
    decodeWords [0x0071B057] = .ok (.tshape 3 7 none, 4) := by and_intros <;> rfl
/-- 16 R373 to R387: task and synchronization instructions. -/
theorem test_word_tasks : decodeWords [0x0105942B] = .ok (.fork 8 11 16, 4) ∧ decodeWords [0x0606002B] = .ok (.join 12, 4) ∧
    decodeWords [0x62C5853F] = .ok (.send 10 11 12 1 .d, 4) ∧ decodeWords [0x0850303F] = .ok (.bar 5, 4) ∧
    decodeWords [0x0032805B] = .ok (.give 5 3, 4) ∧ decodeWords [0x0032905B] = .ok (.take 5 3, 4) := by and_intros <;> rfl
/-- 09 R190: words that decode to nothing, with their details. -/
theorem test_word_refused : decodeWords [0] = .error 0x01 ∧ decodeWords [0x00C58530] = .error 0x02 ∧
    decodeWords [0x0024349F, 0x00C58533] = .error 0x10 := by and_intros <;> rfl
/-- 09 R186: the encoder gives the words written out above. -/
theorem test_encode : encode (.add 10 11 12) = [0x00C58533] ∧ encode (.divu 5 10 11 3) = [0x3EB512B3] ∧
    encode (.vcvt 7 3 .e2m1 .f32 2 none) = [0x740183D3] ∧ encode (.ste 10 12 8) = [0x00A6240B] := by decide
/-- The table's numbering: word 0 is bits 31 to 0, and what the table gives no bits is 0. -/
theorem test_table_word : decodeTableWord 32 0x00C58533 = some (.add 10 11 12) ∧ decodeTableWord 32 0 = none := by decide

/-! Ill-formed terms: one for each check of Instr.wellFormed (09 R187, R190; 13 R292). -/

theorem test_wf_immediate : (Instr.addi 1 2 2048).wellFormed = false ∧ (Instr.addi 1 2 2047).wellFormed = true := by decide
theorem test_wf_port_destination : (Instr.div 28 1 2 0).wellFormed = false ∧ (Instr.div 27 1 2 0).wellFormed = true := by decide
theorem test_wf_branch_port : (Instr.beq 28 1 4).wellFormed = false := by decide
theorem test_wf_jump_range : (Instr.jal 1 524288).wellFormed = false ∧ (Instr.jal 1 (-524288)).wellFormed = true := by decide
theorem test_wf_prefix_field : (Instr.vmulh 1 2 3 false .i32 (some ⟨true, false, 0, false, 0, 0, false, 0⟩)).wellFormed = false := by decide
theorem test_wf_needs_operand4 : (Instr.vfma 1 2 3 false .f32 none).wellFormed = false := by decide
theorem test_wf_mask_port : (Instr.vadd 1 2 3 false .i32 (some ⟨false, false, 0, false, 0, 0, false, 28⟩)).wellFormed = false := by decide
theorem test_wf_gang_source : (Instr.vadd 1 28 3 false .i32 (some ⟨false, true, 1, false, 0, 0, false, 0⟩)).wellFormed = false := by decide
theorem test_wf_part : (Instr.vcvt 1 2 .f32 .f32 1 none).wellFormed = false ∧ (Instr.vcvt 1 2 .e2m1 .f32 7 none).wellFormed = true := by decide
theorem test_wf_reduction : (Instr.vredsum 1 2 false .e4m3 none).wellFormed = false := by decide

/-! A small state: core 0 runs a task in supervisor mode, its translation off, at 0x1000. -/

/-- The core, with the registers given. -/
def demoCore (regs : AList Word) : CoreSt :=
  { regs := regs, pc := 0x1000, run := .running, haveTask := true, gtid := 5, tvec := 0x2000, picking := false }

/-- The module with core 0 as given. -/
def demo (regs : AList Word) : State := { cores := [(0, demoCore regs)], barns := [{ q := 1, seq := 0, seq0 := 0, tenant := 0, die := 0, clusters := [0], live := 1 }] }

/-- A register of core 0 after an instruction. -/
def regAfter (r : Nat) : Host.Outcome State Fault Refusal → Option Word
  | .next t => some (getX r (coreOf t 0))
  | _ => none

/-- A value of core 0 after an instruction. -/
def coreAfter {α : Type} (f : CoreSt → α) : Host.Outcome State Fault Refusal → Option α
  | .next t => some (f (coreOf t 0))
  | _ => none

/-- The value that the youngest window of core 0 carries after an instruction. -/
def onWay (o : Host.Outcome State Fault Refusal) : Option (List (Nat × Word)) :=
  match o with
  | .next t => (coreOf t 0).windows.getLast?.map (fun w => w.xval)
  | _ => none

/-- 10 R212: the sum of 2^64 - 1 and 2 wraps to 1; source and destination may be one register. -/
theorem test_add_wraps : regAfter 1 (exec (.add 1 1 2) (demo [(1, 0xFFFFFFFFFFFFFFFF), (2, 2)])) = some 1 := by decide
/-- 09 R191: x0 keeps 0. -/
theorem test_x0 : regAfter 0 (exec (.addi 0 1 5) (demo [(1, 7)])) = some 0 := by decide
/-- 10 R217, the first and the last row of its example. -/
theorem test_divide_rows : onWay (exec (.div 5 1 2 0) (demo [(1, 0xFFFFFFFFFFFFFFF9), (2, 2)])) = some [(5, 0xFFFFFFFFFFFFFFFD)] ∧
    onWay (exec (.remuw 5 1 2 0) (demo [(1, 0x180000009)])) = some [(5, 0xFFFFFFFF80000009)] := by decide
/-- 10 R217: the most negative number divided by -1, and a divisor of 0. -/
theorem test_divide_corners : onWay (exec (.div 5 1 2 0) (demo [(1, 0x8000000000000000), (2, 0xFFFFFFFFFFFFFFFF)])) =
      some [(5, 0x8000000000000000)] ∧ onWay (exec (.divu 5 1 2 0) (demo [(1, 5)])) = some [(5, 0xFFFFFFFFFFFFFFFF)] := by decide
/-- 10 R220: carry-less products of its example. -/
theorem test_clmul : regAfter 5 (exec (.clmul 5 1 2) (demo [(1, 3), (2, 3)])) = some 5 ∧
    regAfter 5 (exec (.clmulr 5 1 2) (demo [(1, 0x8000000000000000), (2, 2)])) = some 2 := by decide
/-- 10 R221: bext and bdep of its example. -/
theorem test_bext_bdep : regAfter 5 (exec (.bext 5 1 2) (demo [(1, 0xB6), (2, 0xF0)])) = some 0xB ∧
    regAfter 5 (exec (.bdep 5 1 2) (demo [(1, 5), (2, 0xAA)])) = some 0x22 := by decide
/-- 10 R224: the link is the next word, the target pc + 4 * 64. -/
theorem test_jal : regAfter 1 (exec (.jal 1 64) (demo [])) = some 0x1004 ∧
    coreAfter (fun x => x.pc) (exec (.jal 1 64) (demo [])) = some 0x1100 := by decide
/-- 10 R225, R226: a target that is no multiple of 4 faults on the jump. -/
theorem test_jalr_misaligned : coreAfter (fun x => (x.cause, x.epc, x.tval, x.pc)) (exec (.jalr 1 2 0) (demo [(2, 0x2002)])) =
    some (0x201, 0x1000, 0x2002, 0x2020) := by decide
/-- 10 R240, 18 R415: trap 0x21 enters class 11 with EPC at itself. -/
theorem test_trap : coreAfter (fun x => (x.cause, x.epc, x.tval, x.pc)) (exec (.trap 0x21) (demo [])) =
    some (0xB21, 0x1000, 0, 0x20B0) := by decide
/-- 18 R416: eret goes to EPC. -/
theorem test_eret : coreAfter (fun x => x.pc) (exec .eret { demo [] with cores := [(0, { demoCore [] with epc := 0x3000, status := 0x11 })] }) =
    some 0x3000 := by decide
/-- 10 R236, 18 R413: a CSR exchange writes SSCRATCH (0x840) and returns what it held. -/
theorem test_csrrw : coreAfter (fun x => (x.sscratch, getX 5 x)) (exec (.csrrw 5 1 0x840) (demo [(1, 9)])) = some (9, 0) := by decide
/-- 10 R230, 12 R270: 1.0 + 2.0 = 3.0 in FP32. -/
theorem test_fadd : regAfter 5 (exec (.faddS 5 1 2 0) (demo [(1, 0x3F800000), (2, 0x40000000)])) = some 0x40400000 := by decide
/-- 10 R229: the largest finite number doubled is infinity under RNE and raises OF and NX. -/
theorem test_fadd_overflow : coreAfter (fun x => (getX 5 x, x.fcsr)) (exec (.faddS 5 1 1 0) (demo [(1, 0x7F7FFFFF)])) =
    some (0x7F800000, 5) := by decide
/-- 11 R246 to R248 through the local alias (02 R25): a stored dword is loaded back. -/
theorem test_store_load : (match exec (.sd 2 1 0) (demo [(1, 0x00E8000000000040), (2, 0x1122334455667788)]) with
    | .next t => onWay (exec (.lw 5 1 1 0) t)
    | _ => none) = some [(5, 0x11223344)] := by decide
/-- 11 R253: ste to an empty word fills it, and ldf.e then takes its value. -/
theorem test_full_empty : (match exec (.ste 2 1 0) (demo [(1, 0x00E8000000000040), (2, 7)]) with
    | .next t => (tagFull t 0 0x40, onWay (exec (.ldfE 5 1 0 0) t))
    | _ => (false, none)) = (true, some [(5, 7)]) := by decide
/-- 11 R256: amoadd returns the old word and stores the sum. -/
theorem test_amoadd : (match exec (.amoadd 2 1 false false false .c 0) (demo [(1, 0x00E8000000000040), (2, 7)]) with
    | .next t => (spRead t 0 0x40 4, (coreOf t 0).windows.getLast?.map (fun w => w.xval))
    | _ => (0, none)) = (7, some [(2, 0)]) := by decide
/-- 01 R12: core 6 of cluster 9 on die 5 lies at row 13, column 22; its neighbours as the example says. -/
theorem test_mesh : meshRow 718 = 13 ∧ meshCol 718 = 22 ∧ neighbour 718 1 = some 719 ∧ neighbour 718 3 = some 717 ∧
    neighbour 718 2 = some (5 * 128 + 13 * 8 + 2) := by decide
/-- 05 R97: the products of its example in GF(2^8). -/
theorem test_gf : gfMul 2 0x22 = 0x44 ∧ gfMul 4 0x33 = 0xCC ∧ gfMul 8 0x44 = 0x1A ∧ gfMul 8 0x77 = 0x9F ∧ gfMul 0x0C 0x33 = 0x49 := by decide

/-- Core 0 with a shape of 1 row by 2 columns and the tiles given. -/
def demoTiles (tiles : AList Tile) : State := { cores := [(0, { demoCore [] with tiles := tiles, tshape := 1 })], platstat := 2 }

/-- A tile with slots 0 and 1 as given, and zeros. -/
def tile2 (a b : Half) : Tile := a :: b :: List.replicate 62 0

/-- Slots 0 to 2 of a tile register of core 0 after an instruction. -/
def slotsAfter (r : Nat) (o : Host.Outcome State Fault Refusal) : Option (List Half) := coreAfter (fun x => (getV r x).take 3) o

/-- 13 R295: under saturation vsub.ui8 of 3 - 5 gives 0 and vadd.i8 of 100 + 100 gives 127. -/
theorem test_tile_saturates :
    slotsAfter 3 (exec (.vsub 3 1 2 false .ui8 (some ⟨true, false, 0, false, 0, 0, false, 0⟩)) (demoTiles [(1, tile2 3 0), (2, tile2 5 0)])) =
      some [0, 0, 0] ∧
    slotsAfter 3 (exec (.vadd 3 1 2 false .i8 (some ⟨true, false, 0, false, 0, 0, false, 0⟩)) (demoTiles [(1, tile2 100 0), (2, tile2 100 0)])) =
      some [127, 0, 0] := by decide
/-- 13 R295: without saturation the same give 0xFE and 0xC8. -/
theorem test_tile_wraps :
    slotsAfter 3 (exec (.vsub 3 1 2 false .ui8 none) (demoTiles [(1, tile2 3 0), (2, tile2 5 0)])) = some [0xFE, 0, 0] ∧
    slotsAfter 3 (exec (.vadd 3 1 2 false .i8 none) (demoTiles [(1, tile2 100 0), (2, tile2 100 0)])) = some [0xC8, 0, 0] := by decide
/-- 13 R303: the example of packing 2.5 and -5.0 as element 2 of E2M1. -/
theorem test_vcvt_parts :
    slotsAfter 7 (exec (.vcvt 7 3 .e2m1 .f32 2 none) (demoTiles [(3, tile2 0x40200000 0xC0A00000)])) = some [0x400, 0xE00, 0] ∧
    coreAfter (fun x => x.fcsr) (exec (.vcvt 7 3 .e2m1 .f32 2 none) (demoTiles [(3, tile2 0x40200000 0xC0A00000)])) = some 1 := by decide
/-- 12 R279: terms of its example's values. -/
theorem test_terms : [termsOf .e4m3 0x38, termsOf .e4m3 0x3B, termsOf .e4m3 0xBF, termsOf .e4m3 0x03, termsOf .e4m3 0x80, termsOf .e2m1 7,
    termsOf .e2m1 1, termsOf .e2m1 2] = [1, 3, 2, 2, 0, 2, 1, 1] := by decide
/-- 15 R350's example: the words of a cp.nop with PRED 2, CIDX 3 and scope t, on the copy queue. -/
theorem test_word_command : (commandOf 0 [0x2902000200300000]) =
    some (.cpNop ⟨2, 0, false, false, false, false, false, .t, 3, 0⟩) := by decide

/-! Witnesses: for every statement with hypotheses, states and operands that meet them. okAnd says that a computation answers and that
what it answers meets a test, so that okAnd x p = true is: there is an a with x = .ok a and p a = true. -/

/-- A computation answers a value that meets a test. -/
def okAnd {ε α : Type} (x : Except ε α) (p : α → Bool) : Bool :=
  match x with
  | .ok a => p a
  | .error _ => false

/-- An option holds a value that meets a test. -/
def someAnd {α : Type} (x : Option α) (p : α → Bool) : Bool :=
  match x with
  | some a => p a
  | none => false

theorem okAnd_meets {ε α : Type} (x : Except ε α) (p : α → Bool) : okAnd x p = true ↔ ∃ a, x = .ok a ∧ p a = true := by
  cases x <;> simp [okAnd]
theorem someAnd_meets {α : Type} (x : Option α) (p : α → Bool) : someAnd x p = true ↔ ∃ a, x = some a ∧ p a = true := by
  cases x <;> simp [someAnd]

/-- Core 0 in task mode. -/
def task (regs : AList Word) : State := { demo regs with cores := [(0, { demoCore regs with status := 0 })] }

/-- The state with core 0 as a function of itself. -/
def with0 (f : CoreSt → CoreSt) (s : State) : State := { s with cores := [(0, f (coreOf s 0))] }

/-- A window that carries 9 to x5. -/
def aWindow : Window := { pcw := 0x0FFC, remain := 2, dx := [5], dv := [], st := .flying, xval := [(5, 9)], tval := [], flags := 0, txns := [] }

/-- The state in which the word of add x10, x11, x12 is placed at reset. -/
noncomputable def placed : State := State.reset.withFetchWord 32 0x00C58533

theorem witness_step_runs : (nextMove placed).who = .core 0 ∧ Boundary { beforeMove placed with cur := 0 } 0 ∧
    okAnd (fetchWord 0 (coreOf { beforeMove placed with cur := 0 } 0).pc.toNat { beforeMove placed with cur := 0 }) (fun r =>
      r.1 == 0x00C58533 && !(isPfxWord r.1) && (winWait (dueWins false (me r.2).windows)).isNone &&
        (violated (.add 10 11 12) (me r.2).windows).isNone) = true := by
  refine ⟨by decide, ⟨by decide, Or.inr ?_⟩, by decide⟩
  decide
theorem witness_placed_word : isPfxWord 0x00C58533 = false ∧ (∀ c, (coreOf State.reset c).sharers = []) ∧ State.reset.dead.find? 0 = none :=
  ⟨by decide, fun _ => rfl, rfl⟩
theorem witness_zero_and_ports : (0 : Reg).val ∉ (me (demo [])).badX ∧ (3 : Reg).val ∈ (me (with0 (fun x => { x with badX := [3] }) (demo []))).badX ∧
    okAnd (writeX 27 5 (demo [])) (fun _ => true) = true ∧
    ((me (demo [])).ports.get {} 0).part = [] ∧ ((me (demo [])).ports.get {} 0).ret = [] ∧
    ((me (with0 (fun x => { x with ports := [(3, { ret := [7, 8] })] }) (demo []))).ports.get {} 3).ret = [7, 8] := by decide
theorem witness_integer_results : okAnd (readX 1 (demo [(1, 5), (2, 6)])) (fun p => okAnd (readX 2 p.2) (fun q =>
      okAnd (writeX 3 (p.1 + q.1) q.2) (fun _ => true))) = true := by decide
theorem witness_plain : Plain (demo [(1, 5)]) 1 ∧ Plain (demo [(1, 5)]) 0 ∧ Plain (demo []) 27 := ⟨⟨by decide, by decide⟩, ⟨by decide, by decide⟩, ⟨by decide, by decide⟩⟩
theorem witness_integer_frames : (∃ p ∈ twoSource, Instr.add 3 1 2 = p.1 3 1 2) ∧ (∃ p ∈ oneSource, Instr.clz 3 1 = p.1 3 1) ∧
    (∃ p ∈ immSource, ∃ n, Instr.addi 3 1 (-2048) = p.1 3 1 n) := by
  refine ⟨⟨(.add, fun a b => a + b), by simp [twoSource], rfl⟩, ⟨_, List.mem_of_getElem? (i := 0) rfl, ?_⟩, ⟨_, List.mem_of_getElem? (i := 0) rfl, -2048, ?_⟩⟩ <;> rfl
theorem witness_divides : okAnd (readX 1 (demo [(1, 5)])) (fun p => okAnd (readX 2 p.2) (fun _ => true)) = true := by decide
theorem witness_result_arrives : coreUp (with0 (fun x => { x with windows := [aWindow] }) (demo [])) 0 = true ∧ (coreOf (with0 (fun x => { x with windows := [aWindow] }) (demo [])) 0).windows[0]? = some aWindow ∧
    aWindow.st = .flying ∧ 0 < aWindow.remain ∧ (aWindow.xval.filter (fun e => e.1 == 5)).getLast? = some (5, 9) := by decide
theorem witness_branches : Plain (demo [(1, 5)]) 1 ∧ getX 1 (me (demo [(1, 5)])) ≠ getX 2 (me (demo [(1, 5)])) ∧
    getX 2 (me (demo [(1, 5)])) = getX 3 (me (demo [(1, 5)])) := ⟨⟨by decide, by decide⟩, by decide, by decide⟩
theorem witness_jumps : Plain (demo [(1, 0x2000), (2, 0x2002)]) 1 ∧ (getX 1 (me (demo [(1, 0x2000)])) + BitVec.ofInt 64 0).toNat % 4 = 0 ∧
    (getX 2 (me (demo [(2, 0x2002)])) + BitVec.ofInt 64 0).toNat % 4 ≠ 0 := ⟨⟨by decide, by decide⟩, by decide, by decide⟩
theorem witness_fp_rounding : okAnd (readX 1 (demo [(1, 0x3F800000)])) (fun p => okAnd (readX 2 p.2) (fun q =>
      okAnd (readX 3 (drawMe 6 q.2).2) (fun r => !((me r.2).fpDiv) && okAnd (writeX 4 0 r.2) (fun _ => true)))) = true := by decide
theorem witness_fp_minimum : Plain (demo [(1, 0x7FC00000), (2, 0x3F800000)]) 1 ∧ (me (demo [])).fpDiv = false ∧
    isNanF 0x7FC00000 = true ∧ isNanF 0x3F800000 = false ∧ isSnanF 0x7F800001 = true := ⟨⟨by decide, by decide⟩, by decide, by decide, by decide, by decide⟩
theorem witness_fp_class : Plain (demo [(1, 0xFF800000)]) 1 ∧ (getX 1 (me (demo [(1, 0xFF800000)]))).toNat % 2 ^ 32 = 0xFF800000 :=
  ⟨⟨by decide, by decide⟩, by decide⟩
theorem witness_fp_conversions : fpOf 0x7FC00000 = .nan false ∧ fpOf 0x7F800000 = .inf false ∧
    (match fpOf 0x4F000000 with | .fin sg m e st => decide ((2 : Int) ^ 31 - 1 < (roundInt sg m e st 0 0).1) | _ => false) = true ∧
    (match fpOf 0xBF800000 with | .fin sg m e st => decide ((roundInt sg m e st 0 0).1 < 0) | _ => false) = true ∧
    (match fpOf 0x40200000 with | .fin sg m e st => decide ((roundInt sg m e st 0 0).1 = 2) | _ => false) = true := by decide
theorem witness_held_values : isNanF 0x7F7FFFFF = false ∧ isNanF 0x7F800000 = false ∧ isNanF 0xFF800001 = true := by decide
theorem witness_csr_exchange : csrDetail 0x840 0 (demo []) = none ∧ csrRead 0x840 0 (demo []) = some 0 ∧ csrDetail 1 0 (task []) = none ∧
    (csrRead 1 0 (modCore 0 deliverAll (task []))).isSome = true ∧ okAnd (writeX 5 0 (csrWrite 0x840 0 9 9 (demo []))) (fun _ => true) = true := by decide
theorem witness_csr_fields : isSup (me (task [])) = false ∧ isSup (me (demo [])) = true ∧ 0xFFF ∉ csrNumbers ∧ 0x7FF ∉ csrNumbers ∧
    csrFields.all (fun e => someAnd (csrRead e.1 0 (demo [])) (fun old => old &&& ~~~(e.2.1 ||| e.2.2.1 ||| e.2.2.2) == 0)) = true := by decide
theorem witness_trap_entry : (∀ w ∈ (coreOf (task []) 0).windows, ∀ id, w.st ≠ .waitTxn id) ∧ windowFault (coreOf (task []) 0) = none ∧
    domainOf (coreOf (task []) 0) = 0 ∧ (coreOf (task []) 0).status.getLsbD 4 = false ∧ 0x601 / 256 = 6 := by
  refine ⟨?_, by decide, by decide, by decide, by decide⟩
  intro w h; simp [task, demo, demoCore, coreOf, AList.get] at h
theorem witness_trap_windows : ((coreOf (with0 (fun x => { x with windows := [aWindow] }) (demo [])) 0).windows.filter
    (fun w => !(w.remain == 0 && (w.st == .arrived || w.st == .flying)))) = [aWindow] := by decide
/-- Core 0 in a trap handler. -/
def handler : State := with0 (fun x => { x with status := 0x11 }) (demo [])
theorem witness_double_trap : (coreOf handler 0).windows = [] ∧ windowFault (coreOf handler 0) = none ∧ (coreOf handler 0).status.getLsbD 4 = true ∧
    (∃ b ∈ handler.barns, b.st = .resident ∧ clOf 0 ∈ b.clusters) := by
  refine ⟨by decide, by decide, by decide, ⟨_, List.mem_of_getElem? (i := 0) rfl, ?_⟩⟩; decide
theorem witness_trap_and_brk : (me (demo [])).windows = [] ∧ (me (demo [])).scb = [] ∧ windowFault (me (demo [])) = none ∧
    (demo []).cores.all (fun e => e.2.waiters.all (fun w => w.who != 0) && e.2.nacked.all (fun w => w.who != 0)) = true := by decide
theorem witness_eret : isSup (me handler) = true ∧ (me handler).law0.msb = false ∧ (me handler).law3.msb = false ∧ (me handler).status.getLsbD 6 = false ∧
    (me handler).status.getLsbD 7 = false ∧ (me (with0 (fun x => { x with status := 0x51 }) (demo []))).status.getLsbD 6 = true := by decide
theorem witness_halt : isSup (me (demo [])) = true ∧ (me (with0 (fun x => { x with windows := [aWindow] }) (demo []))).windows.all
    (fun w => w.st == .flying || w.st == .arrived) = true ∧ isSup (me (task [])) = false ∧
    ((with0 (fun x => { x with windows := [{ aWindow with st := .waitTxn 3 }] }) (demo [])) |> fun s =>
      windowFault (me s) = none ∧ (me s).windows.any (fun w => w.st != .flying && w.st != .arrived) = true) ∧
    ((with0 (fun x => { x with windows := [{ aWindow with st := .faulty 0x201 7 }] }) (demo [])) |> fun s =>
      windowFault (me s) = some (0x201, 7) ∧ trapWaits (me s) = false ∧ (me s).status.getLsbD 4 = false) := by decide
theorem witness_illegal : (0x01 : Nat) < 256 ∧ 0x37F / 256 = 3 ∧ (me (demo [])).windows = [] ∧ (me (demo [])).status.getLsbD 4 = false := by decide
/-- A pending engine trap on a running task and on an idle core. -/
def trapped : State := with0 (fun x => { x with status := 4, trapQ := [⟨0x605, 3⟩] }) (demo [])
theorem witness_async : asyncReady (coreOf trapped 0) = true ∧ windowFault (coreOf trapped 0) = none ∧ (firstAsync (coreOf trapped 0)).isSome = true ∧
    (coreOf trapped 0).run = .running ∧ asyncReady (coreOf (with0 (fun x => { x with run := .idle, haveTask := false }) trapped) 0) = true := by decide

/-- No window and no log to apply: no memory operation has to wait. -/
theorem gate_of (s : State) (h : (me s).windows = []) (h' : (me s).ilWait = false) : GateOpen s :=
  ⟨by rw [h]; simp, Or.inl h'⟩

/-- Core 0 with x1 at offset 0x40 of its scratchpad, through the local alias, x2 = 7, and the word there full. -/
def atPad (off : Nat) (full : List Nat) : State :=
  with0 (fun x => { x with full := full, sp := [(0x40, 9)] }) (demo [(1, BitVec.ofNat 64 (0x00E8000000000000 + off)), (2, 7), (4, 0x00E1000000000000), (6, 0x1000)])

theorem atPad_memories (off : Nat) (full : List Nat) : MemoriesOk (atPad off full) := by
  refine ⟨rfl, rfl, rfl, ?_, ?_⟩ <;> simp [atPad, with0, demo] <;> rfl
theorem witness_own_pad : OwnPad (atPad 0x40 []) 0x00E8000000000040 0x40 8 ∧ PadClean (atPad 0x40 []) 0x40 8 ∧ GateOpen (atPad 0x40 []) ∧
    Plain (atPad 0x40 []) 1 ∧ Plain (atPad 0x40 []) 2 ∧ OwnPad (atPad 0x32FFF8 []) 0x00E800000032FFF8 0x32FFF8 8 :=
  ⟨⟨rfl, by decide, by decide, by decide, by decide, by decide⟩, by unfold PadClean; decide, gate_of _ rfl rfl, ⟨by decide, by decide⟩, ⟨by decide, by decide⟩,
   ⟨rfl, by decide, by decide, by decide, by decide, by decide⟩⟩
theorem witness_load_completes : okAnd (memGate (atPad 0x40 [])) (fun s1 => okAnd (readX 1 s1) (fun p =>
      okAnd (resolvePieces (whoCore p.2 0) .load (.scalar 8) (piecesOf p.1.toNat 8) p.2) (fun q =>
        okAnd (trainOr (atPad 0x40 []) (homeFor q.2 (whoCore p.2 0) q.1) Except.ok q.2) (fun s5 =>
          okAnd (loadPieces 0 (whoCore p.2 0) q.1 [] s5) (fun _ => true))))) = true := by decide
theorem witness_acquire_completes : okAnd (memGate (atPad 0x40 [])) (fun s1 => okAnd (orderOp 0 true false false false .c s1) (fun s2 =>
      okAnd (readX 1 s2) (fun p => p.1.toNat % 8 == 0 && okAnd (resolvePieces (whoCore p.2 0) .load (.scalar 8) [(p.1.toNat, 8)] p.2) (fun q =>
        okAnd (trainOr (atPad 0x40 []) (homeFor q.2 (whoCore p.2 0) q.1) Except.ok q.2) (fun s5 =>
          okAnd (loadPieces 0 (whoCore p.2 0) q.1 [] s5) (fun _ => true)))))) = true := by decide
theorem witness_store_completes : okAnd (memGate (atPad 0x40 [])) (fun s1 => okAnd (readX 1 s1) (fun p => okAnd (readX 2 p.2) (fun v =>
      okAnd (resolvePieces (whoCore v.2 0) .store (.scalar 8) (piecesOf p.1.toNat 8) v.2) (fun q =>
        okAnd (trainOr (atPad 0x40 []) (homeFor q.2 (whoCore v.2 0) q.1) Except.ok q.2) (fun _ => true))))) = true := by decide
theorem witness_release_completes : okAnd (memGate (atPad 0x40 [])) (fun s1 => okAnd (orderOp 0 false true false true .t s1) (fun s2 =>
      okAnd (readX 1 s2) (fun p => okAnd (readX 2 p.2) (fun v => okAnd (resolvePieces (whoCore v.2 0) .store (.scalar 8) [(p.1.toNat, 8)] v.2) (fun q =>
        q.1.length == 1 && okAnd (trainOr (atPad 0x40 []) (homeFor q.2 (whoCore v.2 0) q.1) Except.ok q.2) (fun _ => true)))))) = true := by decide

/-- Core 0 with x1 at an address of the fabric window of module 3 (02 R22). -/
def atRemote : State := { with0 (fun x => { x with regs := [(1, BitVec.ofNat 64 (2 ^ 50 + 3 * 2 ^ 42 + 0x40)), (2, 7)] }) (demo []) with platstat := 2 }
theorem witness_release_to_a_module : okAnd (memGate atRemote) (fun s1 => okAnd (orderOp 0 false true false true .s s1) (fun s2 =>
      okAnd (readX 1 s2) (fun p => okAnd (readX 2 p.2) (fun v => okAnd (resolvePieces (whoCore v.2 0) .store (.scalar 8) [(p.1.toNat, 8)] v.2) (fun q =>
        okAnd (trainOr atRemote (homeFor q.2 (whoCore v.2 0) q.1) Except.ok q.2) (fun s6 => match q.1 with
          | [k] => k.ref.kind == 4 && okAnd (storeThrough 0 k v.1.toNat (countAccess 0 (whoCore v.2 0) false [k.ref] s6)) (fun _ => true)
          | _ => false)))))) = true := by decide
theorem witness_window_faults : isLive (atPad 0x330000 []) 0 = true ∧ spSize (me (atPad 0x330000 [])) ≤ 0x330000 ∧
    tileOf 0x40 ∈ (me (with0 (fun x => { x with owner := [0] }) (atPad 0x40 []))).owner ∧
    isSup (me (task [])) = false ∧ inPaddock (task []) (tenantOf (me (task []))) (clOf (task []).cur) = false := by decide
theorem witness_fe_faults : canonical 0x1000 = true ∧ inWindows 0x1000 = false ∧ okAnd (resolve (whoCore (demo []) 0) .load .atomic 0x1000 (demo [])) (fun _ => true) = true ∧
    0x1004 % 8 ≠ 0 := by decide
theorem witness_misaligned : Plain (demo [(1, 0x1002)]) 1 ∧ (getX (1 : Reg).val (me (demo [(1, 0x1002)]))).toNat % 4 ≠ 0 ∧
    orderOp 0 true false false false .c (demo [(1, 0x1002)]) = .ok (demo [(1, 0x1002)]) ∧
    orderOp 0 false true false true .c (demo [(1, 0x1002)]) = .ok (demo [(1, 0x1002)]) := ⟨⟨by decide, by decide⟩, by decide, rfl, rfl⟩
theorem witness_full_empty : feWord (whoCore (atPad 0x40 [8]) 0) 0x00E8000000000040 (atPad 0x40 [8]) = .ok (0, 0x40) ∧ tagFull (atPad 0x40 [8]) 0 0x40 = true ∧
    feWord (whoCore (atPad 0x40 []) 0) 0x00E8000000000040 (atPad 0x40 []) = .ok (0, 0x40) ∧ tagFull (atPad 0x40 []) 0 0x40 = false ∧
    (me (atPad 0x40 [])).scb = [] ∧ (coreOf (atPad 0x40 []) 0).waiters ++ (coreOf (atPad 0x40 []) 0).nacked = [] ∧
    (coreOf (atPad 0x40 []) 0).spBad ++ (coreOf (atPad 0x40 []) 0).spPois = [] ∧ parked (atPad 0x40 []) 0 = false := by and_intros <;> rfl
theorem witness_atomics : okAnd (orderOp 0 true true false true .d (atPad 0x40 [])) (fun s2 => s2.cur == 0 && (me s2).scb == [] && (me s2).badX == [] &&
    getX 1 (me s2) == 0x00E8000000000040 && spRead s2 0 0x40 8 == 9) = true ∧ (2 : Reg).val + 1 < 28 := by decide
theorem witness_reservations : (me (with0 (fun x => { x with resv := some ⟨spLine 0 0x40, true⟩ }) (atPad 0x40 []))).resv = some ⟨spLine 0 0x40, true⟩ ∧
    (me (atPad 0x40 [])).resv ≠ some ⟨spLine 0 0x40, true⟩ := by decide
theorem witness_reductions : okAnd (resolvePieces (whoCore (atPad 0x40 []) 0) .store .atomic [(0x1000, 8)] (atPad 0x40 [])) (fun q => match q.1 with
    | [p] => okAnd (reduceAt 0 (whoCore (atPad 0x40 []) 0) p.ref .add true 7 (drainLine 0 (p.ref.pa / 128) q.2)) (fun _ => true)
    | _ => false) = true := by decide
theorem witness_reductions_elsewhere : okAnd (resolvePieces (whoCore atRemote 0) .store .atomic [(2 ^ 50 + 3 * 2 ^ 42 + 0x40, 8)] atRemote) (fun q => match q.1 with
    | [p] => p.ref.kind == 4 && okAnd (rpClear 0 atRemote (p.ref.pa / 128) (drainLine 0 (p.ref.pa / 128) q.2)) (fun u =>
        okAnd (reduceAt 0 (whoCore atRemote 0) p.ref .add true 7 u) (fun _ => true))
    | _ => false) = true := by decide
/-- Core 0's cluster with a copy command that core 0 pushed and that is not complete. -/
noncomputable def busyCopy : State := { demo [] with clusters := [(0, { nodes := [(1, { cmd := .cpCk ⟨2, 0, false, false, false, false, false, .t, 3, 0⟩ 0x1000 0x2000 64, port := 0, core := 0, gtid := 5, dom := 0, tenant := 0, sup := true, frm := 0, st := .waiting, count := 1, pushedAt := 0, pushCyc := 0, succs := [], cancel := none, done := false, err := none, tiles := [], dsts := [], order := 0, vpns := [] })] })] }
theorem witness_fences : fenceWaits (demo []) 0xC4 = none ∧ okAnd (orderOp 0 true true true true .d (demo [])) (fun _ => true) = true ∧
    (fenceWaits busyCopy 0xFF).isSome = true ∧ GateOpen busyCopy := ⟨by decide, by decide, by decide, gate_of _ rfl rfl⟩
theorem witness_code : Plain (demo [(1, 0x1000), (2, 0x10000000), (3, 0x10000001)]) 2 ∧ (getX (2 : Reg).val (me (demo [(1, 0x1000), (2, 0x10000000), (3, 0x10000001)]))).toNat = 2 ^ 28 ∧
    2 ^ 28 < (getX (3 : Reg).val (me (demo [(1, 0x1000), (2, 0x10000000), (3, 0x10000001)]))).toNat ∧
    (codeRanges (whoCore (demo []) 0) 0x1000 0x200 (drainAll 0 (demo []))).length ≠ 0 ∧
    (parked (drainAll 0 (demo [])) 0 || l2Busy (demo []) (dOf 0)) = false ∧
    l2Busy { demo [] with dies := [(0, { l2cfg := 0x8000000000001010 })] } 0 = true := ⟨⟨by decide, by decide⟩, by decide, by decide, by decide, by decide, by decide⟩
theorem witness_logs : isSup (me (task [])) = false ∧ isSup (me (demo [])) = true ∧ (me (demo [])).logSeq = none ∧ isLive (demo []) 0 = true ∧
    0 * 2 ^ 37 ≤ (ilRing (dieOf (demo []) 0)).1 ∧ (ilRing (dieOf (demo []) 0)).1 + 16 * (ilRing (dieOf (demo []) 0)).2 ≤ 2 ^ 37 ∧
    (dieOf (demo []) 0).ildone.toNat ≤ (dieOf (demo []) 0).ilhead.toNat ∧
    (dieOf (demo []) 0).ilhead.toNat - (dieOf (demo []) 0).ildone.toNat < (ilRing (dieOf (demo []) 0)).2 ∧
    isLive { demo [] with live := [0] } 1 = false ∧ (ilRing (dieOf (demo []) 1)).1 < 1 * 2 ^ 37 := by decide

/-- 2.0 and 3.0 in tile 1, 1.0 and -1.0 in tile 2, over a shape of 1 row by 2 columns. -/
def twoTiles : State := demoTiles [(1, tile2 0x40000000 0x40400000), (2, tile2 0x3F800000 0xBF800000)]
/-- The same under a square shape of 1 row by 1 column. -/
def square : State := with0 (fun x => { x with tshape := 0 }) twoTiles

theorem witness_tile_integers : tileGate (.vadd 3 1 2 false .i32 none) true (pfxOf none) [3, 1, 2] twoTiles = .ok () ∧
    okAnd (readV1 (pfxOf none) 1 twoTiles) (fun a => okAnd (readSrc2 32 false 2 a.2) (fun b =>
      okAnd (writeV 3 false [⟨0, 5, 0⟩, ⟨1, 6, 0⟩] b.2) (fun _ => true))) = true := by and_intros <;> rfl
theorem witness_tile_scalar_source : tileGate (.vsll 3 1 2 true .i8 none) true (pfxOf none) [3, 1] twoTiles = .ok () ∧
    okAnd (readV1 (pfxOf none) 1 twoTiles) (fun a => okAnd (readSrc2 8 true 2 a.2) (fun _ => true)) = true := by and_intros <;> rfl
theorem witness_tile_fp : tileGate (.vfma 3 1 2 false .f32 (some ⟨false, false, 0, true, 4, 1, false, 0⟩)) false ⟨false, false, 0, true, 4, 1, false, 0⟩
      [3, 1, 2, 1] twoTiles = .ok () ∧ (me twoTiles).fpDiv = false ∧ okAnd (readV1 (pfxOf none) 1 twoTiles) (fun a => okAnd (readSrc2 32 false 2 a.2) (fun b =>
      okAnd (readV 1 b.2) (fun c => okAnd (writeV 3 false [⟨0, 5, 0⟩] (count 0x93 2 0 c.2)) (fun _ => true)))) = true := by and_intros <;> rfl
theorem witness_vscacc : tileGate (.vscacc 3 1 2 (some ⟨false, false, 0, false, 0, 1, false, 0⟩)) false ⟨false, false, 0, false, 0, 1, false, 0⟩
      [3, 1, 2, 1] twoTiles = .ok () ∧ okAnd (readV1 (pfxOf none) 1 twoTiles) (fun a => okAnd (readV 2 a.2) (fun b => okAnd (readV 1 b.2) (fun c =>
      okAnd (readOld 3 c.2) (fun d => okAnd (writeV 3 false [⟨0, 5, 0⟩] (count 0x93 2 0 d.2)) (fun _ => true))))) = true := by and_intros <;> rfl
theorem witness_tile_minimum : tileGate (.vfmin 3 1 2 false .bf16 none) (tfltOther .bf16) (pfxOf none) [3, 1, 2] twoTiles = .ok () ∧
    tileGate (.vfneg 3 1 .f16 none) (tfltOther .f16) (pfxOf none) [3, 1] twoTiles = .ok () := by and_intros <;> rfl
theorem witness_tile_divides : tileGate (.vfdivF32 3 1 2 0 none) false (pfxOf none) [1, 2] twoTiles = .ok () ∧
    tileGate (.vfsqrtBf16 3 1 0 none) true (pfxOf none) [1] twoTiles = .ok () ∧ tileGate (.vexp2 3 1 0 none) false (pfxOf none) [1] twoTiles = .ok () ∧
    (3 : Reg).val ∉ (me twoTiles).badT ∧ okAnd (readV 1 twoTiles) (fun a => okAnd (readV 2 a.2) (fun b => !(me b.2).fpDiv)) = true := by
  and_intros <;> first | rfl | decide
theorem witness_tile_conversion : (Fmt.e2m1.perSlot = Fmt.f32.perSlot → (2 : Fin 8).val = 0) ∧ Fmt.f32.perSlot < Fmt.e2m1.perSlot ∧
    tileGate (.vcvt 3 1 .e2m1 .f32 2 none) true (pfxOf none) [3, 1] twoTiles = .ok () ∧
    okAnd (readV1 (pfxOf none) 1 twoTiles) (fun a => okAnd (readOld 3 a.2) (fun b => okAnd (writeV 3 false [⟨0, 5, 0⟩] b.2) (fun _ => true))) = true := by
  and_intros <;> first | decide | rfl
theorem witness_tile_moves : tileGate (.vmv 3 1 none) false (pfxOf none) [3, 1] twoTiles = .ok () ∧
    tileGate (.vtrans 3 1 none) false (pfxOf none) [3, 1] square = .ok () ∧ bits (me square).tshape.toNat 5 3 + 1 = bits (me square).tshape.toNat 2 0 + 1 ∧
    bits (me twoTiles).tshape.toNat 5 3 + 1 ≠ bits (me twoTiles).tshape.toNat 2 0 + 1 ∧
    tileGate (.vslideC 3 1 2 none) false (pfxOf none) [3, 1] twoTiles = .ok () ∧ tileGate (.vperm 3 1 2 none) false (pfxOf none) [3, 1, 2] twoTiles = .ok () ∧
    tileGate (.vsel 3 1 2 none) false (pfxOf none) [3, 1, 2] twoTiles = .ok () ∧ tileGate (.vgetx 3 1 2 none) false (pfxOf none) [1] twoTiles = .ok () ∧
    tileGate (.vsetx 3 1 2 none) false (pfxOf none) [3] twoTiles = .ok () ∧ tileGate (.vbcx 3 1 none) false (pfxOf none) [3] twoTiles = .ok () ∧
    tileGate (.vrand 3 none) false (pfxOf none) [3] twoTiles = .ok () ∧ okAnd (readX 1 twoTiles) (fun a => okAnd (readX 2 a.2) (fun b =>
      okAnd (writeX 3 5 b.2) (fun _ => true))) = true := by and_intros <;> first | rfl | decide
theorem witness_tile_reductions : tileGate (.vredsum 3 1 true .f32 none) false (pfxOf none) [3, 1] twoTiles = .ok () ∧
    tileGate (.vredmax 3 1 false .i8 none) true (pfxOf none) [3, 1] twoTiles = .ok () ∧
    okAnd (readV1 (pfxOf none) 1 twoTiles) (fun a => okAnd (writeV 3 false (redGo .i8 (redEmpty .i8 2) (extStep .i8 true) a.1 (redGroups (me twoTiles) false 0) 0).1 a.2) (fun _ => true)) = true := by
  and_intros <;> first | rfl | decide
theorem witness_compares : tileGate (.vcmp 3 1 2 .lt .f32 none) false (pfxOf none) [1, 2] twoTiles = .ok () ∧
    okAnd (readV1 (pfxOf none) 1 twoTiles) (fun a => okAnd (readV 2 a.2) (fun b => okAnd (writeX 3 2 b.2) (fun _ => true) &&
      (List.range 64).all (fun k => (2 : Word).getLsbD k == (active (me twoTiles) 0 k && (cmpElem .lt .f32 (elemsOf 32 b.1 k 0) (elemsOf 32 a.1 k 0)).1 && k == 1)))) = true := by
  and_intros <;> first | rfl | decide
theorem witness_tile_frames : TileReady (pairForm false 3 1 2 false true none) twoTiles ∧ TileReady (longForm 3 [1, 2] false none) twoTiles ∧
    TileReady { slotForm 3 [1] [] [] false none with square := true } square := by
  refine ⟨⟨by decide, ?_, by decide, ?_, by simp [pairForm, slotForm], by simp [pairForm, slotForm], by decide, by decide, by decide, by decide⟩,
    ⟨by decide, by simp [longForm, slotForm], by decide, by simp [longForm, slotForm], by simp [longForm, slotForm], by simp [longForm, slotForm], by decide, by decide, by decide, by decide⟩,
    ⟨by decide, ?_, by simp [slotForm], ?_, by simp [slotForm], by simp [slotForm], by decide, by decide, by decide, by decide⟩⟩
  · intro r h; simp [pairForm, slotForm] at h; subst h; exact ⟨by decide, _, rfl⟩
  · intro r h; simp [pairForm, slotForm] at h; subst h; decide
  · intro r h; simp [slotForm] at h; subst h; exact ⟨by decide, _, rfl⟩
  · intro r h; simp [slotForm] at h; subst h; decide
/-- Core 0 with an entry in its inbound queue from direction 1, ready from a cycle on. -/
def linked (avail : Nat) : State := with0 (fun x => { x with links := [(1, [⟨avail, tile2 7 8⟩])] }) (demo [])
theorem witness_links : (29 : Reg).val = 28 + 1 ∧ (me (linked 0)).links.get [] 1 = [⟨0, tile2 7 8⟩] ∧ (dieOf (linked 5) 0).cyc < 5 ∧
    (me (linked 0)).links.get [] 2 = [] ∧ neighbour 0 3 = none ∧ neighbour 0 1 = some 1 ∧ dOf 1 = dOf 0 ∧
    ((coreOf (linked 0) 1).links.get [] ((1 + 2) % 4)).length < 4 := by decide
/-- Core 0 with x1 at offset 0x40 of its scratchpad, a stride of 8 in x2, and tile 2. -/
def atTiles : State := with0 (fun x => { x with regs := [(1, 0x00E8000000000040), (2, 8)] }) twoTiles
theorem witness_tile_memory : okAnd (memGate atTiles) (fun s1 => okAnd (readX 1 s1) (fun b => okAnd (readX 2 b.2) (fun st => st.1.toNat % 4 == 0 &&
      okAnd (resolvePieces (whoCore st.2 0) .load .tile [(0x00E8000000000040, 4), (0x00E8000000000044, 4)] st.2) (fun q =>
        okAnd (loadPieces 0 (whoCore st.2 0) q.1 [] q.2) (fun _ => true)) &&
      okAnd (readV 2 st.2) (fun t => okAnd (resolvePieces (whoCore t.2 0) .store .tile [(0x00E8000000000040, 4), (0x00E8000000000044, 4)] t.2) (fun _ => true))))) = true ∧
    lanesOn (me atTiles) 0 = [0, 1] ∧ lanesOn (me (with0 (fun x => { x with regs := [(5, 0x300)] }) atTiles)) 5 = [] := by and_intros <;> first | rfl | decide

/-- Core 0 in supervisor mode with a slot in its scratchpad in x1 (offset 0x40) and x5 (misaligned), a join word at offset 0x400 in x3, and n arrivals to come there. -/
def records (n : Nat) : State :=
  with0 (fun x => { x with regs := [(1, 0x00E8000000000040), (3, 0x00E8000000000400), (5, 0x00E8000000000044)], trec := 0x4000
                           sp := [(0x406, BitVec.ofNat 8 n)] }) (demo [])
theorem witness_forks : okAnd (memGate (records 2)) (fun s1 => okAnd (orderOp 0 false true false true .d s1) (fun s2 =>
      okAnd (readPlain 1 s2) (fun a => a.toNat % 64 == 0) && okAnd (readPlain 5 s2) (fun a => a.toNat % 64 != 0) && qRoom (me s2) 3 1 &&
      okAnd (writeWords (whoCore s2 0) 0 0x00E8000000000040 (mkRecord 0x1010 7 0 0 0 0 0 0) 8 (setCore 0 (newGtid 0 (me s2)).2 s2)) (fun s3 =>
        okAnd (pushEntry 0 3 0 0x00E8000000000040 7 0x1010 (drainAll 0 s3)) (fun _ => true)) &&
      okAnd (readWords (whoCore s2 0) 0 0x00E8000000000040 3 s2) (fun r => dwordOf r.1 2 % 4 == 0 && bits (dwordOf r.1 2) 4 2 == 0))) = true := by decide
set_option maxRecDepth 8000 in
theorem witness_fork_queue_full : qRoom (me (with0 (fun x => { x with deque := { hw := List.replicate 1024 ⟨0, 0, false, none, .c⟩ } }) (records 2))) 3 1 = false := by decide
/-- The records with a template in slot 0x40 and a histogram latch of cluster 0 with two tasks. -/
def templates : State := { with0 (fun x => { x with sp := [(0x48, 1)] }) (records 0) with clusters := [(0, { latch := [(0, 5), (1, 0x100000005)] })] }
set_option maxRecDepth 8000 in
theorem witness_spawnl : okAnd (orderOp 0 false true false true .d templates) (fun s2 => okAnd (readWords (whoCore s2 0) 0 0x00E8000000000040 8 s2) (fun r =>
      templateOk r.1 && okAnd (checkSlots 0 [0x00E8000000000080, 0x00E80000000000C0] r.2) (fun s4 => qRoom (me s4) 3 2 && dwordOf r.1 3 == 0 &&
        okAnd (pushBins 0 r.1 0x00E8000000000040 0 0 [(0, 5), (1, 0x100000005)] s4) (fun s6 => okAnd (writeX 6 2 s6) (fun _ => true))))) = true ∧
    (1023 : Nat) + 2 > 1024 ∧ ((List.range 2).map (fun i => (0 + i, (clusterOf templates 0).latch.get 0 (0 + i)))) = [(0, 5), (1, 0x100000005)] := by decide
theorem witness_can_spawn : CanSpawn (records 2) 0x00E8000000000040 0x40 ∧ Plain (records 2) 1 ∧ Plain (records 2) 3 ∧ qRoom (me (records 2)) 3 1 = true ∧
    (me (records 2)).deque.hw.length < 64 ∧ (qGet (me (records 2)) 2).hw.length < 16 ∧ (qGet (me (records 2)) 2).ring = [] ∧
    bits (spRead (records 2) 0 (0x40 + 16) 8) 4 2 = 0 ∧ (coreOf (records 2) 0).trcctl.getLsbD 63 = false ∧ PadClean (records 2) 0x40 64 := by
  refine ⟨⟨gate_of _ rfl rfl, rfl, by decide, by decide, ⟨rfl, by decide, by decide, by decide, by decide, by decide⟩, by decide, by decide, ?_⟩,
    ⟨by decide, by decide⟩, ⟨by decide, by decide⟩, by decide, by decide, by decide, by decide, by decide, by decide, by unfold PadClean; decide⟩
  refine ⟨rfl, rfl, rfl, ?_, ?_⟩ <;> simp [records, with0, demo] <;> rfl
set_option maxRecDepth 8000 in
theorem witness_can_spawn_list : OwnPad templates 0x00E8000000000040 0x40 (64 * (1 + 2)) ∧ PadClean templates 0x40 64 ∧ templateOk (spRead templates 0 0x40 64) = true ∧
    dwordOf (spRead templates 0 0x40 64) 3 = 0 ∧ qRoom (me templates) 3 2 = true ∧ bits (0x400 : Word).toNat 31 21 = 0 ∧ (0x400 : Word).toNat / 1024 % 1024 + 1 = 2 :=
  ⟨⟨rfl, by decide, by decide, by decide, by decide, by decide⟩, by unfold PadClean; decide, by decide, by decide, by decide, by decide, by decide⟩
theorem witness_joins : okAnd (joinRef 0 0x00E8000000000400 (records 2)) (fun r => r.1 == 0 && r.2 == 0x400 &&
      okAnd (suspendStart 0 0x1004 (r.2 / 8) (records 2)) (fun s2 => bits (spRead s2 0 0x400 8) 63 48 == 2 && spRead s2 0 0x400 8 % 2 ^ 48 == 0)) = true ∧
    [0, 1, 2].map (fun n => bits (spRead (records n) 0 0x400 8) 63 48) = [0, 1, 2] ∧ bits (me (records 2)).trec.toNat 63 54 = 0 ∧
    okAnd (readPlain 3 (records 2)) (fun a => a == 0x00E8000000000400) = true ∧ okAnd (memGate (records 2)) (fun _ => true) = true := by decide
theorem witness_last_arrival : okAnd (joinRef 0 0x00E8000000000400 (with0 (fun x => { x with sp := [(0x400, 3), (0x406, 1)] }) (records 1))) (fun r => r.2 == 0x400) = true ∧
    spRead (with0 (fun x => { x with sp := [(0x400, 3), (0x406, 1)] }) (records 1)) 0 0x400 8 % 2 ^ 48 ≠ 0 ∧
    recordKilled 0 (BitVec.ofNat 64 (3 * 64)) (putJoin 0 0 0x400 0 0 (with0 (fun x => { x with sp := [(0x400, 3), (0x406, 1)] }) (records 1))) = false := by decide
theorem witness_exit : (records 2).doms = [] ∧ okAnd (memGate (records 2)) (fun s1 => okAnd (windowsDone 0 s1) (fun s2 => (leaseOf s2 0).isNone &&
      okAnd (orderOp 0 false true false true .d s2) (fun s3 => (me (records 2)).joinw == 0 && !(leaseOf s3 0).isSome))) = true := by decide
theorem witness_exit_arrival : okAnd (exitArrival 0 0x00E8000000000400 (freeLease 0 (records 2))) (fun _ => true) = true := by decide
theorem witness_yields : suspendRefused 0 (records 2) = false ∧ qRoom (me (records 2)) ((me (records 2)).ctl.toNat % 4) 1 = true ∧
    okAnd (suspendStart 0 ((me (records 2)).pc + 4) 0 (records 2)) (fun s2 => okAnd (resolvePieces (whoCore s2 0) .store (.scalar 8) [(0x00E8000000000040, 8)] s2)
      (fun _ => true)) = true ∧
    suspendRefused 0 (with0 (fun x => { x with ports := [(0, { part := [1] })] }) (records 2)) = true ∧
    (0x00E8000000000044 : Nat) % 8 ≠ 0 := by decide
/-- The four cores of a quad, of which the others wait in gang, as members of one reservation. -/
def quad : State :=
  { demo [] with cores := [0, 1, 4, 5].map (fun k => (k, { demoCore [] with ctl := 4, member := some 0x4000, memberSlot := some 0x4000, gangWait := if k = 0 then 0 else 1 })) }
theorem witness_gang : quadOf 0 = [0, 1, 4, 5] ∧ (∀ k ∈ quadOf 0, holdsMember quad k = true) ∧ (me quad).ganged = false ∧ bits (me quad).ctl.toNat 4 2 = 1 ∧ (∀ k ∈ quadOf 0, k ≠ 0 → (coreOf quad k).gangWait = 1) ∧
    (me (demo [])).ganged = false := by decide
/-- The four cores of a quad, ganged, of which the others wait in ungang and one has a count of its own. -/
def ungangs (n : Nat) : State :=
  { demo [] with cores := [0, 1, 4, 5].map (fun k => (k, { demoCore [] with ganged := true, gangWait := if k = 0 then 0 else 2, gangCnt := if k = 5 then n else 3 })) }
theorem witness_ungang_meets : (me (ungangs 3)).ganged = true ∧ (∀ k ∈ quadOf 0, k ≠ 0 → (coreOf (ungangs 3) k).gangWait = 2 ∧ (coreOf (ungangs 3) k).gangCnt = (me (ungangs 3)).gangCnt) ∧
    (coreOf (ungangs 2) 5).gangCnt ≠ (me (ungangs 2)).gangCnt := by decide
theorem witness_ungang : (me (with0 (fun x => { x with ganged := true }) (demo []))).ganged = true ∧
    (∃ k ∈ quadOf 0, k ≠ 0 ∧ (coreOf (with0 (fun x => { x with ganged := true }) (demo [])) k).gangWait ≠ 2) := ⟨by decide, 1, by decide⟩
/-- Core 0 inside a domain that its task opened. -/
def inDomain : State := { with0 (fun x => { x with ctl := 0x10000 }) (records 2) with doms := [(3, Dom.mk 0 0 1 1 0 1 0 0x00E8000000000040 5 none 0)], domNext := 2 }
theorem witness_cdopen : okAnd (memGate (records 2)) (fun s1 => okAnd (readPlain 1 s1) (fun a => a.toNat % 64 == 0 && (freeDom s1).isSome &&
      okAnd (writeWords (whoCore (assignDom s1).2 0) 0 a.toNat (mkRecord 0x1004 7 0 0 0 0 0 0) 8 (setCore 0 (newGtid 0 (me s1)).2 (assignDom s1).2)) (fun s3 =>
        okAnd (writeX 6 1 (drainAll 0 s3)) (fun _ => true)))) = true ∧
    4 ≤ (Dom.mk 0 0 4 1 0 1 0 0 5 none 0).depth := by decide
theorem witness_cdclose : (domOf inDomain (domainOf (me inDomain))).isSome = true ∧ (domOf inDomain 1).map (fun d => d.opener) = some (me inDomain).gtid ∧
    (domOf inDomain 1).map (fun d => d.live) = some 0 ∧ (∀ e ∈ inDomain.doms, e.2.parent ≠ 1) ∧ cdBusy inDomain 1 = false ∧
    okAnd (orderOp 0 false true false true .d inDomain) (fun _ => true) = true ∧ domOf (demo []) (domainOf (me (demo []))) = none := by decide
/-- Core 0 with the address of core 9 of this module with tag 7 in x1, and payloads. -/
def sender : State := demo [(1, BitVec.ofNat 64 (2 ^ 26 + 9 * 256 + 7)), (2, 0x900), (11, 5), (12, 6)]
theorem witness_sends : bits (getX 1 (me sender)).toNat 63 27 = 0 ∧ (getX 1 (me sender)).toNat % 256 ≠ 0 ∧ (11 : Reg).val + (1 : Fin 4).val ≤ 27 ∧
    (me sender).sendReq = .none ∧ okAnd (memGate sender) (fun s1 => okAnd (orderOp 0 false true false true .d s1) (fun s2 => s2.cur == 0 && s2.modIdx == 0)) = true ∧
    (getX 1 (me sender)).getLsbD 26 = true ∧ (0x900 : Nat) % 256 = 0 ∧ 27 < (25 : Reg).val + (3 : Fin 4).val ∧
    (me (with0 (fun x => { x with sendReq := .result 1 }) sender)).sendReq = .result 1 := by decide
/-- Core 0 with tags 3 and 5 seen, and a mask of tags 2, 3 and 5 in x1. -/
def waiter : State := with0 (fun x => { x with regs := [(1, 0x2C), (2, 4)], seen := [3, 5], trec := 0x00E8000000000080 }) (demo [])
theorem witness_waits : okAnd (readPlain 1 waiter) (fun a => (List.range 64).filterMap (fun i => if a.getLsbD i = true ∧ 64 * (0 : Fin 4).val + i ≠ 0
      then some (64 * (0 : Fin 4).val + i) else none) == [2, 3, 5]) = true ∧ 3 ∈ (me waiter).seen ∧ 2 ∉ (me waiter).seen ∧ (me waiter).waits.length < 16 ∧
    okAnd (memGate waiter) (fun s1 => okAnd (suspendStart 0 ((me s1).pc + 4) 0 s1) (fun _ => true)) = true := by decide

/-- Core 0 with tag 7 named by x1, its word as given, a handler address in x2 and a tag word's fields in x4. -/
def tagged (w : Word) : State := with0 (fun x => { x with regs := [(1, 7), (2, 0x4000), (4, 0x200)], tags := [(7, (0x4000, w))] }) (demo [])
theorem witness_tags : okAnd (readPlain 1 (tagged 0)) (fun a => a.toNat % 256 == 7 && tagWord (me (tagged 0)) 7 == 0) = true ∧
    okAnd (readPlain 5 (tagged 0)) (fun a => a.toNat % 256 == 0) = true ∧ inboxHas (me (tagged 0)) 7 = false ∧
    (tagWord (me (tagged 0x4000000000000001)) 7).getLsbD 62 = true ∧ (tagWord (me (tagged 0x8000000000000001)) 7).getLsbD 63 = true ∧
    someAnd (fireTag 0 7 (setTagWord 0 7 0xC000000000000201 (tagged 0x4000000000000201))) (fun u => u.cur == 0 && okAnd (writeX 6 0 u) (fun _ => true)) = true ∧
    (tagAct 0 7 .c [] (tagged 0x8000000000000201)).2 = true ∧ (tagAct 0 7 .c [] (tagged 0x8000000000000201)).1.cur = 0 ∧
    inboxHas (me (with0 (fun x => { x with inbox := [⟨0, 0, 0, 0, 7, [], true, false, .d, 0, 0, false⟩] }) (tagged 0))) 7 = true := by decide
theorem witness_tag_write : (0x4000 : Word).toNat % 4 = 0 ∧ bits (0x200 : Word).toNat 60 59 ≠ 3 ∧ bits (0x200 : Word).toNat 63 62 = 0 ∧ bits (0x200 : Word).toNat 58 10 = 0 ∧
    (0x4002 : Word).toNat % 4 ≠ 0 ∧ bits (0x1800000000000000 : Word).toNat 60 59 = 3 := by decide
/-- Barrier 5 of cluster 0 for cores 0 and 1 of this module, tenant 0. -/
def barrierWord : Word := 0x8000000200040000
/-- Core 0 at that barrier. -/
def atBarrier (arrived : Bool) : State :=
  { demo [] with clusters := [(0, { bars := [(5, { word := barrierWord, parts := if arrived then [(0, { arrived := true })] else [] })] })] }
theorem witness_barrier : bit barrierWord.toNat 63 = true ∧ bits barrierWord.toNat 17 10 = tenantOf (me (atBarrier false)) ∧
    partOf barrierWord.toNat (1024 * ((atBarrier false).modIdx % 32) + 0) = some 0 ∧ (barPart (atBarrier false) 0 5 0).arrived = false ∧
    (barPart (atBarrier true) 0 5 0).arrived = true ∧ okAnd (orderOp 0 false true false true (barScope barrierWord.toNat) (atBarrier false)) (fun _ => true) = true ∧
    okAnd (orderOp 0 true false false false (barScope barrierWord.toNat) (atBarrier false)) (fun _ => true) = true ∧
    bit ((clusterOf (demo []) 0).bars.get {} 5).word.toNat 63 = false := by decide
theorem witness_bar : okAnd (baraBody 5 (atBarrier false)) (fun s1 => (barPart s1 0 5 0).arrived) = true ∧
    okAnd (baraBody 5 { demo [] with clusters := [(0, { bars := [(5, { word := 0x8000000000000000, parts := [] })] })] }) (fun s1 =>
      okAnd (barwBody 5 (modCore 0 (fun x => { x with barArrived := true }) s1)) (fun _ => true)) = true := by decide
theorem witness_owner_bits : okAnd (readPlain 1 (demo [(1, 3)])) (fun a => a != 0 && decide (a.toNat + 4 + 1 ≤ tileCount (me (demo [])))) = true ∧
    tileCount (me (demo [])) = 192 ∧ 192 < (188 : Word).toNat + 4 + 1 ∧ ¬ (192 < (187 : Word).toNat + 4 + 1) ∧
    5 ∈ (me (with0 (fun x => { x with owner := [5] }) (demo [(1, 3)]))).owner := by decide
/-- Core 0's task holds a lease. -/
def leased : State := { demo [] with clusters := [(0, { leases := [{ core := 0, gtid := 5, sb := 16 }], turn := some { core := 0, since := 0, launched := 0 } })], platstat := 2 }
theorem witness_leases : (me (demo [])).leaseReq = .none ∧ (16 : Word).toNat + 16 ≤ tileCount (me (demo [])) ∧ leaseOf (demo []) 0 = none ∧
    (leaseOf leased 0).isSome = true ∧ mxPending leased 0 = false ∧ okAnd (writeX 6 (qstatOf (demo []) 0 1) (demo [])) (fun _ => true) = true ∧
    (me (with0 (fun x => { x with leaseReq := .result 0 }) (demo []))).leaseReq = .result 0 := by decide

/-- A header without predecessors of a command that writes completion word 8. -/
def aHdr : Hdr := ⟨0, 0, false, false, false, false, false, .t, 1, 0⟩
/-- A ready node for a command on a port, in the state of a lessee's turn, with tile 1 of cores 0 and 1 owned by engines. -/
noncomputable def ready (i : Instr) (port : Nat) : State :=
  { leased with curNode := some (0, 1), cores := [(0, { demoCore [] with owner := [1] }), (1, { owner := [1] })]
                clusters := [(0, { nodes := [(1, { cmd := i, port := port, core := 0, gtid := 5, dom := 0, tenant := 0, sup := true, frm := 0, st := .ready, count := 0, pushedAt := 0, pushCyc := 0, succs := [], cancel := none, done := false, err := none, tiles := [], dsts := [], order := 0, vpns := [] })], leases := [{ core := 0, gtid := 5, sb := 16 }], turn := some { core := 0, since := 0, launched := 0 } })] }
/-- What the partition leaves of a launch. -/
noncomputable def gateOf (i : Instr) (port : Nat) (n : Node) (r : List (List (Ref × Nat)) × State) : State × Bool :=
  partitionGate 0 n r.1.flatten ((((cmdNames (ready i port) 0 i).globs.zip r.1).filter (fun e => e.1.acc == .store)).flatMap (fun e => e.2)) r.2
/-- Every hypothesis of Launches, as a test. -/
noncomputable def launches (i : Instr) (port : Nat) : Bool :=
  let s := ready i port
  s.curNode == some (0, 1) && someAnd (nodeOf s 0 1) (fun n => (if isMatrixCmd i then canLaunchMx s 0 1 n else canLaunch s 0 1 n) && n.cancel == none &&
    okAnd (checkNames 0 n (cmdNames s 0 i) s) (fun r => (gateOf i port n r).2 && !(r.1.flatten.any (rangeWaits (gateOf i port n r).1 n.tenant 0))))

theorem launches_meets (i : Instr) (port : Nat) (h : launches i port = true) : ∃ s cl id n m l u, Launches i s cl id n m l u := by
  simp only [launches, Bool.and_eq_true, someAnd_meets, okAnd_meets, Bool.not_eq_true'] at h
  obtain ⟨hc, n, hn, ⟨hk, hx⟩, r, hr, hp, hw⟩ := h
  exact ⟨ready i port, 0, 1, n, _, r.1, _, ⟨by simpa using hc, hn, by simpa using hk⟩, by simpa using hx, r.2, (gateOf i port n r).1, hr,
    Prod.ext rfl hp, hw, rfl, rfl⟩

theorem witness_copies : launches (.cpNop aHdr) 0 = true ∧ launches (.cpG2s aHdr 0x1000 ⟨0, 0x4500, 0x40⟩) 0 = true ∧ launches (.cpS2g aHdr 0x1000 ⟨0, 0x4500, 0x40⟩) 0 = true ∧
    launches (.cpS2s aHdr ⟨0, 0x4500, 0x40⟩ 0 0 1 0x4600) 0 = true ∧ launches (.cp2d aHdr 0x1000 false ⟨0, 0x4500, 0x40⟩ 0x80 0x80 2) 0 = true := by and_intros <;> decide
theorem witness_copies_remote : launches (.cpRget aHdr (2 ^ 50 + 3 * 2 ^ 42) ⟨0, 0x4500, 0x40⟩ 0 0) 0 = true ∧
    launches (.cpRput aHdr (2 ^ 50 + 3 * 2 ^ 42) ⟨0, 0x4500, 0x40⟩ 0 0) 0 = true ∧ launches (.cpRred aHdr (2 ^ 50 + 3 * 2 ^ 42) ⟨0, 0x4500, 0x40⟩ 0 0 .add true) 0 = true := by and_intros <;> decide
theorem witness_copies_indexed : launches (.cpGath aHdr 0x1000 ⟨0, 0x4500, 0x40⟩ 0 0x4800 2) 0 = true ∧ launches (.cpCk aHdr 0x1000 0x2000 64) 0 = true := by and_intros <;> decide
theorem witness_histograms : launches (.hgCount aHdr 0 0x4500 8) 2 = true ∧ launches (.hgLatch aHdr 0 8 true true 0 0 0x4500) 2 = true ∧ launches (.hgClear aHdr) 2 = true := by
  and_intros <;> decide
theorem witness_base_die : launches (.bdCopy aHdr (.glob 0x1000) (.spad 0 0x4500) 64 false) 3 = true ∧ launches (.bdCopy aHdr (.glob 0x1000) (.spad 0 0x4500) 0 false) 3 = true ∧
    launches (.bdCvt aHdr (.spad 0 0x4500) (.spad 0 0x4600) .f32 .bf16 0 false 8 false) 3 = true := by and_intros <;> decide
theorem witness_base_die_more : launches (.bdRed aHdr (.spad 0 0x4500) (.spad 0 0x4600) 2 4 8 .f32 0 false false) 3 = true ∧
    launches (.bdGath aHdr (.spad 0 0x4500) (.spad 0 0x4600) 0 0x4800 2 1 false) 3 = true := by and_intros <;> decide
/-- A load of one line of 8 BF16 elements. -/
def aLoad : MxLoad := ⟨0, 0x4500, 0x20, 8, 0, 0, 1, .bf16, false⟩
theorem witness_matrix_loads : launches (.mxDensa aHdr aLoad) 1 = true ∧ launches (.mxLdb aHdr aLoad) 1 = true ∧ launches (.mxGatha aHdr aLoad 0 0x4800) 1 = true := by
  and_intros <;> decide
theorem witness_matrix_products : launches (.mxZero aHdr false false) 1 = true ∧ launches (.mxRun aHdr 8 0 false false 8 8) 1 = true ∧
    launches (.mxDrain aHdr ⟨false, 0x20, 8, 8, 0, false, false, false, 0x4500⟩) 1 = true ∧ launches (.mxStat aHdr false 0 0x4500) 1 = true := by and_intros <;> decide
theorem witness_matrix_csr : launches (.mxCsrb aHdr 0x1000 0x2000 0x3000 8 0 false .bf16) 1 = true := by decide
theorem witness_failed_checks : (match nodeOf (ready (.cpG2s aHdr 0x00E8000000330000 ⟨0, 0x4500, 0x40⟩) 0) 0 1 with
    | some n => (match checkNames 0 n (cmdNames (ready (.cpG2s aHdr 0x00E8000000330000 ⟨0, 0x4500, 0x40⟩) 0) 0 (.cpG2s aHdr 0x00E8000000330000 ⟨0, 0x4500, 0x40⟩)) (ready (.cpG2s aHdr 0x00E8000000330000 ⟨0, 0x4500, 0x40⟩) 0) with
      | .error _ => canLaunch (ready (.cpG2s aHdr 0x00E8000000330000 ⟨0, 0x4500, 0x40⟩) 0) 0 1 n && (Instr.cpG2s aHdr 0 ⟨0, 0, 0⟩).isCommand
      | .ok _ => false)
    | none => false) = true := by decide
theorem witness_engine_mover : MemoriesOk leased ∧ (0 + 16 : Nat) ≤ 2 ^ 22 ∧ (coreOf leased 0).spBad = [] := by
  refine ⟨⟨rfl, rfl, rfl, ?_, ?_⟩, by decide, rfl⟩ <;> simp [leased, demo, demoCore] <;> rfl
theorem witness_range_wait : (match ({ ready (.cpG2s aHdr 0x4000 ⟨0, 0x4500, 0x40⟩) 0 with
      mem := [(0x10000, 0x01), (0x10001, 0x10), (0x10002, 0x01), (0x11000, 0x01), (0x11001, 0x20), (0x11002, 0x01), (0x12000, 0xCF), (0x12006, 0x80), (0x12007, 0x02)]
      cores := [(0, { demoCore [] with owner := [1], vmroot := 0x10001 }), (5, { spcfg := 0x8000000000000004 })] } : State) with
    | s => someAnd (nodeOf s 0 1) (fun n => okAnd (checkNames 0 n (cmdNames s 0 n.cmd) s) (fun r => (partitionGate 0 n r.1.flatten [] r.2).2 &&
        r.1.flatten.any (rangeWaits (partitionGate 0 n r.1.flatten [] r.2).1 n.tenant 0)))) = true := by decide
theorem witness_partition_wait : (match ({ ready (.cpS2g aHdr (2 ^ 50 + 3 * 2 ^ 42) ⟨0, 0x4500, 0x40⟩) 0 with
      dies := [(0, { rp := [{ line := 2 ^ 43 + 3 * 2 ^ 35, key := 0, bytes := [(0, 1)], dirty := [0], cyc := 0 }] })] } : State) with
    | s => someAnd (nodeOf s 0 1) (fun n => okAnd (checkNames 0 n (cmdNames s 0 n.cmd) s) (fun r => !(partitionGate 0 n r.1.flatten r.1.flatten r.2).2))) = true := by decide

noncomputable section

/-- Core 0 idle, with a record at 0x4000 to pick: its pc 0x3000, its id 9. -/
def picker (k : Nat) : State :=
  { demo [] with cores := [(0, qSet k { hw := [⟨0x4000, 0, false, none, .c⟩] } ({ run := .idle, picking := true } : CoreSt))], mem := [(0x4001, 0x30), (0x4008, 9)] }
/-- The header of a command that also raises route tag 7. -/
def tagHdr : Hdr := ⟨0, 0, false, false, false, false, false, .s, 1, 7⟩
/-- A launched node whose accesses are done. -/
def finished (h : Hdr) (rel : Bool) (inbox : List Msg) : State :=
  { leased with cores := [(0, { demoCore [] with inbox := inbox })]
                clusters := [(0, { nodes := [(1, { cmd := .cpNop h, port := 0, core := 0, gtid := 5, dom := 0, tenant := 0, sup := true, frm := 0, st := .launched, count := 0, pushedAt := 0, pushCyc := 0, succs := [], cancel := none, done := true, err := none, tiles := [], dsts := [], order := 0, rel := rel, vpns := [] })] })] }
theorem witness_completion : (match finished aHdr false [] with
    | s => someAnd (nodeOf s 0 1) (fun n => !(nodeBusy s 0 1) && !(streamHeld (clusterOf s 0) n) && !(mxHeld (clusterOf s 0) n) &&
      decide ((cmdHdr n.cmd).cscope ≠ .s) && (cmdHdr n.cmd).rtag == 0)) = true ∧
    (match finished tagHdr false [] with
    | s => someAnd (nodeOf s 0 1) (fun n => !(nodeBusy s 0 1) && (cmdHdr n.cmd).cscope == .s && (cmdHdr n.cmd).cidx != 0)) = true := by decide
set_option maxRecDepth 8000 in
theorem witness_completion_message : (match finished tagHdr true [] with
    | s => someAnd (nodeOf s 0 1) (fun n => !(relWaits s 0 n) && (takeMsg n.core (rtagMsg (giveSteps 0 n s) 1 n 7) (giveSteps 0 n s)).2)) = true ∧
    (match finished tagHdr true (List.replicate 64 ⟨0, 0, 0, 0, 7, [], false, false, .d, 0, 0, false⟩) with
    | s => someAnd (nodeOf s 0 1) (fun n => !((takeMsg n.core (rtagMsg (giveSteps 0 n s) 1 n 7) (giveSteps 0 n s)).2))) = true := by decide
theorem witness_turns : ((List.range 8).map (fun i => 8 * 0 + ((clusterOf { leased with clusters := [(0, { leaseReqs := [⟨2, 5, 16, 0⟩] })] } 0).lastTurn + 1 + i) % 8)).find?
      (isCandidate (clusterOf { leased with clusters := [(0, { leaseReqs := [⟨2, 5, 16, 0⟩] })] } 0)) = some 2 ∧
    lesseeReady (clusterOf (ready (.mxZero aHdr false false) 1) 0) 0 = true ∧
    otherCandidate (clusterOf { leased with clusters := [(0, { leaseReqs := [⟨2, 5, 16, 0⟩] })] } 0) 0 0 = true := by decide
set_option maxRecDepth 8000 in
theorem witness_pick : coreUp (picker 0) 0 = true ∧ (coreOf (picker 0) 0).picking = true ∧ (coreOf (picker 0) 0).run = .idle ∧ (coreOf (picker 0) 0).member = none ∧
    headOf (coreOf (picker 0) 0) = some ⟨0, false, 0⟩ ∧ headOf (coreOf (picker 3) 0) = none ∧ bottomOf (coreOf (picker 3) 0) = some ⟨3, false, 0⟩ ∧
    someAnd (entryAt (coreOf (picker 0) 0) ⟨0, false, 0⟩) (fun e => (startReady 0 e (picker 0)).2 && okAnd (takeAt 0 ⟨0, false, 0⟩ (startReady 0 e (picker 0)).1) (fun r =>
      someAnd (runEntry 0 0 2 0 r.1 r.2) (fun t => (coreOf t 0).run == .running))) = true := by decide
set_option maxRecDepth 8000 in
theorem witness_run_entry : okAnd (readWords (whoSup (picker 0) 0) 0 0x4000 8 (picker 0)) (fun r => recordOk (coreOf r.2 0) r.1 && memberOk (coreOf r.2 0) 0x4000 r.1 &&
    !(ctlKilled r.2 (dwordOf r.1 2)) && dwordOf r.1 0 == 0x3000) = true := by decide
/-- Core 1, idle in the barn of cluster 0, whose waker is core 0 with a record in its deque. -/
def thief : State :=
  { picker 3 with cores := [(0, { deque := { hw := [⟨0x4000, 0, false, none, .c⟩] } }), (1, { run := .idle, picking := true, waker := some 0, barn := some (1, 0) })] }
set_option maxRecDepth 8000 in
theorem witness_steal : (victims thief 1).head? = some 0 ∧ offered { thief with free := thief.free + 2 } 1 0 (stealPlaces (coreOf thief 0)) = some (some ⟨3, false, 0⟩) ∧
    someAnd (entryAt (coreOf thief 0) ⟨3, false, 0⟩) (fun e => (startReady 1 e { thief with free := thief.free + 2 }).2 &&
      okAnd (takeAt 0 ⟨3, false, 0⟩ (startReady 1 e { thief with free := thief.free + 2 }).1) (fun r => someAnd (markRecord 1 48 e.slot r.2) (fun y =>
        (runEntry 1 3 5 (yidx y 0) r.1 y).isSome))) = true := by
  exact ⟨rfl, by decide, by decide⟩
set_option maxRecDepth 8000 in
theorem witness_sleep_and_aging : coreUp (picker 2) 0 = true ∧ (65536 : Nat) + 0 < 65537 ∧ oldestOf (coreOf (picker 2) 0) = some ⟨2, false, 0⟩ ∧ qRoom (coreOf (picker 2) 0) 1 1 = true ∧
    okAnd (takeAt 0 ⟨2, false, 0⟩ { picker 2 with dies := [(0, { cyc := 65537 })] }) (fun r => okAnd (promoteEntry 0 r.1 r.2) (fun u => (coreOf u 0).fifo1.hw.length == 1)) = true ∧
    (dieOf { picker 2 with dies := [(0, { cyc := 65537 })] } 0).cyc = 65537 := by decide
/-- A message for core 9's tag 7 in the NI of cluster 0, and the tag's handler set. -/
def message : State :=
  { demo [] with clusters := [(0, { msgs := [⟨0, 0, 0, 1, 7, [5], false, true, .d, 0, 0, false⟩] })], cores := [(1, { tags := [(7, (0x4000, 0))] })] }
theorem witness_messages : notYet message 0 0 = false ∧ savedAt message 0 0 = false ∧ isLive message 0 = true ∧ (barnAt message 0).isSome = true ∧
    (takeMsg 1 ⟨0, 0, 0, 1, 7, [5], false, true, .d, 0, 0, false⟩ message).2 = true ∧ coreUp message 1 = true := by decide
set_option maxRecDepth 8000 in
theorem witness_refused_message : (takeMsg 1 ⟨0, 0, 0, 1, 7, [5], false, true, .d, 0, 0, false⟩
    { message with cores := [(1, { inbox := List.replicate 64 ⟨0, 0, 0, 1, 7, [5], false, true, .d, 0, 0, false⟩ })] }).2 = false := by decide
theorem witness_memory_events : (coreOf (with0 (fun x => { x with remq := [⟨0, 0, 1, [], 0⟩] }) (demo [])) 0).remq ≠ [] ∧
    spBusy (with0 (fun x => { x with remq := [⟨0, 0, 1, [], 0⟩] }) (demo [])) 0 = false ∧
    ilPending { demo [] with dies := [(0, { ilhead := 1 })] } 0 ≠ [] ∧ ilPending { demo [] with dies := [(0, { ilhead := 1 })] } 1 = [] ∧
    (logGate 0 (demo [])).2 = true := by decide
/-- Page tables at 0x10000 that map the first GiB to itself for the supervisor, a module header at 0x20000, and code at 0x30000. -/
def tables : Memory :=
  [(0x10000, 0x01), (0x10001, 0x10), (0x10002, 0x01), (0x11000, 0x01), (0x11001, 0x20), (0x11002, 0x01), (0x12000, 0xCF), (0x12006, 0x80), (0x12007, 0x7F),
   (0x20000, 4), (0x20002, 1), (0x20004, 0x31), (0x20005, 0x4D), (0x20006, 0x48), (0x20007, 0x50), (0x2000A, 3), (0x20010, 4)]
theorem witness_walk : (match ({ demo [] with mem := tables, cores := [(0, { demoCore [] with vmroot := 0x10001 })] } : State) with
    | s => (whoCore s 0).en && canonical 0x4000 && !(inWindows 0x4000) && (logGate 0 s).2 && okAnd (walkFill (whoCore s 0) .load 0x4000 (logGate 0 s).1) (fun _ => true)) = true := by decide
theorem witness_notify : (match ({ demo [] with clusters := [(0, { notes := [⟨5, 0, 0, 1, 0, 0, 0, 0⟩], bars := [(5, { word := barrierWord, parts := [] })] })], paddocks := [(0, 0x8000000000000000)] } : State) with
    | s => inPaddock s 0 0 && !(newer 0 (dieMapgen s 0)) && !(newer (dieGen s 0) 0) && !(savedAt s 0 0) && partOf barrierWord.toNat (yidx s 1) == some 1 &&
      (barPart s 0 5 1).epoch == 0) = true := by decide
theorem witness_sampling : bits (0x10000 : Word).toNat 35 16 ≠ 0 ∧ (coreOf (demo []) 0).haveTask = true ∧ 0 + 1 * 1024 ≤ 1024 ∧
    (0x8000000000000004 : Word).getLsbD 63 = true ∧ rpBusy (demo []) 0 = false := by decide
theorem witness_dram : AList.find? { demo [] with banks := [(5, { victims := [3] })] }.banks (0 * 2048 + 5 % 2048) = some { victims := [3] } ∧
    (0 : Nat) < 32000000 / 32000000 ∧ (0 : Nat) < 86400000000000 / 86400000000000 ∧ scrubLine 0 0 / 2 % 2 = 0 ∧ scrubLine 1 0 / 2 % 2 = 1 ∧
    (dieOf (demo []) 0).scrubbed.get 0 (scrubLine 1 0 / 2 % 2) = 0 ∧ isSpare (demo []) 8 = true := by decide

/-- A transaction of the module with module 3 of its yard. -/
def aTxn (src dst : Nat) : Txn := ⟨7, src, dst, 0, 0, 0, 0, 2 ^ 50 + 3 * 2 ^ 42, .write [(0, 1)], 0, 0, 0, true, none, none, 0, 0, false, none, 0, none⟩
/-- The module with that transaction. -/
def fabric (src dst : Nat) : State := { demo [] with txns := [aTxn src dst], platstat := 2, time := 1000000000 }
theorem witness_txns : txnOf (fabric 0 3) 7 = some (aTxn 0 3) ∧ inTurn (fabric 0 3) (aTxn 0 3) = true ∧ lineHeld (fabric 0 3) (aTxn 0 3) = false ∧
    pullWaits (fabric 0 3) (aTxn 0 3) = false ∧ lineHeld (fabric 3 0) (aTxn 3 0) = false ∧ pullWaits (fabric 3 0) (aTxn 3 0) = false ∧ sameYard (fabric 0 3) 3 = true ∧
    electricalOk (fabric 0 3) 3 = true ∧ inTurn (fabric 3 0) (aTxn 3 0) = true ∧ (fabric 3 0).modIdx = 0 ∧ txnOf (fabric 3 4) 7 = some (aTxn 3 4) ∧
    (aTxn 0 3).since + 10 ^ 9 ≤ (fabric 0 3).time ∧ failCause 0x702 = true := by decide
theorem witness_ack : (match exec (.fabricTxnArrive 7) (fabric 0 3) with
    | .next t => (match exec (.fabricAckReceive 7) t with | .next u => (txnOf u 7).isNone && (txnOf t 7).any (fun x => x.performed) | _ => false)
    | _ => false) = true := by decide
theorem witness_nack : newer (dieGen { message with clusters := [(0, { mapgen := 2, diemap := [(0, 0xC000000000000002)], msgs := (clusterOf message 0).msgs })] } 0) 0 = true := by decide
/-- Plane 2 with two slots, the second linking to module 40. -/
def plane : State := { demo [] with planes := [(2, { cfg := 0x8000000100000000, cal := [(1, 0x8000000000000028)] })] }
theorem witness_planes : (planeOf (modPlane 2 nextSlot (modPlane 2 (fun p => { p with started := true }) plane)) 2).slot = 1 ∧
    peerIn (planeOf plane 2) 1 = some 40 ∧ planeOn (planeOf plane 2) = true ∧ peerIn (planeOf plane 2) 0 = none ∧
    wlState { plane with wlstat := [(wlIdx 2 3 4, 0x4000000000000000)] } (wlIdx 2 3 4) = 1 := by decide
set_option maxRecDepth 8000 in
/-- 19 R441's example: 25 flits to module 64 meet a slot that sends 16; 9 wait. -/
theorem test_slot_budget : (match exec (.fabricTxnArrive 7) { demo [] with
      planes := [(0, { cfg := 0x8000000250000010, cal := [(1, 0x8000000000000040)], slot := 1, started := true, link := some 64, room := 16 })]
      txns := [{ aTxn 0 64 with left := 25, path := 1 }] } with
    | .next t => t.txns.map (fun x => x.left) == [9] && (planeOf t 0).room == 0
    | _ => false) = true := by decide
theorem witness_map : (clusterOf { demo [] with clusters := [(0, { mapNext := [(0, 0xC000000000000001)] })] } 0).mapNext.getLast? = some (0, 0xC000000000000001) := by decide
/-- Die 1 has failed. -/
def lostDie : State := { demo [] with dead := [(1, 0)], platstat := 2 }
theorem witness_lost_dies : servedBy (demo []) 8 = none ∧ servedBy (demo []) 1 = some 1 ∧ canVote lostDie 1 = true ∧ tenantsOn lostDie 1 = [] ∧
    mapValid lostDie 1 = true ∧ chooseSpare lostDie = some none ∧ peerServed lostDie 1 = false ∧ (0 : Nat) + 10 ^ 8 ≤ 10 ^ 8 ∧
    isFailed (demo []) 8 = false ∧ isFailed (demo []) 1 = false ∧ AList.find? (demo []).dead 8 = none := by decide
/-- A domain with a detected error, whose task has gone. -/
def failed : State :=
  { demo [] with cores := [(0, { demoCore [] with run := .idle, haveTask := false })], doms := [(3, { Dom.mk 0 0 1 1 0 1 0 0x4000 5 none 0 with err := some 0x601 })], domNext := 2 }
theorem witness_rollback : (AList.find? (killDom { Dom.mk 0 0 1 1 0 1 0 0x4000 5 none 0 with err := some 0x601 } 0x601 failed).doms 3).isSome = true ∧
    allStopped (killDom { Dom.mk 0 0 1 1 0 1 0 0x4000 5 none 0 with err := some 0x601 } 0x601 failed)
      (killDom { Dom.mk 0 0 1 1 0 1 0 0x4000 5 none 0 with err := some 0x601 } 0x601 failed).killed = true ∧
    okAnd (readWords (whoSup failed 0) 0 0x4000 8 failed) (fun r => okAnd (writeWords (whoSup (assignDom r.2).2 0) 0 (0x4000 + 16) 0x10000 1 (assignDom r.2).2) (fun _ => true)) = true := by decide

/-- Queue 3 of tenant 0, enabled in full service with its pages, holding a packet. -/
def queued (dws : List Word) (x : HostQ) : State :=
  { demo [] with mem := tables, platstat := 2, barns := [], cores := [], paddocks := [(0, 0x8000000000000000)]
                 queues := [(3, { x with ctl := 0x8000000000010000, cur := some { dws := dws, idx := 0, checked := true } })] }
theorem witness_packet_read : (match ({ queued [] {} with queues := [(3, { ctl := 0x8000000000010000, base := 0x40000, tail := 1 })] } : State) with
    | s => queueOn s 3 && (packetBytes s 3).isSome && decide ((qOf s 3).head ≠ (qOf s 3).tail) &&
      (packetBytes { s with queues := [(3, { ctl := 0x8000000000010000, base := 0x3000000000000, tail := 1 })] } 3).isNone) = true := by decide
theorem witness_launch : (match queued [0x01301FE000000001, 0x30000, 0, 0, 0, 0x40000, 0x20000, 0x50000] {} with
    | s => someAnd (dispatchable s 3 1) (fun p => launchReaches 3 p s && bits (pdw p 0) 36 24 == 0 && launchCheck 3 p s == none) &&
      someAnd (dispatchable { s with live := [] } 3 1) (fun p => (launchCheck 3 p { s with live := [] }).isSome)) = true := by decide
theorem witness_packets : (dispatchable (queued [0, 0] {}) 3 0).isSome = true ∧
    someAnd (dispatchable (queued [0x0200000000000000, 0x40000, 0x40100, 0x40, 0x40200] {}) 3 2) (fun p => restZero p 5 &&
      reaches (queued [] {}) 3 .load (pdw p 1) && reaches (queued [] {}) 3 .store (pdw p 2) && reaches (queued [] {}) 3 .store (pdw p 4)) = true ∧
    (dispatchable (queued [0x0300000000000000, 0x40000, 7] {}) 3 3).isSome = true ∧ (dispatchable (queued [0x0400000000000000, 0x40000, 7] {}) 3 4).isSome = true ∧
    okAnd (hubGet 3 0x40000 8 (queued [] {})) (fun r => decide ((0 : Word).toNat ≤ r.1) && !(decide ((7 : Word).toNat ≤ r.1))) = true := by decide
theorem witness_modules : (dispatchable (queued [0x0500000000000000, 0x20000] {}) 3 5).isSome = true ∧ (loadModule 3 0x20000 (queued [0x0500000000000000, 0x20000] {})).isSome = true ∧
    (loadModule 3 0x40000 (queued [0x0500000000000000, 0x40000] {})).isNone = true ∧ (dispatchable (queued [0x0600000000000000, 0x20000] {}) 3 6).isSome = true ∧
    (modEntryOf { queued [0x0600000000000000, 0x20000] {} with modtab := [⟨0x20000, 3, 0x30000, 4⟩] } 0 0x20000).isSome = true := by decide
/-- A batch of one barn of queue 3 with one task, and the queue that holds it. -/
def aBatch : Batch := ⟨3, 0, 0, 1, 3, 1, 1, 0xFF, 0x30000, 0, 0, [], 0x40000, 0x20000, 0x50000, false, []⟩
def batched (n : Nat) : State :=
  { queued [] {} with queues := [(3, { ctl := 0x8000000000010000, batches := [aBatch], seqNext := 1, started := n })] }
theorem witness_barn_start : (nextBarn (batched 0) 3).isSome = true ∧ barnPlace (batched 0) 3 = some [0] ∧ servedNext (batched 0) 3 = true ∧
    nextBarn (batched 1) 3 = none := by decide
theorem witness_barn_complete : barnDone (batched 1) ⟨3, 0, 0, 0, 0, [0], 0, .resident⟩ = true ∧ (batchAt (batched 1) 3 0).isSome = true ∧
    rpDirty (batched 1) 0 = false ∧ rpBusy (batched 1) 0 = false ∧ (dieOf (batched 1) 0).rpStores = [] ∧ (0 : Nat) + 1 ≠ aBatch.seq0 + 2 := by decide
theorem witness_preemption : requested { batched 1 with preempt := 0x8000000000000000 } 0 false false = true ∧
    requested { batched 1 with preempt := 0x8000000000000100 } 0 true false = true ∧ requested { batched 1 with preempt := 0x8000000000000200 } 0 false true = true ∧
    (forceTenant 0 none (batched 1)).2 = true ∧ (resumeTenant 0 (batched 1)).isSome = true := by decide
theorem witness_hang : isHung { batched 1 with barns := [⟨3, 0, 0, 0, 0, [0], 1, .resident⟩], time := 10000000000 } 3 = true := by decide

theorem witness_paddocks : bits (0x8000000000000000 : Word).toNat 15 13 + bits (0x8000000000000000 : Word).toNat 12 10 ≤ 7 ∧ hasBarn (batched 1) 0 = false ∧
    hasBarn (demo []) 0 = true ∧ (batched 1).paddocks.all (fun e => e.1 == 0) = true ∧ rectsMeet 0x8000000000000000 0x8000000000000000 = true := by decide
theorem witness_descriptors : isLive (demo []) (clDie 127) = true ∧ bits barrierWord.toNat 62 48 + bits barrierWord.toNat 47 33 * bits barrierWord.toNat 32 18 ≤ 32767 ∧
    bits barrierWord.toNat 32 18 ≠ 0 := by decide
theorem witness_splits : splitRefused (coreOf (demo []) 0) 8 = false ∧ splitRefused (coreOf (with0 (fun x => { x with owner := [150] }) (demo [])) 0) 8 = true ∧
    (coreOf (demo []) 0).spcfg.toNat % 16 = 4 := by decide
theorem witness_keys : (0x101 : Word).toNat % 8 = 1 ∧ (0x102 : Word).toNat % 8 = 2 ∧ (0x100 : Word).toNat % 8 = 0 ∧ (demo []).keycmd.getLsbD 63 = false ∧
    ({ demo [] with keycmd := 0x8000000000000100, keyOp := 9 } : State).keycmd.getLsbD 63 = true ∧ (9 : Nat) % 8 = 1 := by decide
theorem witness_hub_quiet : hubQuiet { demo [] with barns := [] } = true ∧ hubQuiet (demo []) = false ∧ (0x0401_03 : Word).toNat % 64 % 3 = 0 ∧
    bits (0x040103 : Word).toNat 23 16 % 4 = 0 := by decide
theorem witness_power : overLimit { demo [] with overPower := true } 0 = true ∧ stepDue (demo []) 0 = true ∧ 1200 < (dieOf (demo []) 0).mhz ∧ overLimit (demo []) 0 = false ∧
    (dieOf { demo [] with dies := [(0, { mhz := 1200 })], platstat := 2 } 0).mhz < topClock { demo [] with dies := [(0, { mhz := 1200 })], platstat := 2 } ∧
    residentTenants { demo [] with barns := [] } = [] := by decide
theorem witness_service : bits ({ demo [] with platstat := 0x1C1 } : State).platstat.toNat 8 6 = 7 ∧ ({ demo [] with platstat := 0x1C1 } : State).platstat.toNat % 4 = 1 ∧
    ({ demo [] with platstat := 3 } : State).platstat.toNat % 4 = 3 ∧ (coreOf (with0 (fun x => { x with run := .halted }) (demo [])) 0).run = .halted := by decide
theorem witness_host_access : populated { demo [] with ivset := 1, hdmcfg := 1, platstat := 2 } 1 (ilBase + 0x40 + 8 - 1) = true ∧
    0x40 + 8 ≤ bits ({ demo [] with hdmcfg := 1 } : State).hdmcfg.toNat 8 0 * 2 ^ 30 := by decide
/-- Every memory of a module after reset is canonical, and its step answers a next state. -/
theorem witness_memories : MemoriesOk State.reset ∧ okAnd (match step placed with | .next t => (Except.ok t : Except Unit State) | _ => .error ()) (fun _ => true) = true := by
  refine ⟨⟨rfl, rfl, rfl, ?_, ?_⟩, by decide⟩ <;> simp [State.reset]

end

end Sys2Proof.Tests
end

section
/-!
PROOF. A launched command makes its accesses (O54): what a launch that passes its checks leaves, what the histogram unit counts, and
the bytes that a move between scratchpads carries.
-/

namespace Sys2Proof.Proofs.LaunchedCommands

open Sys2Proof Sys2Proof.Machine Sys2Proof.Safety Sys2Proof.Laws

/-! The launch of a node (15 R347, R357; 14 R321). -/

section Launch

variable {i : Instr} {s u : State} {cl id : Nat} {n m : Node} {l : List (List (Ref × Nat))}

/-- A launch that passes its checks runs the command's accesses on the launched state and notes their cause. -/
theorem launchNode_of_launches (h : Launches i s cl id n m l u) {can : State → Nat → Nat → Node → Bool} (hcan : can s cl id n = true)
    (fail : Nat → Nat → State → State) (act : Nat → Nat → Node → List (List (Ref × Nat)) → State → State × Option Nat) :
    launchNode can (fun t cl => cmdNames t cl i) fail act s = noteErr cl id (act cl id m l u).2 (act cl id m l u).1 := by
  obtain ⟨⟨hcur, hnode, -⟩, hsound, t, v, hnames, hgate, hwait, rfl, rfl⟩ := h
  simp [launchNode, hcur, hnode, hcan, hsound, hnames, hgate, hwait]

/-- After the accesses of a command that is not the array's, only their cause is noted. -/
theorem acted_of_not_matrix (hi : isMatrixCmd i = false) (r : State × Option Nat) : acted i cl id r = noteErr cl id r.2 r.1 := by
  simp [acted, hi]

theorem runNode_of_launches (h : Launches i s cl id n m l u) (hi : isMatrixCmd i = false)
    (act : Nat → Nat → Node → List (List (Ref × Nat)) → State → State × Option Nat) :
    runNode i act s = .next (acted i cl id (act cl id m l u)) := by
  have hcan : canLaunch s cl id n = true := by simpa [hi] using h.taken.can
  rw [runNode, launchNode_of_launches h hcan, acted_of_not_matrix hi]

/-- The array takes a node that is not cancelled only in its lessee's turn, and before it is launched. -/
theorem canLaunchMx_in_turn (hcan : canLaunchMx s cl id n = true) (hnode : nodeOf s cl id = some n) (hsound : n.cancel = none) :
    isLaunched s cl id = false ∧ inTurnOf (clusterOf s cl) id = true := by
  have hfind : (clusterOf s cl).nodes.find? id = some n := hnode
  simp only [canLaunchMx, hsound, Bool.and_eq_true, beq_iff_eq, Option.isSome_none, Bool.false_and, Bool.or_false] at hcan
  obtain ⟨⟨⟨⟨⟨-, hready⟩, -⟩, -⟩, hmine⟩, -⟩ := hcan
  refine ⟨by simp [isLaunched, hnode, hready], ?_⟩
  cases hturn : (clusterOf s cl).turn with
  | none => simp [hturn] at hmine
  | some t =>
    simp only [hturn, Bool.and_eq_true, beq_iff_eq] at hmine
    obtain ⟨⟨hcore, hheld⟩, -⟩ := hmine
    simp [inTurnOf, hturn, hfind, hcore, hheld]

theorem runMx_of_launches (h : Launches i s cl id n m l u) (hi : isMatrixCmd i = true) (fail : Nat → Nat → State → State)
    (act : Nat → Nat → Node → List (List (Ref × Nat)) → State → State × Option Nat) :
    runMx i fail act s = .next (acted i cl id (act cl id m l u)) := by
  have hcan : canLaunchMx s cl id n = true := by simpa [hi] using h.taken.can
  obtain ⟨hwaits, hturn⟩ := canLaunchMx_in_turn hcan h.taken.node h.sound
  simp only [runMx, launchNode_of_launches h hcan, h.taken.cur, hwaits, hturn, acted, hi, Bool.not_false, Bool.and_true, true_and]
  split <;> rfl

end Launch

/-! What the shared operations leave of a cluster and of the bytes of every memory. -/

@[simp] theorem clusterOf_noteErr_hcount (cl id : Nat) (e : Option Nat) (s : State) :
    (clusterOf (noteErr cl id e s) cl).hcount = (clusterOf s cl).hcount := by simp [noteErr]
@[simp] theorem clusterOf_noteErr_outr (cl id : Nat) (e : Option Nat) (s : State) :
    (clusterOf (noteErr cl id e s) cl).outr = (clusterOf s cl).outr := by simp [noteErr]
@[simp] theorem clusterOf_noteErr_latch (cl id : Nat) (e : Option Nat) (s : State) :
    (clusterOf (noteErr cl id e s) cl).latch = (clusterOf s cl).latch := by simp [noteErr]
@[simp] theorem clusterOf_countCluster (code n cl k : Nat) (s : State) : clusterOf (countCluster code n cl s) k = clusterOf s k := rfl
@[simp] theorem clusterOf_count (code n c k : Nat) (s : State) : clusterOf (count code n c s) k = clusterOf s k := by
  unfold count; split <;> rfl

/-- Reading a scratchpad range counts its bank words and nothing else (03 R55). -/
theorem touchRange_spRef (mv : Mover) (c off n : Nat) (s : State) :
    touchRange mv (spRef c off) n s = count 0x40 (n / 16) ((spRef c off).pa / 2 ^ 22) s := rfl

@[simp] theorem byteOf_modCluster (cl : Nat) (f : ClusterSt → ClusterSt) (s : State) (p : Place) : byteOf (modCluster cl f s) p = byteOf s p := by
  cases p <;> rfl
@[simp] theorem byteOf_noteErr (cl id : Nat) (e : Option Nat) (s : State) (p : Place) : byteOf (noteErr cl id e s) p = byteOf s p :=
  byteOf_modCluster _ _ _ _

theorem sp_coreOf_modCore (c k : Nat) {f : CoreSt → CoreSt} (hf : ∀ x, (f x).sp = x.sp) (s : State) :
    (coreOf (modCore c f s) k).sp = (coreOf s k).sp := by
  by_cases h : c = k
  · subst h; simp [hf]
  · rw [coreOf_modCore_other _ _ _ _ h]

/-- A change of cores outside their scratchpads changes no byte. -/
theorem byteOf_modCore (c : Nat) {f : CoreSt → CoreSt} (hf : ∀ x, (f x).sp = x.sp) (s : State) (p : Place) :
    byteOf (modCore c f s) p = byteOf s p := by
  cases p with
  | pad k off => simp only [byteOf, sp_coreOf_modCore c k hf]
  | _ => rfl

@[simp] theorem byteOf_count (code n c : Nat) (s : State) (p : Place) : byteOf (count code n c s) p = byteOf s p := by
  unfold count; split
  · rfl
  · exact byteOf_modCore c (fun x => bump_sp _ _ _ x) s p

theorem sp_get_map {f : Nat × CoreSt → Nat × CoreSt} (hk : ∀ e, (f e).1 = e.1) (hf : ∀ e, (f e).2.sp = e.2.sp) (l : AList CoreSt) (c : Nat) :
    (AList.get {} (l.map f) c).sp = (AList.get {} l c).sp := by
  induction l with
  | nil => rfl
  | cons e l ih =>
    simp only [List.map_cons, AList.get, hk]
    split
    · exact hf e
    · exact ih

@[simp] theorem byteOf_breakResv (who : Option Nat) (line : Nat) (s : State) (p : Place) : byteOf (breakResv who line s) p = byteOf s p := by
  unfold breakResv; split
  · cases p with
    | pad c off =>
      refine congrArg (Memory.read · off) (sp_get_map (fun e => ?_) (fun e => ?_) s.cores c) <;> split <;> rfl
    | _ => rfl
  · rfl

theorem byteOf_foldl_breakResv (who : Option Nat) (ls : List Nat) (s : State) (p : Place) :
    byteOf (ls.foldl (fun u k => breakResv who k u) s) p = byteOf s p := by
  induction ls generalizing s with
  | nil => rfl
  | cons k ls ih => rw [List.foldl_cons, ih, byteOf_breakResv]

/-! The histogram unit (15 R363). -/

/-- A word that a counted id increments exactly where p holds has met as many increments as ids that p holds of. -/
theorem foldl_countId_word (g : ClusterSt → Nat) (p : Nat → Bool) (hg : ∀ k id, g (countId k id) = if p id then (g k + 1) % 2 ^ 32 else g k)
    (ids : List Nat) (k : ClusterSt) :
    g (ids.foldl countId k) = if (ids.filter p).length = 0 then g k else (g k + (ids.filter p).length) % 2 ^ 32 := by
  induction ids generalizing k with
  | nil => rfl
  | cons a ids ih =>
    rw [List.foldl_cons, ih, hg]
    by_cases ha : p a = true
    · simp only [ha, if_true, List.filter_cons_of_pos, List.length_cons, Nat.add_one_ne_zero, if_false]
      split <;> omega
    · simp [ha]

theorem countId_hcount {b : Nat} (hb : b < 1024) (k : ClusterSt) (id : Nat) :
    (countId k id).hcount.get 0 b = if (id == b) then (k.hcount.get 0 b + 1) % 2 ^ 32 else k.hcount.get 0 b := by
  unfold countId
  by_cases hid : id = b
  · subst hid; simp [hb]
  · split
    · simp [hid, get_put_other _ _ _ _ _ hid]
    · split <;> simp [hid]

theorem countId_outr (k : ClusterSt) (id : Nat) :
    (countId k id).outr = if (decide (1024 ≤ id) && id != 0xFFFF) then (k.outr + 1) % 2 ^ 32 else k.outr := by
  unfold countId
  split
  · rename_i h; simp [show ¬(1024 ≤ id) by omega]
  · split <;> simp_all

/-- What hg.count leaves in the bins and in OUTR. -/
theorem exec_hgCount {h : Hdr} {s u : State} {cl id core off cnt : Nat} {n m : Node} {l : List (List (Ref × Nat))}
    (hl : Launches (.hgCount h core off cnt) s cl id n m l u) {ids : List Nat}
    (hids : ids = ((entries16 u (8 * cl + core) off cnt).filter (fun e => !e.2)).map (fun e => e.1)) :
    ∃ t, exec (.hgCount h core off cnt) s = .next t ∧ (clusterOf t cl).hcount = (ids.foldl countId (clusterOf u cl)).hcount ∧
      (clusterOf t cl).outr = (ids.foldl countId (clusterOf u cl)).outr := by
  subst hids
  refine ⟨_, runNode_of_launches hl rfl _, ?_, ?_⟩ <;> rw [acted_of_not_matrix rfl] <;> simp [touchRange_spRef]

/-- hg.clear empties the bins and OUTR and leaves the latches and every byte. -/
theorem exec_hgClear {h : Hdr} {s u : State} {cl id : Nat} {n m : Node} {l : List (List (Ref × Nat))}
    (hl : Launches (.hgClear h) s cl id n m l u) :
    ∃ t, exec (.hgClear h) s = .next t ∧ (∀ b, (clusterOf t cl).hcount.get 0 b = 0) ∧ (clusterOf t cl).outr = 0 ∧
      (clusterOf t cl).latch = (clusterOf u cl).latch ∧ ∀ p, byteOf t p = byteOf u p := by
  refine ⟨_, runNode_of_launches hl rfl _, fun b => ?_, ?_, ?_, fun p => ?_⟩ <;> rw [acted_of_not_matrix rfl] <;> simp [AList.get]

/-! Bytes moved between scratchpads (15 R361). -/

/-- The byte a place of a run of writes reads as, where each write's byte is given by its place. -/
theorem read_writes {m : Memory} (w : Memory.wf m = true) (f : Nat → Byte) {bs : AList Nat} (hf : ∀ e ∈ bs, BitVec.ofNat 8 e.2 = f e.1) (a : Nat) :
    Memory.read (bs.foldl (fun m e => Memory.write e.1 (BitVec.ofNat 8 e.2) m) m) a = if a ∈ bs.map Prod.fst then f a else Memory.read m a := by
  induction bs generalizing m with
  | nil => simp
  | cons e bs ih =>
    rw [List.foldl_cons, ih (wf_write _ _ w) (fun e he => hf e (by simp [he])), read_write w, hf e (by simp)]
    by_cases hmem : a ∈ bs.map Prod.fst
    · simp [hmem]
    · by_cases ha : e.1 = a
      · simp [ha]
      · simp [hmem, ha, Ne.symm ha]

/-- A write of bytes to a scratchpad changes no byte outside the core's, and there it is the run of writes. -/
theorem byteOf_spWrite (who : Option Nat) (home : Nat) (bs : AList Nat) (s : State) (p : Place) :
    byteOf (spWrite who home bs s) p =
      byteOf (modCore home (fun x => { x with sp := bs.foldl (fun m e => Memory.write e.1 (BitVec.ofNat 8 e.2) m) x.sp }) s) p := by
  rw [spWrite, byteOf_foldl_breakResv]
  cases p with
  | pad c off =>
    by_cases h : home = c
    · subst h; simp [byteOf]
    · simp [byteOf, coreOf_modCore_other _ _ _ _ h]
  | _ => rfl

theorem byteOf_spWrite_same {s : State} (hs : MemoriesOk s) (who : Option Nat) (home : Nat) (f : Nat → Byte) {bs : AList Nat}
    (hf : ∀ e ∈ bs, BitVec.ofNat 8 e.2 = f e.1) {a : Nat} (ha : a ∈ bs.map Prod.fst) : byteOf (spWrite who home bs s) (.pad home a) = f a := by
  rw [byteOf_spWrite]; simp only [byteOf, coreOf_modCore, read_writes (ok_core hs home) f hf, ha, if_true]

theorem byteOf_spWrite_other {s : State} (hs : MemoriesOk s) (who : Option Nat) (home : Nat) (f : Nat → Byte) {bs : AList Nat}
    (hf : ∀ e ∈ bs, BitVec.ofNat 8 e.2 = f e.1) {p : Place} (hp : ∀ a ∈ bs.map Prod.fst, p ≠ .pad home a) :
    byteOf (spWrite who home bs s) p = byteOf s p := by
  rw [byteOf_spWrite]
  cases p with
  | pad c off =>
    by_cases h : home = c
    · subst h
      have hoff : off ∉ bs.map Prod.fst := fun ha => hp off ha rfl
      simp only [byteOf, coreOf_modCore, read_writes (ok_core hs home) f hf, hoff, if_false]
    · simp [byteOf, coreOf_modCore_other _ _ _ _ h]
  | _ => rfl

/-- What a write by an engine does in a scratchpad beside storing its bytes changes no byte and keeps the memories canonical. -/
theorem storePad_eq_spWrite {s : State} (hs : MemoriesOk s) (mv : Mover) (r : Ref) (bs : AList Nat) :
    ∃ t, storePad mv r bs s = spWrite none (r.pa / 2 ^ 22) (bs.map (fun e => (r.pa % 2 ^ 22 + e.1, e.2))) t ∧ MemoriesOk t ∧
      ∀ p, byteOf t p = byteOf s p := by
  refine ⟨_, rfl, ok_count (ok_ite hs (ok_trafficAt hs _)) _ _ _, fun p => ?_⟩
  rw [byteOf_count]
  split
  · rfl
  · exact byteOf_modCluster _ _ _ _

section StorePad

variable {s : State} (hs : MemoriesOk s) (mv : Mover) (r : Ref) (f : Nat → Byte) {bs : AList Nat}
  (hf : ∀ e ∈ bs, BitVec.ofNat 8 e.2 = f e.1)

include hf in
/-- Bytes given by their offset from a place are given by the place. -/
theorem shifted_bytes (off : Nat) : ∀ e ∈ bs.map (fun e => (off + e.1, e.2)), BitVec.ofNat 8 e.2 = f (e.1 - off) := by
  intro e he
  obtain ⟨x, hx, rfl⟩ := List.mem_map.1 he
  simpa using hf x hx

include hs hf

theorem byteOf_storePad_same {j : Nat} (hj : j ∈ bs.map Prod.fst) :
    byteOf (storePad mv r bs s) (.pad (r.pa / 2 ^ 22) (r.pa % 2 ^ 22 + j)) = f j := by
  obtain ⟨t, hstore, ht, -⟩ := storePad_eq_spWrite hs mv r bs
  have hmem : r.pa % 2 ^ 22 + j ∈ (bs.map (fun e => (r.pa % 2 ^ 22 + e.1, e.2))).map Prod.fst := by simpa using hj
  rw [hstore, byteOf_spWrite_same ht none _ (fun a => f (a - r.pa % 2 ^ 22)) (shifted_bytes f hf _) hmem, Nat.add_sub_cancel_left]

theorem byteOf_storePad_other {p : Place} (hp : ∀ j ∈ bs.map Prod.fst, p ≠ .pad (r.pa / 2 ^ 22) (r.pa % 2 ^ 22 + j)) :
    byteOf (storePad mv r bs s) p = byteOf s p := by
  obtain ⟨t, hstore, ht, hbytes⟩ := storePad_eq_spWrite hs mv r bs
  rw [hstore, byteOf_spWrite_other ht none _ (fun a => f (a - r.pa % 2 ^ 22)) (shifted_bytes f hf _), hbytes]
  intro a ha
  simp only [List.map_map, List.mem_map, Function.comp] at ha
  obtain ⟨e, he, rfl⟩ := ha
  exact hp _ (List.mem_map_of_mem he)

end StorePad

/-! Granules as bytes. -/

theorem readN_byte (m : Memory) (a n j : Nat) (h : j < n) : BitVec.ofNat 8 (Memory.readN m a n / 256 ^ j % 256) = Memory.read m (a + j) := by
  induction n generalizing a j with
  | zero => omega
  | succ n ih =>
    have hlt := (Memory.read m a).isLt
    cases j with
    | zero =>
      have hb : Memory.readN m a (n + 1) / 256 ^ 0 % 256 = (Memory.read m a).toNat := by simp only [Memory.readN]; omega
      rw [hb, BitVec.ofNat_toNat, BitVec.setWidth_eq, Nat.add_zero]
    | succ j =>
      have hb : Memory.readN m a (n + 1) / 256 = Memory.readN m (a + 1) n := by simp only [Memory.readN]; omega
      rw [Nat.pow_succ', ← Nat.div_div_eq_div_mul, hb, ih _ _ (by omega)]
      congr 1; omega

theorem mem_bytesOf {off v n : Nat} {e : Nat × Nat} : e ∈ bytesOf off v n ↔ ∃ j < n, e = (off + j, v / 256 ^ j % 256) := by
  induction n generalizing off v with
  | zero => simp [bytesOf]
  | succ n ih =>
    rw [bytesOf, List.mem_cons, ih, Nat.exists_lt_succ_left]
    simp [Nat.pow_succ', Nat.div_div_eq_div_mul, Nat.add_assoc, Nat.add_comm 1]

/-- The bytes of granules read as f gives them are f's, from 0 on. -/
theorem mem_granBytes_map {n : Nat} {g : Nat → Gran} {e : Nat × Nat} :
    e ∈ granBytes ((List.range n).map g) ↔ ∃ i < n, ∃ j < 16, e = (16 * i + j, (g i).v / 256 ^ j % 256) := by
  simp only [granBytes, List.mem_flatten, List.mem_map, List.mem_zipIdx_iff_getElem?]
  constructor
  · rintro ⟨b, ⟨⟨x, i⟩, hx, rfl⟩, he⟩
    obtain ⟨hlen, hget⟩ := List.getElem?_eq_some_iff.1 hx
    have hi : i < n := by simpa only [List.length_map, List.length_range] using hlen
    have hx : g i = x := by simpa only [List.getElem_map, List.getElem_range] using hget
    subst hx
    obtain ⟨j, hj, rfl⟩ := mem_bytesOf.1 he
    exact ⟨i, hi, j, hj, rfl⟩
  · rintro ⟨i, hi, j, hj, rfl⟩
    have hget : ((List.range n).map g)[i]? = some (g i) := by rw [List.getElem?_map, List.getElem?_range hi, Option.map_some]
    exact ⟨_, ⟨(g i, i), hget, rfl⟩, mem_bytesOf.2 ⟨j, hj, rfl⟩⟩

/-- The places that n granules name are the first 16 n. -/
theorem mem_fst_granBytes {n : Nat} {g : Nat → Gran} {a : Nat} : a ∈ (granBytes ((List.range n).map g)).map Prod.fst ↔ a < 16 * n := by
  simp only [List.mem_map, mem_granBytes_map]
  constructor
  · rintro ⟨_, ⟨i, hi, j, hj, rfl⟩, rfl⟩; dsimp only; omega
  · intro ha
    exact ⟨_, ⟨a / 16, by omega, a % 16, Nat.mod_lt _ (by decide), rfl⟩, Nat.div_add_mod a 16⟩

/-! One transfer. -/

theorem bumpCnt_words (code n : Nat) (own : Bool) (k : Nat) (x : CoreSt) :
    (bumpCnt code n own k x).spBad = x.spBad ∧ (bumpCnt code n own k x).spPois = x.spPois := by
  unfold bumpCnt; dsimp only; split <;> exact ⟨rfl, rfl⟩
theorem foldl_bumpCnt_words (code n : Nat) (own : Bool) (ks : List Nat) (x : CoreSt) :
    (ks.foldl (fun y k => bumpCnt code n own k y) x).spBad = x.spBad ∧ (ks.foldl (fun y k => bumpCnt code n own k y) x).spPois = x.spPois := by
  induction ks generalizing x with
  | nil => exact ⟨rfl, rfl⟩
  | cons k ks ih =>
    obtain ⟨hbad, hpois⟩ := ih (bumpCnt code n own k x)
    obtain ⟨hbad1, hpois1⟩ := bumpCnt_words code n own k x
    exact ⟨hbad.trans hbad1, hpois.trans hpois1⟩
/-- Counting marks no bank word. -/
theorem bump_words (code n : Nat) (own : Bool) (x : CoreSt) :
    (bump code n own x).spBad = x.spBad ∧ (bump code n own x).spPois = x.spPois := by
  unfold bump
  split
  · exact ⟨rfl, rfl⟩
  · exact foldl_bumpCnt_words code n own _ x

theorem spFault_count (code n c k off len : Nat) (s : State) : spFault (coreOf (count code n c s) k) off len = spFault (coreOf s k) off len := by
  unfold count
  split
  · rfl
  · by_cases h : c = k
    · subst h
      obtain ⟨hbad, hpois⟩ := bump_words code n true (coreOf s c)
      simp only [coreOf_modCore, spFault, hbad, hpois]
    · rw [coreOf_modCore_other _ _ _ _ h]
theorem sp_coreOf_count (code n c k : Nat) (s : State) : (coreOf (count code n c s) k).sp = (coreOf s k).sp := by
  unfold count
  split
  · rfl
  · exact sp_coreOf_modCore c k (fun x => bump_sp _ _ _ x) s

theorem wordsHit_eq_false {ws : List Nat} {lo hi off n : Nat} (h : ∀ w ∈ ws, ¬(lo ≤ w ∧ w < hi)) (hlo : lo ≤ off / 16)
    (hhi : (off + n - 1) / 16 < hi) : wordsHit ws off n = false := by
  simp only [wordsHit, List.any_eq_false, Bool.and_eq_true, decide_eq_true_eq]
  intro w hw hin
  exact h w hw ⟨by omega, by omega⟩

/-- A granule of bank words that no error or poison marks has no fault. -/
theorem spFault_eq_none {x : CoreSt} {lo hi off n : Nat} (h : ∀ w ∈ x.spBad ++ x.spPois, ¬(lo ≤ w ∧ w < hi)) (hlo : lo ≤ off / 16)
    (hhi : (off + n - 1) / 16 < hi) : spFault x off n = none := by
  have hbad := wordsHit_eq_false (fun w hw => h w (List.mem_append_left _ hw)) hlo hhi
  have hpois := wordsHit_eq_false (fun w hw => h w (List.mem_append_right _ hw)) hlo hhi
  simp [spFault, hbad, hpois]

theorem spRef_kind (c off : Nat) : (spRef c off).kind = 6 := rfl
theorem spRef_home {c off : Nat} (h : off < 2 ^ 22) : (spRef c off).pa / 2 ^ 22 = c ∧ (spRef c off).pa % 2 ^ 22 = off := by
  simp only [spRef]; omega

theorem readGran_spRef {c off : Nat} (h : off < 2 ^ 22) (s : State) :
    readGran s (spRef c off) = ⟨Memory.readN (coreOf s c).sp off 16, (spFault (coreOf s c) off 16).isSome⟩ := by
  obtain ⟨hdiv, hmod⟩ := spRef_home (c := c) h
  simp only [readGran, spRef_kind, if_true, hdiv, hmod]
  rfl

/-- Granule i of a sound scratchpad range. -/
def padGran (s : State) (c off i : Nat) : Gran := ⟨Memory.readN (coreOf s c).sp (off + 16 * i) 16, false⟩

/-- Reading a range of bank words without error or poison gives its bytes. -/
theorem readRange_spRef {t : State} {a oa k : Nat} (mv : Mover) (hk : k % 16 = 0) (hin : oa + k ≤ 2 ^ 22) (hoa : oa % 16 = 0)
    (hsound : ∀ w ∈ (coreOf t a).spBad ++ (coreOf t a).spPois, ¬(oa / 16 ≤ w ∧ w < (oa + k) / 16)) :
    (readRange mv (spRef a oa) k t).1 = (List.range (k / 16)).map (padGran t a oa) := by
  simp only [readRange, granRefs, List.map_map]
  refine List.map_congr_left (fun i hi => ?_)
  have hi : i < k / 16 := List.mem_range.1 hi
  have href : ({ spRef a oa with pa := (spRef a oa).pa + 16 * i } : Ref) = spRef a (oa + 16 * i) := by simp [spRef, Nat.add_assoc]
  have hfault : spFault (coreOf t a) (oa + 16 * i) 16 = none := spFault_eq_none hsound (by omega) (by omega)
  rw [Function.comp, href, readGran_spRef (by omega), touchRange_spRef, spFault_count, sp_coreOf_count, hfault]
  rfl

theorem moveAll_single {mv : Mover} {x : Xfer} {t : State} (h : isRemote t x.src = false) :
    moveAll mv [x] t = (writeRange mv x.dst (readRange mv x.src x.n t).1 (readRange mv x.src x.n t).2,
      if (readRange mv x.src x.n t).1.any (fun g => g.bad) then some (badCause t x.src x.n) else none) := by
  simp [moveAll, readAll, h]

/-- Sound granules poison nothing where they are written. -/
theorem foldl_poisonGran_sound {es : List (Gran × Ref)} (h : ∀ e ∈ es, e.1.bad = false) (t : State) :
    es.foldl (fun v e => if e.1.bad then poisonGran e.2 v else v) t = t := by
  induction es generalizing t with
  | nil => rfl
  | cons e es ih =>
    rw [List.foldl_cons, h e (by simp)]
    exact ih (fun e he => h e (by simp [he])) t

/-- Sound granules are written to a scratchpad as their bytes alone, where no tag is filled. -/
theorem writeRange_spRef {mv : Mover} (hfill : mv.fill = false) {gs : List Gran} (hgs : ∀ g ∈ gs, g.bad = false) (b ob : Nat) (s : State) :
    writeRange mv (spRef b ob) gs s = storePad mv (spRef b ob) (granBytes gs) s := by
  have hzip : ∀ e ∈ gs.zip (granRefs (spRef b ob) (16 * gs.length)), e.1.bad = false := fun e he => hgs _ (List.of_mem_zip he).1
  simp only [writeRange, hfill, foldl_poisonGran_sound hzip]
  rfl

/-- What a move between two scratchpads carries, and what it leaves. -/
theorem moveAll_pads {mv : Mover} {t : State} {a b oa ob k : Nat} (ht : MemoriesOk t) (hfill : mv.fill = false) (hk : k % 16 = 0)
    (hina : oa + k ≤ 2 ^ 22) (hinb : ob + k ≤ 2 ^ 22) (hoa : oa % 16 = 0)
    (hsound : ∀ w ∈ (coreOf t a).spBad ++ (coreOf t a).spPois, ¬(oa / 16 ≤ w ∧ w < (oa + k) / 16)) :
    (moveAll mv [⟨spRef a oa, spRef b ob, k⟩] t).2 = none ∧
      (∀ j < k, byteOf (moveAll mv [⟨spRef a oa, spRef b ob, k⟩] t).1 (.pad b (ob + j)) = byteOf t (.pad a (oa + j))) ∧
      ∀ p, (∀ j < k, p ≠ .pad b (ob + j)) → byteOf (moveAll mv [⟨spRef a oa, spRef b ob, k⟩] t).1 p = byteOf t p := by
  have hmove := moveAll_single (mv := mv) (x := ⟨spRef a oa, spRef b ob, k⟩) (t := t) rfl
  rw [readRange_spRef mv hk hina hoa hsound, writeRange_spRef hfill (by simp [padGran])] at hmove
  have hnone : ((List.range (k / 16)).map (padGran t a oa)).any (fun g => g.bad) = false := by simp [padGran]
  have hread : MemoriesOk (readRange mv (spRef a oa) k t).2 := ok_readRange ht mv _ _
  have hbytes : ∀ e ∈ granBytes ((List.range (k / 16)).map (padGran t a oa)), BitVec.ofNat 8 e.2 = Memory.read (coreOf t a).sp (oa + e.1) := by
    intro e he
    obtain ⟨i, -, j, hj, rfl⟩ := mem_granBytes_map.1 he
    rw [padGran, readN_byte _ _ _ _ hj, Nat.add_assoc]
  have hhome : ∀ j < k, (spRef b ob).pa / 2 ^ 22 = b ∧ (spRef b ob).pa % 2 ^ 22 = ob := fun j hj => spRef_home (by omega)
  have hplace : ∀ j, j ∈ (granBytes ((List.range (k / 16)).map (padGran t a oa))).map Prod.fst ↔ j < k := by
    intro j; rw [mem_fst_granBytes]; omega
  rw [hmove]
  refine ⟨by simp [hnone], fun j hj => ?_, fun p hp => ?_⟩
  · have hsame := byteOf_storePad_same hread mv (spRef b ob) (fun o => Memory.read (coreOf t a).sp (oa + o)) hbytes ((hplace j).2 hj)
    rwa [(hhome j hj).1, (hhome j hj).2] at hsame
  · refine (byteOf_storePad_other hread mv (spRef b ob) (fun o => Memory.read (coreOf t a).sp (oa + o)) hbytes (fun j hj => ?_)).trans
      (byteOf_count _ _ _ _ _)
    have hjk := (hplace j).1 hj
    rw [(hhome j hjk).1, (hhome j hjk).2]
    exact hp j hjk

/-! The statement, and where it spells an operation of the model out. -/

/-- A fold over the numbered images of the first k numbers is one over the numbers. -/
theorem foldl_zipIdx_range {α β : Type} (f : Nat → α) (g : β → α × Nat → β) (b : β) (k : Nat) :
    ((List.range k).map f).zipIdx.foldl g b = (List.range k).foldl (fun q e => g q (f e, e)) b := by
  rw [← List.foldl_map (f := fun e => (f e, e)) (g := g)]
  congr 1
  apply List.ext_getElem <;> simp

theorem bBank_eq (b : Bool) : bBank b = if b then 3 else 2 := by cases b <;> rfl

theorem rowNamed_iff (e : Nat × Bool) : rowNamed e = true ↔ e.2 = false ∧ e.1 ≠ 0xFFFF := by simp [rowNamed]

/-- Settles O54: the launch of each command runs its accesses, which for the histogram unit and for a move between scratchpads are
also said in bins and bytes. -/
theorem launched_commands_make_their_accesses : Obligations.launched_commands_make_their_accesses := by
  intro s cl id n m l u h va src dst len off cnt core sp planes path
  refine ⟨?nop, ?copyIn, ?copyOut, ?s2s, ?ck, ?twoD, ?gath, ?rred, ?count, ?latch, ?clear, ?copy, ?copyNone, ?cvt, ?red, ?bdGath, ?load,
    ?gatha, ?csrb, ?zero, ?run, ?drain, ?stat, ?bytes⟩
  case nop =>
    intro i hi hl
    obtain rfl := List.mem_singleton.1 hi
    exact runNode_of_launches hl rfl _
  case copyIn => rintro i mv (⟨rfl, rfl⟩ | ⟨rfl, rfl⟩) hl <;> exact runNode_of_launches hl rfl _
  case copyOut => rintro i mv (⟨rfl, rfl⟩ | ⟨rfl, rfl⟩) hl <;> exact runNode_of_launches hl rfl _
  case s2s => rintro ddie dclus dcore doff i rfl hl; exact runNode_of_launches hl rfl _
  case ck => rintro i rfl hl; exact runNode_of_launches hl rfl _
  case twoD => rintro dir gstride sstride rows i rfl hl; exact runNode_of_launches hl rfl _
  case gath => rintro icore ioff i rfl hl; exact runNode_of_launches hl rfl _
  case rred => rintro op dbl i xs rfl hl rfl; exact runNode_of_launches hl rfl _
  case count =>
    rintro i rfl hl ids hids
    obtain ⟨t, ht, hcount, houtr⟩ := exec_hgCount hl hids
    refine ⟨t, ht, ?_, ?_⟩
    · rintro b hb c rfl
      rw [hcount]
      exact foldl_countId_word (fun k => k.hcount.get 0 b) (fun x => x == b) (countId_hcount hb) ids _
    · rintro c rfl
      rw [houtr]
      exact foldl_countId_word (fun k => k.outr) (fun x => decide (1024 ≤ x) && x != 0xFFFF) countId_outr ids _
  case latch => rintro first k clr wr base i es v rfl hl rfl rfl; exact runNode_of_launches hl rfl _
  case clear => rintro i rfl hl; exact exec_hgClear hl
  case copy =>
    rintro a b stack i rfl hl hlen
    refine (runNode_of_launches hl rfl _).trans ?_
    simp only [Nat.ne_of_gt hlen, if_false]
  case copyNone => rintro a b stack i rfl hl; exact runNode_of_launches hl rfl _
  case cvt =>
    rintro a b sf df rm sat stack i gs e v ps rfl hl rfl hread
    refine (runNode_of_launches hl rfl _).trans ?_
    simp only [hread]
  case red =>
    rintro a b k vs f rm sat stack i g r rfl hl rfl rfl
    refine (runNode_of_launches hl rfl _).trans ?_
    simp only [foldl_zipIdx_range]
  case bdGath => rintro a b icore ioff ru stack i es named x rfl hl rfl rfl rfl; exact runNode_of_launches hl rfl _
  case load =>
    rintro ld i b (⟨rfl, rfl⟩ | ⟨rfl, rfl⟩) hl
    · exact runMx_of_launches hl rfl _ _
    · rw [← bBank_eq]; exact runMx_of_launches hl rfl _ _
  case gatha =>
    rintro ld icore ioff i rfl hl
    refine (runMx_of_launches hl rfl _ _).trans ?_
    simp only [rowNamed_iff]
    rfl
  case csrb => rintro ri ci vi kcnt koff bank f i rfl hl; rw [← bBank_eq]; exact runMx_of_launches hl rfl _ _
  case zero => rintro negz acls i rfl hl; exact runMx_of_launches hl rfl _ _
  case run => rintro kcnt koff mm nn ab bb i rfl hl; exact runMx_of_launches hl rfl _ _
  case drain => rintro d i rfl hl; exact runMx_of_launches hl rfl _ _
  case stat =>
    rintro clr i le v rfl hl hlease rfl
    refine (runMx_of_launches hl rfl _ _).trans ?_
    simp only [hlease]
  case bytes =>
    intro mv t a b oa ob k ht hfill hk _ _ hina hinb hoa hsound
    exact moveAll_pads ht hfill hk hina hinb hoa hsound

end Sys2Proof.Proofs.LaunchedCommands
end
